-- ==== Sys2Proof/Word.lean ====
section
/-! DEFINITION. Bytes and the plainest 32-bit arithmetic of the part. The part's quantities are counts, indices and
lengths (Nat); what is bits to the manual is a `Byte` or a `Word`. -/

namespace Sys2Proof

/-- A byte of buffer memory, of the tag or of the library line. -/
abbrev Byte := BitVec 8

/-- A 32-bit word that the part copies and does not interpret (a command's tag). -/
abbrev Word := BitVec 32

/-- 2^32, the modulus of record numbers, segment numbers and 32-bit counts. -/
abbrev two32 : Nat := 4294967296

/-- The largest 32-bit value, at which the saturating 32-bit counts stop. -/
abbrev max32 : Nat := 4294967295

/-- The next 32-bit number, wrapping (record numbers). -/
def inc32 (n : Nat) : Nat := (n + 1) % two32

/-- Add to a 32-bit count that saturates at 2^32 - 1. -/
def satAdd32 (n k : Nat) : Nat := min (n + k) max32

/-- Add one to a 16-bit count that saturates at 65,535. -/
def satInc16 (n : Nat) : Nat := min (n + 1) 65535

/-- `clamp(x, lo, hi)` of 00_scope.md 0.5. -/
def clampNat (x lo hi : Nat) : Nat := max lo (min x hi)

/-- `clamp(x, lo, hi)` on integers, answering a natural number (the bounds are natural numbers). -/
def clampInt (x : Int) (lo hi : Nat) : Nat := (max (lo : Int) (min x (hi : Int))).toNat

end Sys2Proof
end

