-- ==== Sys2Proof/Syntax.lean ====
section
/-! DEFINITION. The commands of the part: one constructor of `Instr` per row of spec/opcode_table.json, in the table's
order, with the operands the row's event brings. Front-port rows carry the request (master, address, and for a write its
bytes with their byte enables: `none` is a byte position that the write does not enable, R68); sensor and timer rows carry what the sensors report at that moment; firmware-command rows carry the command's tag and operands
(12_formats_in_buffer_memory.md 12.3); library rows carry the bytes on the line. -/

namespace Sys2Proof

/-- The two bus masters of the front port (00_scope.md 0.2). -/
inductive Master where
  | interfaceController
  | controlProcessor
deriving DecidableEq, Repr

/-- The write-protect tab's value (R2). -/
inductive Tab where
  | isProtected
  | isWritable
deriving DecidableEq, Repr

/-- The two reels (R32). -/
inductive Reel where
  | supply
  | takeUp
deriving DecidableEq, Repr

/-- What the cartridge and path sensors show at a reset (R21). `moving` is whether the position input shows movement, and
`movement` its movement count (R26). -/
structure Sensors where
  seat : Bool
  tape : Bool
  hub : Bool
  pin : Bool
  tab : Tab
  moving : Bool
  movement : Int
deriving DecidableEq, Repr

/-- What one scan delivers (R26): the four codes in their order, the movement count in quarter counts (rising with
forward movement), the servo's pass and count (R43) and the tape-in-path sensor's level (R27). -/
structure ScanSample where
  tension : Nat
  supplyCurrent : Nat
  takeUpCurrent : Nat
  arm : Nat
  movement : Int
  servoPass : Nat
  servoCount : Nat
  tape : Bool
deriving DecidableEq, Repr

/-- The identity each frame carries on tape (R111). -/
structure FrameId where
  seg : Nat
  idx : Nat
  placement : Nat
  stamp : Nat
deriving DecidableEq, Repr

/-- The status of a frame in the read-status stream (R115, R145). -/
inductive FrameStatus where
  | good
  | corrected (n : Nat)
  | uncorrectable
deriving DecidableEq, Repr

/-- A library header as the line brings it (R191): the time between the rate byte's two falling edges in nanoseconds, its
stop cell's framing and lateness, and the address byte with its own. -/
structure LinkHeader where
  fallInterval : Nat
  rateFraming : Bool
  rateLate : Bool
  addr : Byte
  addrFraming : Bool
  addrLate : Bool
deriving DecidableEq, Repr

/-- A library payload as the line brings it (R192): its bytes, its check byte, and whether a byte came late or with a
framing error. -/
structure LinkPayload where
  bytes : List Byte
  check : Byte
  framing : Bool
  late : Bool
deriving DecidableEq, Repr

/-- The fields SET_STREAM_POLICY carries (R139; 12.3, code 14h). -/
structure StreamOperands where
  bandMin : Nat
  bandMax : Nat
  readBand : Nat
  heavy : Nat
  restart : Nat
  highMark : Nat
  dwell : Nat
  readAhead : Nat
deriving DecidableEq, Repr

/-- The fields SET_MONITOR carries (R164; 12.3, code 30h). -/
structure MonitorOperands where
  counter : Nat
  mode : Nat
  source : Nat
  threshold : Nat
  invert : Bool
  limit : Nat
deriving DecidableEq, Repr

/-- The fields SET_CLEAN_LIMITS carries (R175; 12.3, code 32h). -/
structure CleanOperands where
  soft : Nat
  hard : Nat
  usage : Nat
  escalation : Nat
deriving DecidableEq, Repr

/-- A firmware command with its operands, as a job's place holds it (R182, 12.3). -/
inductive FwOp where
  | load
  | unload (force : Bool)
  | locate (target r : Nat)
  | recalibrate
  | park
  | setPowerPolicy (enables dwell : Nat)
  | writeOpen (offset : Nat) (compress : Bool)
  | flush
  | writeClose
  | writeAbort
  | setStreamPolicy (p : StreamOperands)
  | readRecords (n : Nat)
  | readAbort
  | setMonitor (m : MonitorOperands)
  | healthSnapshot
  | setCleanLimits (l : CleanOperands)
  | linkReply (bytes : List Byte)
  | linkAttention
deriving DecidableEq, Repr

/-- The commands of the part, one per row of spec/opcode_table.json. -/
inductive Instr where
  -- Chapter 4: the buffer path
  | frontPortWrite (m : Master) (addr : Nat) (data : List (Option Byte))
  | frontPortRead (m : Master) (addr len : Nat)
  | bindingWordWrite (m : Master) (addr : Nat) (data : List (Option Byte))
  | anchorReadReturn
  | stagingWrite (m : Master) (addr : Nat) (data : List (Option Byte))
  | holdTimerExpiry
  | deliveryTailRead (m : Master) (addr len : Nat)
  | memoryPortGrant
  -- Chapter 10: intake and completions
  | sequenceWordWrite (m : Master) (addr : Nat) (data : List (Option Byte))
  | slotReadReturn
  | consumerWordWrite (m : Master) (addr : Nat) (data : List (Option Byte))
  | internalQueueEntry
  | ringRecordWrite
  -- Resets
  | powerOn (sn : Sensors) (strap : BitVec 3)
  | resetLine (sn : Sensors) (strap : BitVec 3)
  | resetSettle (sn : Sensors)
  -- Chapter 1: cartridge handling
  | seatClose (tab : Tab)
  | seatOpen
  | tapeInPathLoss
  | brakeRelease
  | load (tag : Word)
  | automaticLoad
  | tagReadComplete (image : List Byte)
  | tagReadLimit
  | hubEngaged
  | pinCaptured
  | armMoveDone (code : Nat) (tape : Bool)
  | loadStepLimit
  | tensionSettled
  | servoLock (pass count : Nat)
  | openFlagWriteEnd (ok : Bool)
  | unload (tag : Word) (force : Bool)
  | tensionDownDone
  | pinReleased
  | hubReleased
  | unloadStepLimit
  | tagWriteEnd (ok : Bool)
  -- Chapter 2: reel drive and power
  | periodStart
  | scanComplete (x : ScanSample)
  | reelDegrade (r : Reel)
  | reelReturnNormal (r : Reel)
  | tensionExcursion
  | reelStall
  | setPowerPolicy (tag : Word) (enables dwell : Nat)
  | park (tag : Word)
  | parkDwellExpiry
  | unparkSettled
  | unparkTensionTimeout
  | unparkServoTimeout
  -- Chapter 3: motion
  | locate (tag : Word) (target r : Nat)
  | recalibrate (tag : Word)
  | recalibrateLockTimeout
  | recalibrateNoMovement
  | lossOfLock
  | reacquireTimeout
  | meter
  | cleaningDistanceReached
  | retensionTimeout
  | recoveryLockTimeout
  | stopTimeout
  | rampComplete
  | moveArrived
  -- Chapter 6: frames
  | frameSlot
  | frameTransmissionComplete
  | verifyResult (id : FrameId) (st : FrameStatus)
  | blankDetection
  -- Chapter 5: write sessions and intake
  | writeOpen (tag : Word) (offset : Nat) (compress : Bool)
  | sessionCountWriteEnd (ok : Bool)
  | stagingFetchReturn
  | chunkPlaced
  | recompressDone
  | slotExhaustionEnd
  | parityDone
  | flush (tag : Word)
  | writeClose (tag : Word)
  | writeAbort (tag : Word)
  -- Chapter 7: speed matching
  | setStreamPolicy (tag : Word) (p : StreamOperands)
  | intervalExpiry
  -- Chapter 8: reading
  | readRecords (tag : Word) (n : Nat)
  | readAbort (tag : Word)
  | frameReceived (id : FrameId) (st : FrameStatus) (start : Nat) (data : List Byte)
  | readResume
  | rebuildDone
  | deliveryRoomGranted
  | slotDrained
  -- Chapter 9: health
  | healthTick
  | setMonitor (tag : Word) (m : MonitorOperands)
  | healthSnapshot (tag : Word)
  | setCleanLimits (tag : Word) (l : CleanOperands)
  -- Chapter 11: library link
  | status (h : LinkHeader)
  | cartId (h : LinkHeader)
  | cleanInfo (h : LinkHeader)
  | loadHint (h : LinkHeader) (p : LinkPayload)
  | unloadReq (h : LinkHeader) (p : LinkPayload)
  | passOut (h : LinkHeader)
  | passIn (h : LinkHeader) (p : LinkPayload)
  | linkHeaderOther (h : LinkHeader)
  | linkByteTimeout
  | linkIdleExpiry
  | answerSent
  | transmitMismatch (lineActive : Bool)
  | linkReply (tag : Word) (bytes : List Byte)
  | linkAttention (tag : Word)
  | attentionPulseStart
  | attentionPulseEnd (lineActive : Bool)
  | attentionWindowExpiry
  | attentionGapExpiry
  | libraryAttention (micros : Nat)
  | lineLevelChange (active : Bool)
deriving DecidableEq, Repr

end Sys2Proof
end

