-- ==== Sys2Proof/Decode.lean ====
section
/-! DEFINITION. Decoding of table words. The part is a block: it takes commands, not words, and spec/opcode_table.json gives
none of its rows any bits ("fields" is empty in all 109). No word spells a command. -/

namespace Sys2Proof

/-- The command that a word of `nbits` bits spells: none, since no row has bits. -/
def decodeTableWord (nbits w : Nat) : Option Instr :=
  match nbits, w with
  | _, _ => none

end Sys2Proof
end

