-- ==== Sys2Proof/Config.lean ====
section
/-! DEFINITION. The constants of the part: sizes, distances in counts of 0.25 mm, speeds in quarter counts per 32 scans,
and what a byte of buffer memory reads as that nothing has written. The lengths of timers are not here: a timer is a
running flag of the state and its expiry is a row of the table (log entry 3). -/

namespace Sys2Proof.Config

/-- 512 MiB of buffer memory, addresses 0 to 1FFFFFFFh (00_scope.md 0.2). -/
abbrev memBytes : Nat := 536870912

/-- What a byte reads as that nothing has written. DESIGN CHOICE, unsafe (log entry 1): the spec gives the DRAM no
contents. -/
abbrev blankByte : Byte := 0

/-- The values the spec leaves unstated after a step that it defines, one for each reading (log entry 31). It has no body:
nothing is known of it. -/
opaque freeValue : Nat → Nat

/-- One line of the memory port (R82). -/
abbrev lineBytes : Nat := 64

/-- Counts of the data region's ends (R43). -/
abbrev regionLow : Nat := 20000
abbrev regionHigh : Nat := 3620000

/-- The last count of the tape (R43). -/
abbrev tapeEnd : Nat := 3640000

/-- Frame pitch (R43). -/
abbrev pitch : Nat := 48

/-- The lead-in from a standing point: one segment length (R44). -/
abbrev leadIn : Nat := 1536

/-- The blank gap of a skip, and the distance of an approach or lead-in point (R47, R117, R147). -/
abbrev skipGap : Nat := 3072

/-- The gap of a band change (R51, R52). -/
abbrev rampGap : Nat := 768

/-- The room a segment needs on its pass (R51). -/
abbrev segmentRoom : Nat := 2304

/-- The length of blank detection (R15, R49). -/
abbrev blankLength : Nat := 12288

/-- Speeds v* (R27, R45): locate, thread, and the default of backhitch and recovery moves. -/
abbrev locateSpeed : Nat := 307
abbrev threadSpeed : Nat := 26
abbrev moveSpeed : Nat := 102

/-- Tension targets T* (R27). -/
abbrev tStream : Nat := 2048
abbrev tHold : Nat := 1600
abbrev tPark : Nat := 900
abbrev tThread : Nat := 1200
abbrev tClean : Nat := 1800

/-- Bytes of a frame's payload (00_scope.md 0.6). -/
abbrev frameBytes : Nat := 32768

/-- Offset of the trailer in a segment's payload (R96). -/
abbrev trailerAt : Nat := 917440

/-- Bytes of a segment slot (R108). -/
abbrev slotBytes : Nat := 1048576

/-- Raw bytes of a full chunk (R91). -/
abbrev chunkBytes : Nat := 16384

/-- Bytes of the cartridge record and tag (12.7). -/
abbrev cartBytes : Nat := 16384

end Sys2Proof.Config
end

