-- ==== Sys2Proof/Machine/State.lean ====
section
/-! DEFINITION. The state of the part as plain data: one structure per block of 00_scope.md 0.3, each field with the
rule that names it and its value after reset, the buffer memory, and the queue of commands that are waiting. Fields
marked MODEL are bookkeeping of the model (a step in progress, an output held for a reader), not registers of the
spec. -/

namespace Sys2Proof.Machine

/-- Transport states (R1), coded 0 to 8 in this order (12.2). -/
inductive Transport where
  | empty | seated | loading | ready | parked | active | unloading | unpositioned | faulted
deriving DecidableEq, Repr

/-- Motion modes (R45). -/
inductive MotionMode where
  | locate | writeStream | readStream | turn | ramp | runout | backhitch | waitData | cleanRun | recovery
deriving DecidableEq, Repr

/-- Quality of the tape position (R43). -/
inductive Quality where
  | locked | estimated | unknown
deriving DecidableEq, Repr

/-- Direction of tape motion: FORWARD is toward increasing counts (R29, R43). -/
inductive Dir where
  | forward | reverse
deriving DecidableEq, Repr

/-- Direction of the thread arm (R23). -/
inductive ArmDir where
  | towardPull | towardHome
deriving DecidableEq, Repr

/-- Statuses a completion may carry (R182), coded 0 to 15 in this order (12.4). -/
inductive Status where
  | ok | refusedState | refusedOperand | aborted | overrun | formatError | writeError | readError | motionFault
  | threadFailed | endOfData | endOfTape | filemarkSeen | cleanCartExpired | cleaned | unsupportedMedia
deriving DecidableEq, Repr

/-- Sub-codes of REFUSED_STATE (R182), numbered from 1 in this order (12.4). -/
inductive SubCode where
  | noCartridge | notLoaded | alreadyLoaded | busyTransport | notPositioned | transportFaulted | writeProtected
  | sessionOpen | readActive | noSession | noRead
deriving DecidableEq, Repr

/-- Notice kinds (R184), numbered from 1 in this order (12.4). -/
inductive NoticeKind where
  | cartridgeSeated | cartridgeRemoved | loadDone | unloadDone | wake | sessionError | earlyWarning | tagWriteFailed
  | cleanStateChanged | mediaDegraded | monitorAlarm | linkRequest | linkLate | linkNoAnswer | sequenceBreak
deriving DecidableEq, Repr

/-- The five jobs (R182). -/
inductive JobId where
  | transport | write | read | health | link
deriving DecidableEq, Repr

/-- A position: pass 0 to 47 and count (R43). -/
structure Pos where
  pass : Nat
  count : Nat
deriving DecidableEq, Repr

/-- A command as copied from its slot (R180). -/
structure FwCmd where
  tag : Word
  op : FwOp
deriving DecidableEq, Repr

/-- What holds a running place: a command, or on TRANSPORT the automatic load (R5) or the library's unload with the two
payload bytes of its request (R181, R194). -/
inductive Holder where
  | cmd (c : FwCmd)
  | autoLoad
  | autoUnload (payload : List Byte)
deriving DecidableEq, Repr

/-- A job: its running and pending places and its finishing state (R181, R183). `judged` is MODEL: the running command's
own row has been carried out. -/
structure Job where
  running : Option Holder
  judged : Bool
  finishing : Bool
  pending : Option FwCmd
deriving DecidableEq, Repr

/-- A completion or notice record before its lap flag is set (R184, 12.4): kind, byte 1, sub-code, repeat count, command
code, present flags, tag, and the bytes from 12 on. -/
structure Record where
  notice : Bool
  status : Nat
  sub : Nat
  rep : Nat
  code : Nat
  present : Nat
  tag : Word
  body : List Byte
deriving DecidableEq, Repr

/-- Who waits to enter the internal completion queue (R185): a job's completion, intake's own, one of the 12 notice
places, or a monitor counter's alarm place. -/
inductive WaitKey where
  | job (j : JobId)
  | intake
  | notice (k : NoticeKind)
  | alarm (counter : Nat)
deriving DecidableEq, Repr

/-- Why intake reads a slot (R178, R180, R183). -/
inductive SlotReadKind where
  | slot | lookAhead | reRead
deriving DecidableEq, Repr

/-- States of Command Intake (R178). -/
inductive CmdIntakeState where
  | waiting
  | reading (k : SlotReadKind)
  | posting
  | stalled (j : JobId)
deriving DecidableEq, Repr

/-- Command Intake and the jobs (R178, R181). -/
structure CommandIntake where
  /-- Intake index (R178); reset 0 (R189). -/
  index : Nat
  /-- Expected sequence, 1 to 65,535 (R178); reset 1 (R189). -/
  expected : Nat
  /-- Intake state (R178); reset WAITING (R189). -/
  state : CmdIntakeState
  /-- MODEL: the slot line that a slot read has returned and that SLOT_READ_RETURN takes (R178). -/
  returned : Option (List Byte)
  transport : Job
  write : Job
  read : Job
  health : Job
  link : Job
  /-- MODEL: jobs whose running command has come in a recovery and waits for it to return before it is judged (R66). -/
  deferred : List JobId
deriving DecidableEq, Repr

/-- The Completion Queue (R185, R186). -/
structure CompletionQueue where
  /-- Internal completion queue, at most 8 records (R185); reset empty (R189). -/
  queue : List Record
  /-- Records waiting to enter, oldest post first: job completions, intake's, and the notice places (R184, R185). -/
  waiting : List (WaitKey × Record)
  /-- Producer index P (R186); reset 0. -/
  p : Nat
  /-- Last consumer value C (R186); reset 0. -/
  c : Nat
  /-- Lap flag (R186); reset 1. -/
  lap : Bool
  /-- MODEL: a record's write is between its issue and its grant (R187). -/
  writing : Bool
  /-- The service line (R188); reset deasserted. -/
  service : Bool
deriving DecidableEq, Repr

/-- The bound layout (4.2, 12.2). -/
structure Layout where
  serial : Nat
  driveId : List Byte
  cmdBase : Nat
  k : Nat
  compBase : Nat
  n : Nat
  consumer : Nat
  stBase : Nat
  z : Nat
  dlBase : Nat
  zd : Nat
  segBase : Nat
  s : Nat
  cartBase : Nat
  histBase : Nat
  ctxBase : Nat
deriving DecidableEq, Repr

/-- A front-port write (R68); a byte that is not enabled is `none`. -/
structure FrontWrite where
  master : Master
  addr : Nat
  data : List (Option Byte)
deriving DecidableEq, Repr

/-- A span of the span table: start and end offset (R77). -/
structure Span where
  start : Nat
  stop : Nat
deriving DecidableEq, Repr

/-- States of a delivery piece (R80). -/
inductive PieceState where
  | writing | written | marked
deriving DecidableEq, Repr

/-- An entry of the piece list: start offset, length (its tail is the last byte), state (R80). -/
structure Piece where
  start : Nat
  len : Nat
  state : PieceState
deriving DecidableEq, Repr

/-- Requester classes of the memory port (R82). -/
inductive ReqClass where
  | tape | front | internal
deriving DecidableEq, Repr

/-- What the grant of a request's last line means to the block that issued it. -/
inductive Purpose where
  | plain
  | frontRead (m : Master)
  | anchor
  | slotRead
  | stagingFetch
  | chunkFetch
  | parityRead
  | rebuildRead
  | drainRead
  | contextPop (depth : Nat)
  | record
  | pieceHeader (start : Nat)
  | txFrame
deriving DecidableEq, Repr

/-- A transfer waiting for the memory port: its lines go one per grant in ascending order (R82). `data` is what a write
has still to write, `none` where a front-port write enables no byte, `len` what is still to move, `got` what a read has
returned so far. -/
structure Req where
  cls : ReqClass
  isWrite : Bool
  addr : Nat
  len : Nat
  data : List (Option Byte)
  got : List Byte
  what : Purpose
deriving DecidableEq, Repr

/-- MODEL: how many writes have been acknowledged to each master, the part's output on the front port (R68). -/
structure Acks where
  interfaceController : Nat
  controlProcessor : Nat
deriving DecidableEq, Repr

/-- MODEL: the last front-port read answered, the part's output to the requesting master (R68). -/
structure ReadReturn where
  master : Master
  data : List Byte
deriving DecidableEq, Repr

/-- The Buffer Path (R68 to R83). -/
structure BufferPath where
  /-- The layout in force; none while UNBOUND (4.2); reset none (R83). -/
  layout : Option Layout
  /-- A binding is in progress (R70); reset no. -/
  binding : Bool
  /-- Rebind request (R70); reset clear. -/
  rebind : Bool
  /-- MODEL: the anchor block as returned, until ANCHOR_READ_RETURN takes it (R70). -/
  anchor : Option (List Byte)
  /-- The staging watch is active (R75); reset inactive. -/
  watch : Bool
  /-- Release point of the staging ring (R75); reset 0. -/
  release : Nat
  /-- Retained length Rl (R75); reset 0. -/
  rl : Nat
  /-- Span table, at most 8 (R75, R77); reset empty. -/
  spans : List Span
  /-- Held write with its running hold timer (R78); reset none. -/
  held : Option FrontWrite
  /-- Writes waiting at the front port behind the held write, in order (R68); reset none. -/
  behind : List FrontWrite
  /-- Delivery write position (R80); reset 0. -/
  wpos : Nat
  /-- Delivery occupied length (R80); reset 0. -/
  occupied : Nat
  /-- Piece list, at most 64 (R80); reset empty. -/
  pieces : List Piece
  /-- Requests waiting for the memory port, in the order issued, each with its class (R82); reset empty. -/
  reqs : List Req
  /-- Starvation count 0 to 8 (R82); reset 0. -/
  starve : Nat
  /-- MODEL: output of the front port, the last read answered (R68). -/
  lastRead : Option ReadReturn
  /-- MODEL: how many front-port writes have been acknowledged to each master (R68). -/
  acks : Acks
deriving DecidableEq, Repr

/-- Write session states (R84). -/
inductive Session where
  | closed | opened | closing | error
deriving DecidableEq, Repr

/-- Record intake states (R89). -/
inductive IntakeState where
  | idle | header | data | placing | recompress | stopping
deriving DecidableEq, Repr

/-- The record in progress: number, length, raw bytes already placed, and raw bytes placed in the slot now FILLING or an
earlier one (R87, R91). -/
structure RecordInProgress where
  num : Nat
  len : Nat
  placed : Nat
deriving DecidableEq, Repr

/-- What waits in PLACING (R89): a filemark entry, or a chunk with the lengths of its raw bytes and of its body. The bytes of a
COMPRESSED body stand in the chunk buffer (R95); the raw bytes, which are a RAW body, stand in the staging ring up to the cursor. Body
length 0 (MODEL): a chunk that a misfit left, which waits for a slot to be compressed afresh (R99). -/
inductive PendingItem where
  | chunk (raw body : Nat) (compressed : Bool)
  | filemark
deriving DecidableEq, Repr

/-- The current fragment (R96, R97). -/
structure Fragment where
  num : Nat
  first : Bool
  reset : Bool
  raw : Nat
  stored : Nat
deriving DecidableEq, Repr

/-- Record Intake and the Compressor (R84 to R107). -/
structure RecordIntake where
  /-- Session state (R84); reset CLOSED. -/
  session : Session
  /-- Error status of the session (R84); reset none. -/
  err : Option Status
  /-- Last complete record number (R84). -/
  lastComplete : Nat
  /-- Intake cursor (R89); reset 0. -/
  cursor : Nat
  /-- Intake state (R89); reset IDLE. -/
  st : IntakeState
  /-- Next record number (R86, R107); reset 0. -/
  nextRec : Nat
  /-- Next segment number (R86, R107); reset 0. -/
  nextSeg : Nat
  /-- Compress setting, true for ON (R85, R107); reset ON. -/
  compress : Bool
  /-- History, the last 2,048 raw bytes (R92); reset empty. -/
  history : List Byte
  /-- Bytes of the header at the cursor taken so far (R87, R90). -/
  hdr : List Byte
  /-- Raw bytes of the chunk in progress taken so far (R90, R91). -/
  raw : List Byte
  /-- Chunk buffer: the token stream of the chunk last compressed (R95); reset empty. -/
  chunkBuf : List Byte
  /-- Record in progress (R87). -/
  cur : Option RecordInProgress
  /-- What waits to be placed (R89). -/
  item : Option PendingItem
  /-- FILLING slot (R96); reset none. -/
  filling : Option Nat
  /-- Used chunk bytes U (R96); reset 0. -/
  u : Nat
  /-- Entry count E (R96); reset 0. -/
  e : Nat
  /-- Current fragment (R96); reset absent. -/
  frag : Option Fragment
  /-- A splice's RESET is owed (R102); reset no. -/
  resetOwed : Bool
  /-- MODEL: a seal asked for by FLUSH waits for the chunk in PLACING (R100). -/
  sealReq : Bool
  /-- MODEL: pad bytes of the last record that have not arrived yet (R88). -/
  padOwed : Nat
  /-- MODEL: a staging fetch is outstanding, from this ring offset (R90). -/
  fetch : Option Nat
  /-- MODEL: the bytes a staging fetch has returned, until STAGING_FETCH_RETURN takes them (R90). -/
  fetched : Option (List Byte)
  /-- MODEL: record number whose INCOMPLETE marker waits for a slot in STOPPING (R105). -/
  marker : Option Nat
  /-- MODEL: what the staging reads of the chunk in PLACING or RECOMPRESS have returned so far: the raw bytes of a RAW body that is
  copied (R97 step 2), or of a chunk that is compressed afresh (R99). -/
  refetched : List Byte
deriving DecidableEq, Repr

/-- Slot states (R108). -/
inductive SlotState where
  | free | filling | sealing | sealed | onTape | fetching | rebuilding | decoded | draining
deriving DecidableEq, Repr

/-- Frame states of the write side (R111). -/
inductive FrameState where
  | unwritten | inVerify | good | rewriteQueued
deriving DecidableEq, Repr

/-- An entry of a frame table: state and write count 0 to 4 (R111). -/
structure FrameEntry where
  st : FrameState
  count : Nat
deriving DecidableEq, Repr

/-- An entry of the segment table (R109) with its read side (R146, R147). -/
structure Slot where
  st : SlotState
  seg : Nat
  placement : Nat
  rewrites : Nat
  f0 : Option Pos
  frames : List FrameEntry
  /-- Read-side frame table, true for HELD (R146). -/
  held : List Bool
  /-- Merge stamp (R146). -/
  stamp : Option Nat
  /-- Retry count (R147, R150). -/
  retry : Nat
  /-- Lead-in point (R147). -/
  leadIn : Option Pos
  /-- End of the last frame of the segment met (R15, R49). -/
  frameEnd : Option Pos
deriving DecidableEq, Repr

/-- The Segment Manager (R108 to R110). -/
structure SegmentManager where
  /-- Segment table (R109); reset none until the first adoption. -/
  slots : List Slot
  /-- Free list, head first (R108); reset none. -/
  free : List Nat
  /-- Slots in SEALING, in the order of entry; the head is the one parity serves (R110); reset none. -/
  parity : List Nat
  /-- MODEL: frames 0 to 27 of the slot served, once their reads have returned (R110). -/
  parityGot : Option (List Byte)
  /-- MODEL: slots still SEALING when WRITE_CLOSE has closed a failed session; each is freed when its parity is done (R125, log
  entry 37). -/
  orphans : List Nat
deriving DecidableEq, Repr

/-- An entry of the verify queue (R115): slot, frame index, identity, void or not. -/
structure VerifyEntry where
  slot : Nat
  idx : Nat
  id : FrameId
  isVoid : Bool
deriving DecidableEq, Repr

/-- The frame in transmission (R114). -/
structure Transmission where
  slot : Nat
  idx : Nat
  start : Pos
  bytes : List Byte
deriving DecidableEq, Repr

/-- The writer's pending end (R112). -/
inductive PendingEnd where
  | none | stop | abort
deriving DecidableEq, Repr

/-- An abandonment not yet carried out: the slots of the abandoned and the following segment (R116, R117). -/
structure Abandonment where
  slot : Nat
  following : Option Nat
deriving DecidableEq, Repr

/-- The Frame Writer and Verify Tracker (R112 to R128). -/
structure Writer where
  /-- Verify queue, oldest first, at most 4 (R115); reset empty. -/
  verifyQ : List VerifyEntry
  /-- Rewrite queue: slot and frame index, at most 16 (R115); reset empty. -/
  rewriteQ : List (Nat × Nat)
  /-- Frame in transmission, if any (R114). -/
  tx : Option Transmission
  /-- Pending end (R112); reset none. -/
  pendingEnd : PendingEnd
  /-- Waiting on a turn (R113); reset no. -/
  turnWait : Bool
  /-- The slot whose frame 0 is chosen and held for a later planned start (R51, R113, R136). -/
  heldF0 : Option Nat
  /-- MODEL: the earliest start that the gap of a skip leaves to the second placement's frame 0, until that frame 0 is sent (R117
  step 5); reset none. -/
  skipStart : Option Pos
  /-- END_OF_TAPE met (R127); reset no. -/
  eot : Bool
  /-- Abandonment waiting for the frame boundary (R117). -/
  abandon : Option Abandonment
  /-- Discarding of results after a recovery entry (R119); reset off. -/
  discard : Bool
  /-- FLUSH outstanding, with its target once intake has answered (R124); reset none. -/
  flush : Option (Option Nat)
  /-- WRITE_CLOSE outstanding (R125); reset none. -/
  close : Bool
  /-- The first commit of the load has asked for the open-flag write (R16, R120). -/
  openAsked : Bool
  /-- The session-count tag write has not ended; the writer sends no frame (R86). -/
  countBusy : Bool
  /-- The open-flag tag write has not ended (R16). -/
  openBusy : Bool
  /-- Session stamp of the frames of this session (R111). -/
  stamp : Nat
deriving DecidableEq, Repr

/-- Read states (R142). -/
inductive ReadState where
  | idle | seeking | starting | streaming | paused | retrying | drainingOnly | ending
deriving DecidableEq, Repr

/-- Who uses the merge (8.1): READ_RECORDS, a trailer scan for LOCATE, for a seek (R144) or for a splice (R101), the
splice read, or the EOD confirmation. -/
inductive ReadUser where
  | records | scanLocate | scanSeek | scanSplice | splice | confirm
deriving DecidableEq, Repr

/-- A start point: position and start segment (R144); `located` when a LOCATE of a record has found it (R101). -/
structure StartPoint where
  pos : Pos
  seg : Nat
  located : Bool := false
deriving DecidableEq, Repr

/-- A segment whose trailer has been passed to the trailer scan (R48, R152): its number and first record number, the record number
that follows it, its frame 0 position and the end of its last frame met. -/
structure Met where
  seg : Nat
  first : Nat
  eodRec : Nat
  f0 : Pos
  stop : Pos
deriving DecidableEq, Repr

/-- The trailer scan under way (R48): the record sought (none for target EOD, R49), and the segments whose trailers have been passed,
ascending, from the last one below every segment still open. -/
structure Scan where
  target : Option Nat
  seen : List Met
deriving DecidableEq, Repr

/-- A fragment entry read back (12.5). -/
structure Entry where
  num : Nat
  kind : Nat
  first : Bool
  last : Bool
  reset : Bool
  incomplete : Bool
  raw : Nat
  stored : Nat
deriving DecidableEq, Repr

/-- What the decompressor's outstanding read brings (R153): the trailer, an entry, a chunk header, or a chunk's body with
its mode and length. -/
inductive DrainRead where
  | nothing
  | trailer
  | entry
  | header
  | body (compressed : Bool) (len : Nat)
deriving DecidableEq, Repr

/-- The slot being drained (R153, R154): its entry count and chunk bytes, the entry under way and whether its output is
delivered, the next chunk's offset, the raw and stored bytes of the entry's chunks so far, the output not yet delivered, and
how much has been given to pieces. -/
structure Drain where
  slot : Nat
  entries : Nat
  used : Nat
  entry : Nat
  cur : Option Entry
  wanted : Bool
  off : Nat
  made : Nat
  stored : Nat
  out : List Byte
  sent : Nat
  read : DrainRead
deriving DecidableEq, Repr

/-- A delivery piece asked for or being written (R154); `len` is its data length. -/
structure PieceAsk where
  num : Nat
  filemark : Bool
  first : Bool
  last : Bool
  status : Nat
  len : Nat
deriving DecidableEq, Repr

/-- The Frame Reader and Delivery (R142 to R160). -/
structure Reader where
  /-- Read state (R142); reset IDLE. -/
  state : ReadState
  /-- The user of the merge; reset none. -/
  user : Option ReadUser
  /-- Start point, none when invalid (R144); reset invalid. -/
  start : Option StartPoint
  /-- Expected segment X (R145); reset none. -/
  x : Nat
  /-- The lowest segment number not yet opened (R145); reset none. -/
  next : Nat
  /-- Discard point (R144, R153); reset none. -/
  discardPt : Option Nat
  /-- Records wanted and delivered (R143, R155). -/
  wanted : Nat
  delivered : Nat
  /-- Resume point of a paused read (R147), or the lead-in point of a retry (R150). -/
  resume : Option Pos
  /-- End of the last frame received (R59). -/
  lastEnd : Option Pos
  /-- End of the last frame received of a segment that is or has been open, or lies below those (R147). -/
  lowEnd : Option Pos
  /-- Slots in REBUILDING in the order of completion (R149). -/
  rebuildQ : List Nat
  /-- MODEL: bytes of the 28 HELD frames of the slot served, as far as their reads have returned (R149). -/
  rebuildGot : List Byte
  /-- The slot in DRAINING (R153). -/
  drain : Option Drain
  /-- Decompressor history (R153); reset empty. -/
  dhist : List Byte
  /-- A piece waiting for room (R154). -/
  ask : Option PieceAsk
  /-- A piece whose room has been granted and whose data is being produced (R154). -/
  fill : Option PieceAsk
  /-- A piece whose header write has been issued and not granted (R154). -/
  out : Option PieceAsk
  /-- Pieces of the record at the logical position have been delivered, the first of them from this segment (R156). -/
  partly : Option Nat
  /-- The end decided by R155, R156, carried out by R158. -/
  ended : Option Status
  /-- A segment in READ_ERROR (R151, R156). -/
  bad : Option Nat
  /-- The segment after it, still awaited without delivery (R156). -/
  after : Option Nat
  /-- The logical position past the segment in READ_ERROR, once known (R156). -/
  past : Option Nat
  /-- The data has ended (R148). -/
  dataEnd : Bool
  /-- The trailer scan under way (R48). -/
  scan : Option Scan
  /-- Quarter counts moved since the start of a frame was last met, for blank detection (R15, R49). -/
  blank : Nat
  /-- The splice segment's slot (R101) and where its frame 0 was met on tape. -/
  splice : Option Nat
  spliceAt : Option Pos
  /-- The splice WRITE_OPEN's record number (R101). -/
  spliceRec : Nat
  /-- MODEL: the lead-in point of the segment that holds the new logical position (R158). -/
  endLead : Option StartPoint
  /-- MODEL: a READ_RECORDS in ACTIVE has been ended by the READ_ABORT that is about to run (R159). -/
  aborted : Bool
deriving DecidableEq, Repr

/-- Steps of a load or unload in progress (R6 to R11, R18, R22). -/
inductive Step where
  | tagRead (retry : Bool)
  | hubEngage
  | pinCapture
  | armHomeForCapture
  | threadPull
  | tensionUp
  | servoAcquire
  | backTension
  | backArm
  | backHub
  | eject
  | adopt (retry : Bool)
  | rewind
  | tensionDown
  | threadReturn
  | pinRelease
  | hubRelease
  | tagWrite
deriving DecidableEq, Repr

/-- Current and last activity (R20), coded NONE, MOVING, WRITING, READING (12.2). -/
inductive Activity where
  | none | moving | writing | reading
deriving DecidableEq, Repr

/-- The Cartridge Handler (R1 to R22). -/
structure CartridgeHandler where
  /-- Transport state (R1); reset decided from the sensors (R21): EMPTY with seat open and path clear. -/
  transport : Transport
  /-- The step running, if any (R8, R18). -/
  step : Option Step
  /-- Attempt count (R5, R8); reset cleared (R21). -/
  attempt : Nat
  /-- The pin return under way ends in give-up (R11). -/
  giveUp : Bool
  /-- Status with which the LOAD ends when its own EJECT completes (R7, R11). -/
  ejectStatus : Status
  /-- Held tab value (R2). -/
  tab : Option Tab
  /-- The "record held" condition (R2, R13); reset clear (R21). -/
  recordHeld : Bool
  /-- TAG_UNREADABLE marking (R6); reset clear (R21). -/
  tagUnreadable : Bool
  /-- EOD-confirmed condition (R14); reset clear (R21). -/
  eodConfirmed : Bool
  /-- An automatic load waits for the TRANSPORT running place (R5). -/
  autoWaiting : Bool
  /-- Current activity, set at each change of transport state or motion mode (R20); reset NONE. -/
  activity : Activity
  /-- MODEL: the transport state and motion mode for which it was set last (R20). -/
  activityAt : Transport × Option MotionMode
  /-- Last activity before reset (R20); NONE at POWER_ON. -/
  lastActivity : Activity
  /-- Reset cause: true for RESET_LINE (R20). -/
  causeLine : Bool
  /-- Tape-in-path at start (R20). -/
  tapeAtStart : Bool
  /-- Transport state at start (R20). -/
  stateAtStart : Transport
  /-- Waiting for the state to be decided after RESET_LINE (R21). -/
  settlePending : Bool
  /-- Seat sensor, tape-in-path sensor, hub sensor, pin sensor (R2, R4, R8). -/
  seat : Bool
  tape : Bool
  hub : Bool
  pin : Bool
  /-- Arm code of the newest sample (R26, R30). -/
  arm : Nat
  /-- MODEL: the 32-bit sum of the words of the tag behind its first block and before its check, as the tag last read or written whole
  holds them; a write of the first block brings the check with it (R16, R86, R200); reset 0. -/
  tagRest : Nat
  /-- MODEL: output of the tag link, the offsets and bytes of the last write to the tag (R16, R19, R86). -/
  tagOut : List (Nat × List Byte)
deriving DecidableEq, Repr

/-- Thresholds of a drive channel: active pair, staged pair, update flag (R23, R24); reset zero duty, flag clear. -/
structure Channel where
  rise : Nat
  fall : Nat
  sRise : Nat
  sFall : Nat
  flag : Bool
deriving DecidableEq, Repr

/-- The Reel Drive (R23 to R35). -/
structure ReelDrive where
  sup : Channel
  tak : Channel
  armCh : Channel
  /-- Active and staged supply direction (R23); reset FORWARD (R42). -/
  supDir : Dir
  supDirS : Dir
  /-- Active and staged arm direction (R23); reset TOWARD_HOME (R42). -/
  armDir : ArmDir
  armDirS : ArmDir
  /-- Loop integrators Dt and Ds (R28, R29); reset 0. -/
  dt : Nat
  ds : Nat
  /-- The brake (R25); reset released at POWER_ON, applied at RESET_LINE. -/
  brake : Bool
  /-- A scan is due in this period (R26); reset none. -/
  scanDue : Bool
  /-- Periods since the last sparse scan (R26). -/
  sparse : Nat
  /-- Movement counts of the last 33 scans, newest first; after the scan mode has left OFF, of the scans since (R26). -/
  window : List Int
  /-- The movement count last reported by the position input (R26). -/
  input : Int
  /-- Settle counter (R31); reset 0. -/
  settle : Nat
  /-- The T* at which the settle and excursion counts stand (R31, R33); reset: the HOLD of R42. -/
  tstar : Nat
  /-- Scans still held after a change of T* (R33). -/
  excHold : Nat
  /-- Current-limit counts (R32); reset 0. -/
  limSup : Nat
  limTak : Nat
  /-- DEGRADED (R32); reset NORMAL. -/
  degSup : Bool
  degTak : Bool
  /-- Degrade entry counts (R32); reset 0. -/
  entSup : Nat
  entTak : Nat
  /-- Excursion count 0 to 4 and its raise not yet taken (R33); reset 0. -/
  exc : Nat
  excDue : Bool
  /-- Stall count 0 to 64 and its raise not yet taken (R34); reset 0. -/
  stall : Nat
  stallDue : Bool
  /-- TENSION_DOWN: scans done, and the duties Dt0, Ds0 it began from (R31). -/
  downK : Nat
  downDt : Nat
  downDs : Nat
deriving DecidableEq, Repr

/-- Tape-side power: policy, settling, park dwell (R36 to R41). -/
structure PowerPolicy where
  /-- Wake and notice enables of SEAT, LINK_WAKE, DATA (R37); reset 0 (R42). -/
  seatW : Bool
  seatN : Bool
  linkW : Bool
  linkN : Bool
  dataW : Bool
  dataN : Bool
  /-- Park dwell length in seconds (R39); reset 30. -/
  dwellLen : Nat
  /-- Park dwell running (R39); reset not running. -/
  dwell : Bool
  /-- The job whose command cancelled the dwell and arms it again at its completion (R39). -/
  cancelled : Option JobId
  /-- Settling after a wake (R36). -/
  settling : Bool
  /-- DATA has been offered in this stay in PARKED (R37). -/
  dataOffered : Bool
  /-- Jobs whose command waits through the settling, in the order they became running (R36). -/
  waiters : List JobId
deriving DecidableEq, Repr

/-- Fault causes in the order of their priorities 1 to 5 (R57). -/
inductive Cause where
  | endApproach | reelStall | tensionExcursion | servoLoss | frameSlip
deriving DecidableEq, Repr

/-- Operations a context records (R59), coded 1 to 6 (12.6). -/
inductive Operation where
  | locate | write | read | runout | backhitch | clean
deriving DecidableEq, Repr

/-- Phases a context records (R59), coded 0 to 6 (12.6). -/
inductive Phase where
  | stream | wait | move | scan | paused | retrying | ending
deriving DecidableEq, Repr

/-- A recovery context (R59). -/
structure Context where
  cause : Cause
  op : Operation
  pos : Pos
  dir : Dir
  band : Nat
  slot : Option Nat
  frame : Option Nat
  pending : List Cause
  phase : Phase
deriving DecidableEq, Repr

/-- One leg of a motion plan: a stop where the tape stands (`target` none) or a move that ends at rest at a count, with
the pass named before it begins, its mode and its travel speed (R44 to R46, R51, R54, R60). -/
structure Leg where
  mode : MotionMode
  pass : Option Nat
  target : Option Nat
  speed : Nat
deriving DecidableEq, Repr

/-- What the end of a motion plan leads to. -/
inductive Goal where
  | none
  | toReady
  | afterEndedRecovery (unload : Bool)
  | stopThenUnload
  | waitData
  | writeGo
  | turnWrite
  | turnRead
  | locateAt (st : Status) (lp : Option Nat) (sp : Option StartPoint)
  | scanGo
  | scanStand
  | scanFailed (st : Status)
  | readGo
  | readPaused
  | readRetry
  | drainRest
  | readEnd
  | confirmBack
  | spliceStand
  | spliceFailed (st : Status)
  | rewind
  | recalSearch
  | recalBot
  | cleanStop
  | recStop
  | recBack
  | recForward
  | recReturn
  | failStop (faulted : Bool)
deriving DecidableEq, Repr

/-- What the recovery procedure waits for (R60). -/
inductive RecWait where
  | none
  | stop
  | retension
  | backMove
  | forwardMove
  | reposition
  | pop
  | failing
deriving DecidableEq, Repr

/-- The Motion Controller (R43 to R67). -/
structure Motion where
  /-- Tape position (R43): pass, count, carried quarter counts, quality; reset UNKNOWN (R67). -/
  pass : Nat
  count : Nat
  quarter : Nat
  quality : Quality
  /-- The servo reports lock (R43). -/
  locked : Bool
  /-- Direction of motion (R43); reset FORWARD. -/
  dir : Dir
  /-- The pass named to the servo (R43). -/
  named : Nat
  /-- The plan waits at rest for lock on the pass named (R43, R51). -/
  passWait : Bool
  /-- Logical position, none for UNKNOWN (R44); reset UNKNOWN. -/
  lp : Option Nat
  /-- Motion mode; none when the transport is not ACTIVE (R45, R67). -/
  mode : Option MotionMode
  /-- Applied band 0 to 7 (R136); reset 0. -/
  band : Nat
  /-- The band that the ramp before a held frame 0 leads to; it is applied at that frame 0's start (R51, R52, R136). -/
  bandTo : Option Nat
  /-- v*, stepped by the Motion Controller (R27, R45). -/
  v : Nat
  /-- Destination speed of the move under way (R45). -/
  dest : Nat
  /-- The mode a RAMP or TURN leads into, if it does (R45). -/
  into : Option MotionMode
  /-- The move under way has begun its step-down (R45). -/
  stopping : Bool
  /-- The leg under way and the legs after it. -/
  legs : List Leg
  /-- What the plan leads to. -/
  goal : Goal
  /-- The standing point at which the tape rests, if it rests at one (R44). -/
  stands : Option Pos
  /-- The next planned start (R50). -/
  planned : Nat
  /-- The last frame end (R50). -/
  lastEnd : Pos
  /-- The resume point of the write session (R54, R86). -/
  resume : Option Pos
  /-- The reacquire of READY is running (R57). -/
  reacquire : Bool
  /-- RECALIBRATE's search, or its use as a rewind, is under way (R56). -/
  recal : Bool
  /-- EARLY_WARNING has been posted in this load (R55); reset clear. -/
  warned : Bool
  /-- METER sum in quarter counts (R43); reset 0. -/
  meter : Nat
  /-- T* the recovery procedure names (R60). -/
  recT : Nat
  /-- Recovery context stack, depth 1 first (R59); reset empty. -/
  stack : List Context
  /-- Recovery mask (R58); reset clear. -/
  mask : Bool
  /-- Pending set, each cause at most once (R57); reset empty. -/
  pend : List Cause
  /-- Entry count 0 to 4 (R65); reset 0. -/
  entry : Nat
  /-- What the procedure waits for (R60, R62). -/
  wait : RecWait
  /-- The plan that the first entry interrupted (R63: the point the move was going to). -/
  savedLegs : List Leg
  savedGoal : Goal
  /-- MODEL: the reader has replaced that plan while the recovery was under way. -/
  redirect : Bool
  /-- An abandonment at recovery entry moves the resume point 3,072 counts on (R117). -/
  skipResume : Bool
deriving DecidableEq, Repr

/-- The stream policy (R139). -/
structure StreamPolicy where
  bandMin : Nat
  bandMax : Nat
  restart : Nat
  highMark : Nat
  dwell : Nat
  heavy : Nat
  readBand : Nat
  readAhead : Nat
deriving DecidableEq, Repr

/-- The Speed Matcher (R129 to R141). -/
structure SpeedMatcher where
  /-- Interval timer running (R129); reset stopped. -/
  timer : Bool
  /-- Interval sum (R129); reset 0. -/
  sum : Nat
  /-- Inflow history, 8 entries, oldest first (R130); reset eight zeros. -/
  hist : List Nat
  /-- Decided band c (R133); reset 0. -/
  c : Nat
  /-- Promotion counter 0 to 2 (R133); reset 0. -/
  promo : Nat
  /-- Demotion dwell: running, count 0 to 50, highest target seen (R134); reset not running, 0. -/
  dwellOn : Bool
  dwellCount : Nat
  dwellHigh : Nat
  /-- Stream policy (R139); reset the defaults. -/
  policy : StreamPolicy
  /-- The high mark has been set by a command (R139). -/
  highSet : Bool
  /-- Residency counters, bands 0 to 7 (R138); reset 0. -/
  resid : List Nat
  /-- Backhitch count (R138); reset 0. -/
  backhitch : Nat
deriving DecidableEq, Repr

/-- Monitor sources: OFF, an event of R161 (its code 1 to 16), a level of R162 (0, 1, 2). -/
inductive Source where
  | off
  | event (code : Nat)
  | level (n : Nat)
deriving DecidableEq, Repr

/-- Modes of a monitor counter (R163), coded 0 to 3 (12.3). -/
inductive MonMode where
  | count | level | above | enter
deriving DecidableEq, Repr

/-- A monitor counter (9.2). -/
structure Counter where
  source : Source
  mode : MonMode
  threshold : Nat
  invert : Bool
  limit : Nat
  count : Nat
  posted : Bool
  prev : Bool
deriving DecidableEq, Repr

/-- The load tally (R165). -/
structure Tally where
  frames : Nat
  rewrites : Nat
  heavy : Nat
  skips : Nat
  writeErrors : Nat
  readRetries : Nat
  readErrors : Nat
  servoLosses : Nat
  meters : Nat
deriving DecidableEq, Repr

/-- Cleaning states (R168), coded 0 to 3 (12.2). -/
inductive CleanState where
  | ok | advised | required | cleaning
deriving DecidableEq, Repr

/-- An entry of the drive history (R170, 12.8). -/
structure DriveEntry where
  serial : List Byte
  unknown : Bool
  after : Bool
  frames : Nat
  rewrites : Nat
  rate : Nat
  heavy : Nat
  retries : Nat
deriving DecidableEq, Repr

/-- The Health Monitor (R161 to R177). -/
structure Health where
  /-- The four monitor counters (R163); reset OFF, 0 (R177). -/
  counters : List Counter
  /-- Load tally and tally-open (R165); reset 0, clear. -/
  tally : Tally
  tallyOpen : Bool
  /-- MEDIA_DEGRADED has been posted in this load (R167); reset clear. -/
  mediaPosted : Bool
  /-- Last checkpoint rate (R166, R176); reset 0. -/
  lastRate : Nat
  /-- Health tick running (R162); reset stopped. -/
  tick : Bool
  /-- Limits (R175); reset 20, 60, 150,000, 6. -/
  soft : Nat
  hard : Nat
  usage : Nat
  escLimit : Nat
  /-- Drive history, at most 8, oldest first (R170); reset empty. -/
  history : List DriveEntry
  /-- Cleaning state (R168); reset CLEAN_OK. -/
  clean : CleanState
  /-- Return state of a cleaning run (R168). -/
  returnState : CleanState
  /-- Meters since cleaning (R169); reset 0. -/
  meters : Nat
  /-- Escalation count (R169); reset 0. -/
  escCount : Nat
  /-- Cleaning distance in quarter counts while held (R172); reset none. -/
  cleanDist : Option Int
  /-- The run's use has been counted (R172). -/
  useCounted : Bool
deriving DecidableEq, Repr

/-- What the responder is doing on the line (R191 to R195). -/
inductive LinkPhase where
  | awaitAttention
  | awaitHeader
  | awaitPayload
  | answering (query : Nat)
deriving DecidableEq, Repr

/-- Attention states (R197). -/
inductive AttnState where
  | none | pulseDue | window | gap
deriving DecidableEq, Repr

/-- The Library Link Responder (R190 to R198). -/
structure Link where
  /-- Activity state, true for ACTIVE (R190); reset IDLE. -/
  active : Bool
  /-- Idle timer running (R190); reset stopped. -/
  idleTimer : Bool
  /-- The activity state was IDLE at the falling edge of the present or the last active period (R190). -/
  idleAtFall : Option Bool
  /-- The level of the line, true for active (R190). -/
  line : Bool
  /-- The transaction in progress (R191); reset none, waiting for an attention. -/
  phase : LinkPhase
  /-- Bit time of the transaction in nanoseconds (R191); reset none. -/
  bitTime : Option Nat
  /-- Transmit buffer: the answer's bytes, check byte last (R193, R195). -/
  tx : List Byte
  /-- Staged reply, UNUSED or absent (R195); reset absent. -/
  staged : Option (List Byte)
  /-- The staged reply is the one copied into the transmit buffer (R195). -/
  copied : Bool
  /-- Attention causes (R197); reset clear. -/
  attnClean : Bool
  attnFirmware : Bool
  attnUnloaded : Bool
  /-- Attention state and pulse count (R197); reset NONE, 0. -/
  attn : AttnState
  pulses : Nat
  /-- The part is driving an attention pulse (R197). -/
  pulsing : Bool
  /-- UNLOAD_REFUSED (R194); reset clear. -/
  unloadRefused : Bool
  /-- Last error status (R193); reset OK. -/
  lastErr : Status
  /-- Collision count (R196); reset 0. -/
  collisions : Nat
  /-- Strap address (R191, R198); read from the pins at either reset. -/
  strap : BitVec 3
deriving DecidableEq, Repr

/-- The state of the part, the buffer memory behind it, and the queue of commands that are waiting. -/
structure State where
  /-- Buffer memory: listed bytes in rising order of address, none zero; an unlisted byte reads as zero. -/
  mem : List Host.Cell
  bp : BufferPath
  ci : CommandIntake
  cq : CompletionQueue
  ri : RecordIntake
  sm : SegmentManager
  wr : Writer
  rd : Reader
  ch : CartridgeHandler
  re : ReelDrive
  pw : PowerPolicy
  mo : Motion
  sp : SpeedMatcher
  he : Health
  li : Link
  /-- MODEL: how many free values have been read; the next one is `Config.freeValue` of it (log entry 31). -/
  frees : Nat
  /-- Commands that are waiting, first in first out. -/
  pending : List Instr
deriving DecidableEq, Repr

/-- Why a step stops. Raised by the front-port rows alone. -/
inductive Fault where
  /-- A front-port request that is not 1 to 64 bytes within one aligned line (00_scope.md 0.2). Safe: such a request
  does not exist on the port. -/
  | malformedRequest (addr len : Nat)
  /-- A front-port request outside the buffer memory, 0 to 1FFFFFFFh (00_scope.md 0.2). Safe: no such address exists. -/
  | outsideMemory (addr len : Nat)
deriving DecidableEq, Repr

/-- Why a command has no meaning. -/
inductive Refusal where
  /-- The command is not modelled. Raised by an arm of Dispatch.lean that has no meaning yet. Safe. -/
  | notModelled (mnemonic : String)
deriving DecidableEq, Repr

/-- A job with both places empty (R189). -/
def Job.clear : Job := { running := none, judged := false, finishing := false, pending := none }

/-- A channel at zero duty with its flag clear (R42). -/
def Channel.zero : Channel := { rise := 0, fall := 0, sRise := 0, sFall := 0, flag := false }

/-- A monitor counter after reset (R177). -/
def Counter.clear : Counter :=
  { source := .off, mode := .count, threshold := 0, invert := false, limit := 0, count := 0, posted := false, prev := false }

/-- The tally cleared (R165). -/
def Tally.clear : Tally :=
  { frames := 0, rewrites := 0, heavy := 0, skips := 0, writeErrors := 0, readRetries := 0, readErrors := 0,
    servoLosses := 0, meters := 0 }

/-- The defaults of R139; the high mark follows half of S once a layout is in force. -/
def StreamPolicy.default : StreamPolicy :=
  { bandMin := 0, bandMax := 7, restart := 3, highMark := 0, dwell := 10, heavy := 16, readBand := 5, readAhead := 4 }

/-- The machine after POWER_ON with the seat open, the path clear, the hub and the pin released, no movement and strap
address 0 (R21, R42, R67, R83, R107, R128, R141, R160, R177, R189, R198). -/
def State.reset : State where
  mem := []
  bp := { layout := none, binding := false, rebind := false, anchor := none, watch := false, release := 0, rl := 0,
          spans := [], held := none, behind := [], wpos := 0, occupied := 0, pieces := [], reqs := [], starve := 0,
          lastRead := none, acks := { interfaceController := 0, controlProcessor := 0 } }
  ci := { index := 0, expected := 1, state := .waiting, returned := none, transport := .clear, write := .clear,
          read := .clear, health := .clear, link := .clear, deferred := [] }
  cq := { queue := [], waiting := [], p := 0, c := 0, lap := true, writing := false, service := false }
  ri := { session := .closed, err := none, lastComplete := 0, cursor := 0, st := .idle, nextRec := 0, nextSeg := 0,
          compress := true, history := [], hdr := [], raw := [], chunkBuf := [], cur := none, item := none,
          filling := none, u := 0, e := 0, frag := none, resetOwed := false, sealReq := false, padOwed := 0,
          fetch := none, fetched := none, marker := none, refetched := [] }
  sm := { slots := [], free := [], parity := [], parityGot := none, orphans := [] }
  wr := { verifyQ := [], rewriteQ := [], tx := none, pendingEnd := .none, turnWait := false, heldF0 := none, skipStart := none, eot := false,
          abandon := none, discard := false, flush := none, close := false, openAsked := false, countBusy := false,
          openBusy := false, stamp := 0 }
  rd := { state := .idle, user := none, start := none, x := 0, next := 0, discardPt := none, wanted := 0, delivered := 0,
          resume := none, lastEnd := none, lowEnd := none, rebuildQ := [], rebuildGot := [], drain := none, dhist := [], ask := none, fill := none, out := none,
          partly := none, ended := none, bad := none, after := none, past := none, dataEnd := false, scan := none, blank := 0,
          splice := none, spliceAt := none, spliceRec := 0, endLead := none, aborted := false }
  ch := { transport := .empty, step := none, attempt := 0, giveUp := false, ejectStatus := .ok, tab := none,
          recordHeld := false, tagUnreadable := false, eodConfirmed := false, autoWaiting := false, activity := .none, activityAt := (.empty, none), lastActivity := .none,
          causeLine := false, tapeAtStart := false, stateAtStart := .empty, settlePending := false, seat := false,
          tape := false, hub := false, pin := false, arm := 0, tagRest := 0, tagOut := [] }
  re := { sup := .zero, tak := .zero, armCh := .zero, supDir := .forward, supDirS := .forward, armDir := .towardHome,
          armDirS := .towardHome, dt := 0, ds := 0, brake := false, scanDue := false, sparse := 0,
          window := List.replicate 33 0, input := 0, settle := 0, tstar := 1600, excHold := 0, limSup := 0, limTak := 0,
          degSup := false, degTak := false, entSup := 0, entTak := 0, exc := 0, excDue := false, stall := 0,
          stallDue := false, downK := 0, downDt := 0, downDs := 0 }
  pw := { seatW := false, seatN := false, linkW := false, linkN := false, dataW := false, dataN := false, dwellLen := 30,
          dwell := false, cancelled := none, settling := false, dataOffered := false, waiters := [] }
  mo := { pass := 0, count := 0, quarter := 0, quality := .unknown, locked := false, dir := .forward, named := 0,
          passWait := false, lp := none,
          mode := none, band := 0, bandTo := none, v := 0, dest := 0, into := none, stopping := false, legs := [], goal := .none,
          stands := none, planned := 0, lastEnd := { pass := 0, count := 0 }, resume := none, reacquire := false,
          recal := false, warned := false, meter := 0, recT := 2048, stack := [], mask := false, pend := [], entry := 0,
          wait := .none, savedLegs := [], savedGoal := .none, redirect := false, skipResume := false }
  sp := { timer := false, sum := 0, hist := List.replicate 8 0, c := 0, promo := 0, dwellOn := false, dwellCount := 0,
          dwellHigh := 0, policy := .default, highSet := false, resid := List.replicate 8 0, backhitch := 0 }
  he := { counters := List.replicate 4 .clear, tally := .clear, tallyOpen := false, mediaPosted := false, lastRate := 0,
          tick := false, soft := 20, hard := 60, usage := 150000, escLimit := 6, history := [], clean := .ok,
          returnState := .ok, meters := 0, escCount := 0, cleanDist := none, useCounted := false }
  li := { active := false, idleTimer := false, idleAtFall := none, line := false, phase := .awaitAttention,
          bitTime := none, tx := [], staged := none, copied := false, attnClean := false, attnFirmware := false,
          attnUnloaded := false, attn := .none, pulses := 0, pulsing := false, unloadRefused := false, lastErr := .ok,
          collisions := 0, strap := 0 }
  frees := 0
  pending := []

end Sys2Proof.Machine
end

