-- ==== Sys2Proof/Machine/Ops.lean ====
section
/-! DEFINITION. The named operations over bytes, buffer memory, the memory-port arbiter, records and jobs that the
meanings share. -/

namespace Sys2Proof.Machine

abbrev Out := Host.Outcome State Fault Refusal

/-! ### Bytes -/

/-- The number a byte list spells, least significant byte first (12.1). -/
def leNat : List Byte → Nat
  | [] => 0
  | b :: bs => b.toNat + 256 * leNat bs

/-- `k` bytes of a number, least significant first (12.1). -/
def leBytes : Nat → Nat → List Byte
  | 0, _ => []
  | k + 1, n => BitVec.ofNat 8 n :: leBytes k (n / 256)

/-- One byte of a number. -/
def byteOf (n : Nat) : Byte := BitVec.ofNat 8 n

/-- `n` bytes from offset `off` of a structure; bytes beyond its end read as zero. -/
def slice (bs : List Byte) (off n : Nat) : List Byte :=
  let part := (bs.drop off).take n
  part ++ List.replicate (n - part.length) 0

/-- A little-endian field of a structure (12.1). -/
def field (bs : List Byte) (off n : Nat) : Nat := leNat (slice bs off n)

/-- Pad a byte list with zeros to `n` bytes, or cut it to `n` (R199). -/
def padTo (n : Nat) (bs : List Byte) : List Byte := (bs ++ List.replicate (n - bs.length) 0).take n

/-- The 32-bit sum of a structure's little-endian words (R200). -/
def wordSum : List Byte → Nat
  | b0 :: b1 :: b2 :: b3 :: rest => (leNat [b0, b1, b2, b3] + wordSum rest) % two32
  | _ => 0

/-- The check word that makes the sum with it zero (R200). -/
def checkOf (sum : Nat) : Nat := (two32 - sum % two32) % two32

/-- One more write acknowledged to a master (R68). -/
def Acks.add (m : Master) (n : Acks) : Acks :=
  match m with
  | .interfaceController => { n with interfaceController := n.interfaceController + 1 }
  | .controlProcessor => { n with controlProcessor := n.controlProcessor + 1 }

/-- All-one bytes, the marking of an absent field (R199). -/
def ones (n : Nat) : List Byte := List.replicate n 255

/-! ### Buffer memory -/

/-- The byte at an address: what an unlisted address reads as is `Config.blankByte`. -/
def memRead (m : List Host.Cell) (a : Nat) : Byte :=
  match m with
  | [] => Config.blankByte
  | (k, b) :: rest => if k = a then b else if a < k then Config.blankByte else memRead rest a

/-- Write one byte, keeping the canonical form. -/
def memWrite (m : List Host.Cell) (a : Nat) (b : Byte) : List Host.Cell :=
  match m with
  | [] => if b = Config.blankByte then [] else [(a, b)]
  | (k, c) :: rest =>
    if k = a then (if b = Config.blankByte then rest else (a, b) :: rest)
    else if a < k then (if b = Config.blankByte then (k, c) :: rest else (a, b) :: (k, c) :: rest)
    else (k, c) :: memWrite rest a b

/-- Write consecutive bytes, leaving those that are not enabled as they are (R68). -/
def memWriteBytes (m : List Host.Cell) (a : Nat) : List (Option Byte) → List Host.Cell
  | [] => m
  | some b :: bs => memWriteBytes (memWrite m a b) (a + 1) bs
  | none :: bs => memWriteBytes m (a + 1) bs

/-- Read consecutive bytes. -/
def memReadBytes (m : List Host.Cell) (a : Nat) : Nat → List Byte
  | 0 => []
  | n + 1 => memRead m a :: memReadBytes m (a + 1) n

/-- The canonical form, from a lower bound on the addresses: strictly rising, and no entry equal to what an unlisted
address reads as. -/
def cellsFrom (lo : Nat) : List Host.Cell → Bool
  | [] => true
  | (k, b) :: rest => decide (lo ≤ k) && decide (b ≠ Config.blankByte) && cellsFrom (k + 1) rest

/-- The memory is in canonical form. -/
def Memory.wf (m : List Host.Cell) : Bool := cellsFrom 0 m

/-! ### The memory-port arbiter (R82) -/

/-- The line of an address. -/
def lineOf (a : Nat) : Nat := a / Config.lineBytes

/-- A transfer has a line to move that is `line`. -/
def Req.touches (r : Req) (line : Nat) : Bool :=
  decide (lineOf r.addr ≤ line) && decide (line ≤ lineOf (r.addr + r.len - 1)) && decide (0 < r.len)

/-- How many bytes the transfer's next grant moves: up to the end of its line. -/
def Req.step (r : Req) : Nat := min r.len (Config.lineBytes - r.addr % Config.lineBytes)

/-- Issue a write of a run of bytes, each enabled: one request a line, ascending, in the class named (R82). -/
def issueWrite (cls : ReqClass) (a : Nat) (bs : List Byte) (what : Purpose) (s : State) : State :=
  if bs.isEmpty then s
  else { s with bp.reqs := s.bp.reqs ++ [{ cls := cls, isWrite := true, addr := a, len := bs.length, data := bs.map some, got := [], what := what }] }

/-- Issue a read of a run of bytes (R82). -/
def issueRead (cls : ReqClass) (a n : Nat) (what : Purpose) (s : State) : State :=
  if n = 0 then s
  else { s with bp.reqs := s.bp.reqs ++ [{ cls := cls, isWrite := false, addr := a, len := n, data := [], got := [], what := what }] }

/-- A request whose outcome nobody awaits any more keeps its place in the order. -/
def Req.forget (p : Purpose) (r : Req) : Req := if r.what = p then { r with what := .plain } else r

/-- The outcome of the requests of a purpose is awaited no more. -/
def forgetAll (p : Purpose) (s : State) : State := { s with bp.reqs := s.bp.reqs.map (Req.forget p) }

/-- A read by the part of bytes whose value it uses from the moment of the issue on: a write issued later to the same line
waits for it, so that what it returns is what `readThrough` gives when it is issued (R82). -/
def consult (a n : Nat) (s : State) : State := issueRead .internal a n .plain s

/-- The value a byte has after the writes of a request list, oldest first, on top of `b`. -/
def overlay (a : Nat) (b : Byte) : List Req → Byte
  | [] => b
  | r :: rest =>
    overlay a (if r.isWrite && decide (r.addr ≤ a) then (r.data.getD (a - r.addr) none).getD b else b) rest

/-- The byte at `a` that a read issued now returns: of the writes issued earlier and not yet granted, the newest that
covers it, else memory. The same-line order of R82 makes this so. -/
def throughByte (m : List Host.Cell) (rs : List Req) (a : Nat) : Byte := overlay a (memRead m a) rs

/-- `n` bytes at `a` as a read issued now by the part returns them (R82). -/
def readThrough (s : State) (a : Nat) : Nat → List Byte
  | 0 => []
  | n + 1 => throughByte s.mem s.bp.reqs a :: readThrough s (a + 1) n

/-! ### Codes (Chapter 12) -/

def Transport.code : Transport → Nat
  | .empty => 0 | .seated => 1 | .loading => 2 | .ready => 3 | .parked => 4 | .active => 5 | .unloading => 6
  | .unpositioned => 7 | .faulted => 8

def Status.code : Status → Nat
  | .ok => 0 | .refusedState => 1 | .refusedOperand => 2 | .aborted => 3 | .overrun => 4 | .formatError => 5
  | .writeError => 6 | .readError => 7 | .motionFault => 8 | .threadFailed => 9 | .endOfData => 10 | .endOfTape => 11
  | .filemarkSeen => 12 | .cleanCartExpired => 13 | .cleaned => 14 | .unsupportedMedia => 15

def SubCode.code : SubCode → Nat
  | .noCartridge => 1 | .notLoaded => 2 | .alreadyLoaded => 3 | .busyTransport => 4 | .notPositioned => 5
  | .transportFaulted => 6 | .writeProtected => 7 | .sessionOpen => 8 | .readActive => 9 | .noSession => 10 | .noRead => 11

def NoticeKind.code : NoticeKind → Nat
  | .cartridgeSeated => 1 | .cartridgeRemoved => 2 | .loadDone => 3 | .unloadDone => 4 | .wake => 5 | .sessionError => 6
  | .earlyWarning => 7 | .tagWriteFailed => 8 | .cleanStateChanged => 9 | .mediaDegraded => 10 | .monitorAlarm => 11
  | .linkRequest => 12 | .linkLate => 13 | .linkNoAnswer => 14 | .sequenceBreak => 15

def CleanState.code : CleanState → Nat
  | .ok => 0 | .advised => 1 | .required => 2 | .cleaning => 3

def Activity.code : Activity → Nat
  | .none => 0 | .moving => 1 | .writing => 2 | .reading => 3

def Cause.code : Cause → Nat
  | .endApproach => 1 | .reelStall => 2 | .tensionExcursion => 3 | .servoLoss => 4 | .frameSlip => 5

def Operation.code : Operation → Nat
  | .locate => 1 | .write => 2 | .read => 3 | .runout => 4 | .backhitch => 5 | .clean => 6

def Phase.code : Phase → Nat
  | .stream => 0 | .wait => 1 | .move => 2 | .scan => 3 | .paused => 4 | .retrying => 5 | .ending => 6

/-- The command codes of 12.3. -/
def fwCode : FwOp → Nat
  | .load => 0x01 | .unload _ => 0x02 | .locate _ _ => 0x03 | .recalibrate => 0x04 | .park => 0x05
  | .setPowerPolicy _ _ => 0x06 | .writeOpen _ _ => 0x10 | .flush => 0x11 | .writeClose => 0x12 | .writeAbort => 0x13
  | .setStreamPolicy _ => 0x14 | .readRecords _ => 0x20 | .readAbort => 0x21 | .setMonitor _ => 0x30
  | .healthSnapshot => 0x31 | .setCleanLimits _ => 0x32 | .linkReply _ => 0x40 | .linkAttention => 0x41

/-- The job of each command (R182). -/
def fwJob : FwOp → JobId
  | .load | .unload _ | .locate _ _ | .recalibrate | .park | .setPowerPolicy _ _ => .transport
  | .writeOpen _ _ | .flush | .writeClose | .writeAbort | .setStreamPolicy _ => .write
  | .readRecords _ | .readAbort => .read
  | .setMonitor _ | .healthSnapshot | .setCleanLimits _ => .health
  | .linkReply _ | .linkAttention => .link

/-! ### Free values -/

/-- The next free value. -/
def freeNow (s : State) : Nat := Config.freeValue s.frees

/-- It has been used. -/
def usedFree (s : State) : State := { s with frees := s.frees + 1 }

/-! ### Jobs and records (Chapter 10) -/

def State.job (s : State) : JobId → Job
  | .transport => s.ci.transport
  | .write => s.ci.write
  | .read => s.ci.read
  | .health => s.ci.health
  | .link => s.ci.link

def State.setJob (j : JobId) (v : Job) (s : State) : State :=
  match j with
  | .transport => { s with ci.transport := v }
  | .write => { s with ci.write := v }
  | .read => { s with ci.read := v }
  | .health => { s with ci.health := v }
  | .link => { s with ci.link := v }

/-- Issue the one-line read of the slot at the intake index and enter READING (R178, R180, R183). -/
def readSlot (k : SlotReadKind) (s : State) : State :=
  match s.bp.layout with
  | none => s
  | some l => issueRead .internal (l.cmdBase + 64 * s.ci.index) 64 .slotRead { s with ci.state := .reading k, ci.returned := none }

/-- A running place becomes empty: the pending command becomes running (its own row then judges it), and a stalled intake
reads its slot again when the pending place has become empty (R183). -/
def endRunning (j : JobId) (s : State) : State :=
  let jb := s.job j
  match jb.pending with
  | none => s.setJob j Job.clear
  | some c =>
    let s := s.setJob j { running := some (.cmd c), judged := false, finishing := false, pending := none }
    if s.ci.state = .stalled j then readSlot .reRead s else s

/-- Room in the internal completion queue and nothing waiting (R185). -/
def cqOpen (s : State) : Bool := decide (s.cq.queue.length < 8) && s.cq.waiting.isEmpty

/-- Put a record at the tail of the internal queue. -/
def cqPush (r : Record) (s : State) : State := { s with cq.queue := s.cq.queue ++ [r] }

/-- A notice posted while its place already holds one replaces its content and raises its repeat count (R184). -/
def replaceNotice (k : WaitKey) (r : Record) : List (WaitKey × Record) → List (WaitKey × Record)
  | [] => []
  | (k', r') :: rest => if k' = k then (k, { r with rep := min (r'.rep + 1) 255 }) :: rest else (k', r') :: replaceNotice k r rest

/-- Post a notice through its place (R184). -/
def postAt (k : WaitKey) (r : Record) (s : State) : State :=
  if cqOpen s then cqPush r s
  else if s.cq.waiting.any (fun w => decide (w.1 = k)) then { s with cq.waiting := replaceNotice k r s.cq.waiting }
  else { s with cq.waiting := s.cq.waiting ++ [(k, r)] }

/-- A notice record: its content from byte 12 in the order the posting rule names it (12.4). -/
def noticeRecord (k : NoticeKind) (content : List Byte) : Record :=
  { notice := true, status := k.code, sub := 0, rep := 0, code := 0, present := 0, tag := 0, body := padTo 20 content }

/-- Post a notice of one of the 12 kinds that have a place each (R184). -/
def postNotice (k : NoticeKind) (content : List Byte) (s : State) : State := postAt (.notice k) (noticeRecord k content) s

/-- The last error status follows every COMPLETION, LOAD_DONE, UNLOAD_DONE and SESSION_ERROR posted with a status other
than OK (R193). -/
def noteStatus (st : Status) (s : State) : State := if st = .ok then s else { s with li.lastErr := st }

/-- Post a job's end: it enters the internal queue at once when there is room and nothing waits, and the running place is
freed; otherwise the job waits in its finishing state (R183, R185). -/
def postJobEnd (j : JobId) (r : Record) (s : State) : State :=
  if cqOpen s then endRunning j (cqPush r s)
  else
    let s := s.setJob j { s.job j with finishing := true }
    { s with cq.waiting := s.cq.waiting ++ [(.job j, r)] }

/-- The results a completion carries: which present flags, and the bytes from 12 on (12.4). -/
structure Results where
  present : Nat
  body : List Byte
deriving DecidableEq, Repr

/-- Bytes 12 to 31 of a completion with no results: the logical position, at bytes 16 to 19, is absent and all ones (R199,
12.4). -/
def Results.none : Results := { present := 0, body := [0, 0, 0, 0] ++ ones 4 }

/-- A logical position at bytes 16 to 19, behind four bytes of `first` (12.4). -/
def Results.position (first : List Byte) (lp : Option Nat) : Results :=
  match lp with
  | some n => { present := 1, body := padTo 4 first ++ leBytes 4 n }
  | Option.none => { present := 0, body := padTo 4 first ++ ones 4 }

/-- A record number at bytes 12 to 15 (12.4: FLUSH and WRITE_CLOSE); the logical position is absent (R199). -/
def Results.recordNumber (n : Nat) : Results := { present := 2, body := leBytes 4 n ++ ones 4 }

/-- The bytes from 12 on of a command's completion: FLUSH and WRITE_CLOSE without their record number hold it as absent,
all ones (R199, 12.4). -/
def resultBytes (op : FwOp) (r : Results) : List Byte :=
  match op with
  | .flush | .writeClose => padTo 20 (if r.present = 0 then ones 8 else r.body)
  | _ => padTo 20 r.body

/-- A completion record (R184, 12.4). -/
def completionRecord (c : FwCmd) (st : Status) (sub : Nat) (r : Results) : Record :=
  { notice := false, status := st.code, sub := sub, rep := 0, code := fwCode c.op, present := r.present, tag := c.tag,
    body := resultBytes c.op r }

/-- The park dwell may run: READY with settling ended, or WAIT_DATA (R39). -/
def dwellPlace (s : State) : Bool :=
  (decide (s.ch.transport = .ready) && !s.pw.settling) || (decide (s.ch.transport = .active) && decide (s.mo.mode = some .waitData))

/-- At its completion, the command that cancelled the dwell arms it afresh where the dwell may run (R39). -/
def rearmAfter (j : JobId) (s : State) : State :=
  if s.pw.cancelled = some j then { s with pw.cancelled := none, pw.dwell := s.pw.dwell || dwellPlace s } else s

/-- End the command running on a job with a completion. A job that is already finishing, or whose running place holds no
command, is left as it is. -/
def complete (j : JobId) (st : Status) (sub : Nat) (r : Results) (s : State) : State :=
  let jb := s.job j
  match jb.running with
  | some (.cmd c) => if jb.finishing then s else postJobEnd j (completionRecord c st sub r) (rearmAfter j (noteStatus st s))
  | _ => s

/-- Complete OK or with another status that carries no results. -/
def completeWith (j : JobId) (st : Status) (s : State) : State := complete j st 0 .none s

/-- Complete REFUSED_STATE with a sub-code (R1, R182). -/
def refuse (j : JobId) (c : SubCode) (s : State) : State := complete j .refusedState c.code .none s

/-- The operation now running on a job, unless it is finishing. -/
def runningOp (j : JobId) (s : State) : Option FwOp :=
  let jb := s.job j
  if jb.finishing then none
  else match jb.running with
    | some (.cmd c) => some c.op
    | _ => none

/-- The bytes of a record in its ring slot, with the lap flag (12.4). -/
def recordBytes (lap : Bool) (r : Record) : List Byte :=
  [byteOf ((if r.notice then 2 else 1) + (if lap then 128 else 0)), byteOf r.status, byteOf r.sub, byteOf r.rep]
    ++ leBytes 2 r.code ++ [byteOf r.present, 0] ++ leBytes 4 r.tag.toNat ++ padTo 20 r.body

/-- Records in the ring not yet consumed, Q (R186). -/
def ringCount (n p c : Nat) : Nat := (p + n - c % n) % n

/-- Set the service line after a change of P or C (R188). -/
def setService (s : State) : State :=
  match s.bp.layout with
  | none => { s with cq.service := false }
  | some l => { s with cq.service := decide (0 < ringCount l.n s.cq.p s.cq.c) }

end Sys2Proof.Machine
end

