-- ==== Sys2Proof/Machine/Operands.lean ====
section
/-! DEFINITION. The operand forms of the part: the byte layouts of Chapter 12 read and written (command slot, layout
record, cartridge record, fragment entries and trailers, history area, recovery context), and the geometry of passes. -/

namespace Sys2Proof.Machine

/-! ### Command slot (12.3) -/

/-- The sequence field of a slot (12.3). -/
def slotSeq (bs : List Byte) : Nat := field bs 56 2

/-- The tag of a slot (12.3). -/
def slotTag (bs : List Byte) : Word := BitVec.ofNat 32 (field bs 4 4)

/-- One bit of a byte of a structure. -/
def bitAt (bs : List Byte) (off k : Nat) : Bool := (field bs off 1).testBit k

/-- The command a slot spells, none for an unknown code (R178, R182). -/
def slotOp (bs : List Byte) : Option FwOp :=
  match field bs 0 2 with
  | 0x01 => some .load
  | 0x02 => some (.unload (bitAt bs 2 0))
  | 0x03 => some (.locate (field bs 8 1) (field bs 12 4))
  | 0x04 => some .recalibrate
  | 0x05 => some .park
  | 0x06 => some (.setPowerPolicy (field bs 8 1) (field bs 10 2))
  | 0x10 => some (.writeOpen (field bs 8 4) (decide (field bs 12 1 ≠ 0)))
  | 0x11 => some .flush
  | 0x12 => some .writeClose
  | 0x13 => some .writeAbort
  | 0x14 => some (.setStreamPolicy
      { bandMin := field bs 8 1, bandMax := field bs 9 1, readBand := field bs 10 1, heavy := field bs 11 1,
        restart := field bs 12 2, highMark := field bs 14 2, dwell := field bs 16 1, readAhead := field bs 18 2 })
  | 0x20 => some (.readRecords (field bs 8 2))
  | 0x21 => some .readAbort
  | 0x30 => some (.setMonitor
      { counter := field bs 8 1, mode := field bs 9 1 % 4, source := field bs 10 2, threshold := field bs 12 2,
        invert := bitAt bs 14 0, limit := field bs 16 4 })
  | 0x31 => some .healthSnapshot
  | 0x32 => some (.setCleanLimits { soft := field bs 8 2, hard := field bs 10 2, usage := field bs 12 4, escalation := field bs 16 1 })
  | 0x40 => some (.linkReply (slice bs 8 8))
  | 0x41 => some .linkAttention
  | _ => none

/-! ### Anchor block (12.2) -/

/-- The layout record of an anchor block (12.2). -/
def layoutOf (bs : List Byte) : Layout :=
  { serial := field bs 4 4, driveId := slice bs 8 8, cmdBase := field bs 16 4, k := field bs 20 2, compBase := field bs 24 4,
    n := field bs 28 2, consumer := field bs 32 4, stBase := field bs 40 4, z := field bs 44 4, dlBase := field bs 48 4,
    zd := field bs 52 4, segBase := field bs 56 4, s := field bs 60 2, cartBase := field bs 64 4, histBase := field bs 68 4,
    ctxBase := field bs 72 4 }

/-- The signature and the 32-bit sum with bytes 224 to 243 taken as zero (R71, R200). -/
def anchorIntegrity (bs : List Byte) : Bool :=
  decide (field bs 0 4 = 0x55444A31) &&
    decide (wordSum (slice bs 0 224 ++ List.replicate 20 0 ++ slice bs 244 12) = 0)

/-- A region of R72: size, base, alignment, and whether its size is allowed. -/
structure Region where
  base : Nat
  size : Nat
  align : Nat
  allowed : Bool
deriving DecidableEq, Repr

/-- 1 to 64 MiB, a power of two (R72). -/
def ringSizeAllowed (z : Nat) : Bool := [1, 2, 4, 8, 16, 32, 64].any (fun k => decide (z = k * 1048576))

/-- The nine regions of R72 in the order of their numbers. -/
def regionsOf (l : Layout) : List Region :=
  [ { base := l.cmdBase, size := 64 * l.k, align := 64 * l.k, allowed := [16, 32, 64, 128, 256].contains l.k },
    { base := l.compBase, size := 32 * l.n, align := 32 * l.n, allowed := [32, 64, 128, 256, 512, 1024].contains l.n },
    { base := l.consumer, size := 4, align := 4, allowed := true },
    { base := l.stBase, size := l.z, align := 1048576, allowed := ringSizeAllowed l.z },
    { base := l.dlBase, size := l.zd, align := 1048576, allowed := ringSizeAllowed l.zd },
    { base := l.segBase, size := l.s * 1048576, align := 1048576, allowed := decide (8 ≤ l.s) && decide (l.s ≤ 256) },
    { base := l.cartBase, size := 16384, align := 16384, allowed := true },
    { base := l.histBase, size := 4096, align := 4096, allowed := true },
    { base := l.ctxBase, size := 128, align := 64, allowed := true } ]

/-- Two regions share a byte; a region without bytes shares none (R72). -/
def Region.meets (a b : Region) : Bool := decide (max a.base b.base < min (a.base + a.size) (b.base + b.size))

/-- The regions of the table that a region meets, of those not at its own place `i` (from 0). -/
def meetsOther (r : Region) (i : Nat) : Nat → List Region → Bool
  | _, [] => false
  | j, q :: rest => (decide (i ≠ j) && r.meets q) || meetsOther r i (j + 1) rest

/-- The four things of R72 for the region at place `i`. -/
def regionPasses (rs : List Region) (i : Nat) (r : Region) : Bool :=
  r.allowed && decide (r.base % r.align = 0) && decide (r.base + r.size ≤ Config.memBytes) && decide (256 ≤ r.base) &&
    !meetsOther r i 0 rs

/-- The number of the first region that fails, counted from 1; none when all pass (R71, R72). -/
def firstBadRegion (rs : List Region) : Nat → List Region → Option Nat
  | _, [] => none
  | i, r :: rest => if regionPasses rs i r then firstBadRegion rs (i + 1) rest else some (i + 1)

/-! ### Cartridge record (R14, 12.7) -/

/-- EOD of a cartridge: segment, first record number at EOD, position (R14). -/
structure Eod where
  seg : Nat
  firstRec : Nat
  pos : Pos
deriving DecidableEq, Repr

/-- A pass table entry (12.7). -/
structure PassEntry where
  first : Nat
  last : Nat
  start : Nat
  firstRec : Nat
deriving DecidableEq, Repr

/-- A mark (12.7). -/
structure Mark where
  seg : Nat
  firstRec : Nat
  pos : Pos
deriving DecidableEq, Repr

/-- A tag load history entry (12.7). -/
structure TagLoad where
  drive : List Byte
  frames : Nat
  rewrites : Nat
  rate : Nat
deriving DecidableEq, Repr

/-- The cartridge record (R14). -/
structure Cart where
  serial : List Byte
  cleaning : Bool
  gen : Nat
  loads : Nat
  openFlag : Bool
  eod : Option Eod
  uses : Nat
  session : Nat
  passes : List (Option PassEntry)
  hist : List TagLoad
  marks : List Mark
deriving DecidableEq, Repr

def passEntryOf (bs : List Byte) (p : Nat) : Option PassEntry :=
  let o := 64 + 16 * p
  if slice bs o 16 = ones 16 then none
  else some { first := field bs o 4, last := field bs (o + 4) 4, start := field bs (o + 8) 4, firstRec := field bs (o + 12) 4 }

def tagLoadOf (bs : List Byte) (i : Nat) : TagLoad :=
  let o := 832 + 24 * i
  { drive := slice bs o 8, frames := field bs (o + 8) 4, rewrites := field bs (o + 12) 4, rate := field bs (o + 16) 2 }

def markOf (bs : List Byte) (i : Nat) : Mark :=
  let o := 1024 + 16 * i
  { seg := field bs o 4, firstRec := field bs (o + 4) 4, pos := { pass := field bs (o + 8) 1, count := field bs (o + 12) 4 } }

/-- The EOD field, by the present-flags byte alone (R199). -/
def eodOf (bs : List Byte) : Option Eod :=
  if bitAt bs 13 0 then some { seg := field bs 20 4, firstRec := field bs 24 4, pos := { pass := field bs 28 1, count := field bs 32 4 } }
  else none

/-- Decode the 16 KiB image (12.7). Cleaning uses above 50 are 50 (R6). -/
def cartOf (bs : List Byte) : Cart :=
  { serial := slice bs 0 8, cleaning := decide (field bs 8 1 = 2), gen := field bs 9 1, loads := field bs 10 2,
    openFlag := decide (field bs 12 1 ≠ 0), eod := eodOf bs, uses := if bitAt bs 13 1 then min (field bs 14 1) 50 else 0,
    session := field bs 36 4, passes := (List.range 48).map (passEntryOf bs),
    hist := (List.range (min (field bs 15 1) 4)).map (tagLoadOf bs),
    marks := (List.range (min (field bs 16 2) 512)).map (markOf bs) }

def passEntryBytes : Option PassEntry → List Byte
  | none => ones 16
  | some e => leBytes 4 e.first ++ leBytes 4 e.last ++ leBytes 4 e.start ++ leBytes 4 e.firstRec

def tagLoadBytes (t : TagLoad) : List Byte :=
  padTo 8 t.drive ++ leBytes 4 t.frames ++ leBytes 4 t.rewrites ++ leBytes 2 t.rate ++ List.replicate 6 0

def markBytes (m : Mark) : List Byte :=
  leBytes 4 m.seg ++ leBytes 4 m.firstRec ++ [byteOf m.pos.pass, 0, 0, 0] ++ leBytes 4 m.pos.count

/-- Bytes 20 to 35: the EOD fields, all ones where absent (R199). -/
def eodBytes : Option Eod → List Byte
  | none => ones 9 ++ List.replicate 3 0 ++ ones 4
  | some e => leBytes 4 e.seg ++ leBytes 4 e.firstRec ++ [byteOf e.pos.pass, 0, 0, 0] ++ leBytes 4 e.pos.count

/-- The image without its check word (12.7); unassigned bytes are zero (R199). -/
def cartBody (c : Cart) : List Byte :=
  padTo 8 c.serial ++ [if c.cleaning then 2 else 1, byteOf c.gen] ++ leBytes 2 c.loads ++
    [if c.openFlag then 1 else 0, byteOf ((if c.eod.isSome then 1 else 0) + (if c.cleaning then 2 else 0)),
     if c.cleaning then byteOf c.uses else 255, byteOf c.hist.length] ++
    leBytes 2 c.marks.length ++ [0, 0] ++ eodBytes c.eod ++ leBytes 4 c.session ++ List.replicate 24 0 ++
    padTo 768 (c.passes.flatMap passEntryBytes) ++ padTo 96 (c.hist.flatMap tagLoadBytes) ++ List.replicate 96 0 ++
    padTo 8192 (c.marks.flatMap markBytes) ++ List.replicate 7164 0

/-- The whole image with its check (R200). -/
def cartImage (c : Cart) : List Byte := cartBody c ++ leBytes 4 (checkOf (wordSum (cartBody c)))

/-- The image is whole and its check is good (R6, R22, R200). -/
def cartCheck (bs : List Byte) : Bool := decide (bs.length = Config.cartBytes) && decide (wordSum bs = 0)

/-- A tag read that succeeds: whole, good check, a known kind, counts within bounds (R6). -/
def tagGood (bs : List Byte) : Bool :=
  cartCheck bs && (decide (field bs 8 1 = 1) || decide (field bs 8 1 = 2)) && decide (field bs 16 2 ≤ 512) && decide (field bs 15 1 ≤ 4)

/-- The blank record of R6. -/
def blankCart : Cart :=
  { serial := List.replicate 8 0, cleaning := false, gen := 0, loads := 0, openFlag := false, eod := none, uses := 0,
    session := 0, passes := List.replicate 48 none, hist := [], marks := [] }

/-- The cartridge record area's bytes as the part next reads them (1.6). -/
def cartArea (s : State) : List Byte :=
  match s.bp.layout with
  | none => []
  | some l => readThrough s l.cartBase Config.cartBytes

/-- The cartridge record as it stands in its area (R14). -/
def State.cart (s : State) : Cart := cartOf (cartArea s)

/-- The part reads the cartridge record from its area through the internal class (1.6). -/
def consultCart (s : State) : State :=
  match s.bp.layout with
  | none => s
  | some l => consult l.cartBase Config.cartBytes s

/-- The part reads the record's first line, which holds the serial, the counts and the EOD (12.7). -/
def consultHead (s : State) : State :=
  match s.bp.layout with
  | none => s
  | some l => consult l.cartBase Config.lineBytes s

/-- The part reads the EOD and the pass table entry of the pass in use, by which a reading stream's frames and positions are judged
(R51, R145, R148). -/
def consultBounds (s : State) : State :=
  match s.bp.layout with
  | none => s
  | some l => consult (l.cartBase + 64 + 16 * s.mo.pass) 16 (consultHead s)

/-- Change the cartridge record in its area through the internal class: it is read, and written with its check recomputed
(R14, R200). -/
def putCart (c : Cart) (s : State) : State :=
  match s.bp.layout with
  | none => s
  | some l => issueWrite .internal l.cartBase (cartImage c) .plain (consultCart s)

/-- The sum of the words of a tag image between its first block and its check (R200). -/
def tagRestOf (bs : List Byte) : Nat := wordSum (slice bs 64 16316)

/-- What a write of the tag's first block sends: bytes 0 to 63 of the record, and the check at 16,380 that makes the sum of all the tag's
words zero with what the tag holds between them (R16, R86, R200). -/
def tagBlock (c : Cart) (rest : Nat) : List (Nat × List Byte) :=
  [(0, (cartImage c).take 64), (16380, leBytes 4 (checkOf (wordSum ((cartImage c).take 64) + rest)))]

/-- The first record number at EOD, 0 when EOD is absent (R46, R84). -/
def eodRec (s : State) : Nat := (s.cart.eod.map Eod.firstRec).getD 0

/-- Replace one entry of a list by position. -/
def setAt {α : Type} (i : Nat) (v : α) (xs : List α) : List α := xs.set i v

/-- A splice's truncation of the directory to a new EOD segment (R14). -/
def truncateDirectory (eodSeg : Nat) (c : Cart) : Cart :=
  { c with
    marks := c.marks.filter (fun m => decide (m.seg ≤ eodSeg)),
    passes := c.passes.map (fun e => match e with
      | none => none
      | some p => if eodSeg ≤ p.first then none else if eodSeg ≤ p.last then some { p with last := eodSeg - 1 } else some p) }

/-- Insert or replace a mark, keeping the list ascending and at most 512 (R14, R120). -/
def putMark (m : Mark) : List Mark → List Mark
  | [] => [m]
  | k :: rest => if k.seg = m.seg then m :: rest else if m.seg < k.seg then m :: k :: rest else k :: putMark m rest

/-- Create or extend the pass table entry of a segment, and mark it when its number is a multiple of 256 (R15, R49,
R120). A scan may come by the trailer of a segment after that of a higher one (R152): the entry's first and last are the lowest and the
highest. -/
def enterSegment (seg firstRec : Nat) (f0 : Pos) (c : Cart) : Cart :=
  let old := (c.passes.getD f0.pass none)
  let entry : PassEntry := match old with
    | none => { first := seg, last := seg, start := f0.count, firstRec := firstRec }
    | some e => if seg < e.first then { e with first := seg, start := f0.count, firstRec := firstRec } else { e with last := max e.last seg }
  { c with
    passes := c.passes.set f0.pass (some entry),
    marks := if seg % 256 = 0 then (putMark { seg := seg, firstRec := firstRec, pos := f0 } c.marks).take 512 else c.marks }

/-! ### Segments (R96, R100, 12.5) -/

/-- Base address of a segment slot (R108). -/
def slotBase (s : State) (k : Nat) : Nat := ((s.bp.layout.map Layout.segBase).getD 0) + k * Config.slotBytes

/-- Payload bytes of a slot as a read issued now returns them. -/
def slotRead (s : State) (k off n : Nat) : List Byte := readThrough s (slotBase s k + off) n

/-- The part reads payload bytes of a slot through the internal class. -/
def consultSlot (k off n : Nat) (s : State) : State := consult (slotBase s k + off) n s

/-- A fragment entry's bytes (12.5). -/
def entryBytes (num : Nat) (filemark first last reset incomplete : Bool) (raw stored : Nat) : List Byte :=
  leBytes 4 num ++
    [if filemark then 2 else 1,
     byteOf ((if first then 1 else 0) + (if last then 2 else 0) + (if reset then 4 else 0) + (if incomplete then 8 else 0)), 0, 0] ++
    leBytes 4 raw ++ leBytes 4 stored

/-- Payload offset of the entry at index `j` (R96). -/
def entryAt (j : Nat) : Nat := Config.trailerAt - 16 * (j + 1)

/-- A fragment entry from its bytes (12.5). -/
def entryOf (bs : List Byte) : Entry :=
  { num := field bs 0 4, kind := field bs 4 1, first := bitAt bs 5 0, last := bitAt bs 5 1, reset := bitAt bs 5 2,
    incomplete := bitAt bs 5 3, raw := field bs 8 4, stored := field bs 12 4 }

/-- Entry `j` of the segment in slot `k`. -/
def slotEntry (s : State) (k j : Nat) : Entry := entryOf (slotRead s k (entryAt j) 16)

/-- The trailer of the segment in slot `k` (12.5). -/
def slotTrailer (s : State) (k : Nat) : List Byte := slotRead s k Config.trailerAt 64

def trailerSeg (t : List Byte) : Nat := field t 0 4
def trailerFirst (t : List Byte) : Nat := field t 4 4
def trailerEntries (t : List Byte) : Nat := field t 8 2
def trailerUsed (t : List Byte) : Nat := field t 12 4

/-- The trailer check of R149: its check good and its segment number the slot's. -/
def trailerGood (t : List Byte) (seg : Nat) : Bool := decide (wordSum (slice t 0 64) = 0) && decide (trailerSeg t = seg)

/-- A trailer's bytes, check included (R100, 12.5). -/
def trailerBytes (seg firstRec entries used filemarks : Nat) : List Byte :=
  let body := leBytes 4 seg ++ leBytes 4 firstRec ++ leBytes 2 entries ++ [3, 0] ++ leBytes 4 used ++ leBytes 2 filemarks ++ List.replicate 42 0
  body ++ leBytes 4 (checkOf (wordSum body))

/-- The record number that follows a segment: its last entry's, plus 1 when that entry carries LAST (R120). -/
def segmentNextRec (s : State) (k : Nat) : Nat :=
  let n := trailerEntries (slotTrailer s k)
  let e := slotEntry s k (n - 1)
  if e.last then inc32 e.num else e.num

/-- The part reads the last entry of a slot, of those that its trailer counts. -/
def consultLast (k : Nat) (s : State) : State := consultSlot k (entryAt (trailerEntries (slotTrailer s k) - 1)) 16 s

/-! ### Geometry of passes (R43, R44, R46) -/

/-- Even passes run toward increasing counts (R43). -/
def evenPass (p : Nat) : Bool := decide (p % 2 = 0)

/-- The pass direction (R29, R43). -/
def passDir (p : Nat) : Dir := if evenPass p then .forward else .reverse

/-- `d` counts after a count in the pass direction. -/
def ahead (p c d : Nat) : Nat := if evenPass p then c + d else c - d

/-- `d` counts before a count in the pass direction. -/
def back (p c d : Nat) : Nat := if evenPass p then c - d else c + d

/-- Region start and end of a pass (R43). -/
def regionStart (p : Nat) : Nat := if evenPass p then Config.regionLow else Config.regionHigh
def regionEnd (p : Nat) : Nat := if evenPass p then Config.regionHigh else Config.regionLow

/-- Counts that remain on the pass after a count; 0 past the region end. -/
def roomAfter (p c : Nat) : Nat := if evenPass p then Config.regionHigh - c else c - Config.regionLow

/-- The position has reached or passed a count in the pass direction. -/
def reached (p at_ c : Nat) : Bool := if evenPass p then decide (c ≤ at_) else decide (at_ ≤ c)

/-- The position has passed a count in the pass direction. -/
def passed (p at_ c : Nat) : Bool := if evenPass p then decide (c < at_) else decide (at_ < c)

/-- Distance between two counts. -/
def gapOf (a b : Nat) : Nat := if a ≤ b then b - a else a - b

/-- BOT (R43). -/
def bot : Pos := { pass := 0, count := Config.regionLow }

/-- The standing point of a position (R44). -/
def standing (p : Pos) : Pos := { p with count := back p.pass p.count Config.leadIn }

/-- The EOD resume point (R46). -/
def eodResume (e : Eod) : Pos :=
  let p : Pos := { e.pos with count := ahead e.pos.pass e.pos.count Config.pitch }
  if roomAfter p.pass p.count < Config.segmentRoom ∧ p.pass < 47 then { pass := p.pass + 1, count := regionStart (p.pass + 1) } else p

/-- v* of each band (R27). -/
def bandSpeed : Nat → Nat
  | 0 => 102 | 1 => 123 | 2 => 143 | 3 => 164 | 4 => 184 | 5 => 205 | 6 => 225 | _ => 246

/-! ### Recovery context (R59, 12.6) -/

/-- The pending set's bits (12.6). -/
def pendBits (l : List Cause) : Nat :=
  (if l.contains .endApproach then 1 else 0) + (if l.contains .reelStall then 2 else 0) +
    (if l.contains .tensionExcursion then 4 else 0) + (if l.contains .servoLoss then 8 else 0) +
    (if l.contains .frameSlip then 16 else 0)

/-- A context's 64 bytes with its marker set (12.6). -/
def contextBytes (c : Context) : List Byte :=
  padTo 64 ([0xA5, byteOf c.cause.code, byteOf c.op.code, if c.dir = .forward then 0 else 1, byteOf c.pos.pass, byteOf c.band,
    byteOf ((if c.slot.isSome then 1 else 0) + (if c.frame.isSome then 2 else 0)), byteOf (pendBits c.pending)] ++
    leBytes 4 c.pos.count ++ (match c.slot with | none => ones 2 | some k => leBytes 2 k) ++
    [match c.frame with | none => 255 | some f => byteOf f, byteOf c.phase.code])

def causeOf : Nat → Option Cause
  | 1 => some .endApproach | 2 => some .reelStall | 3 => some .tensionExcursion | 4 => some .servoLoss | 5 => some .frameSlip | _ => none

def operationOf : Nat → Option Operation
  | 1 => some .locate | 2 => some .write | 3 => some .read | 4 => some .runout | 5 => some .backhitch | 6 => some .clean | _ => none

def phaseOf : Nat → Option Phase
  | 0 => some .stream | 1 => some .wait | 2 => some .move | 3 => some .scan | 4 => some .paused | 5 => some .retrying
  | 6 => some .ending | _ => none

def causesOf (n : Nat) : List Cause :=
  [Cause.endApproach, .reelStall, .tensionExcursion, .servoLoss, .frameSlip].filter (fun c => n.testBit (c.code - 1))

/-- A context as a pop reads it; none when its marker is not A5h or a field lies outside its range (12.6). `slots` is S. -/
def contextOf (slots : Nat) (bs : List Byte) : Option Context :=
  if field bs 0 1 ≠ 0xA5 ∨ 1 < field bs 3 1 ∨ 47 < field bs 4 1 ∨ 7 < field bs 5 1 ∨ (bitAt bs 6 0 ∧ slots ≤ field bs 12 2) ∨ (bitAt bs 6 1 ∧ 31 < field bs 14 1) then none
  else match causeOf (field bs 1 1), operationOf (field bs 2 1), phaseOf (field bs 15 1) with
    | some c, some o, some ph =>
      some { cause := c, op := o, pos := { pass := field bs 4 1, count := field bs 8 4 },
             dir := if field bs 3 1 = 0 then .forward else .reverse, band := field bs 5 1,
             slot := if bitAt bs 6 0 then some (field bs 12 2) else none,
             frame := if bitAt bs 6 1 then some (field bs 14 1) else none,
             pending := causesOf (field bs 7 1), phase := ph }
    | _, _, _ => none

/-! ### History area (R176, 12.8) -/

def driveEntryBytes (e : DriveEntry) : List Byte :=
  padTo 8 e.serial ++ [byteOf ((if e.after then 1 else 0) + (if e.unknown then 2 else 0)), 0, 0, 0] ++ leBytes 4 e.frames ++
    leBytes 4 e.rewrites ++ leBytes 2 e.rate ++ [0, 0] ++ leBytes 4 e.heavy ++ leBytes 4 e.retries

def driveEntryOf (bs : List Byte) (i : Nat) : DriveEntry :=
  let o := 16 + 32 * i
  { serial := slice bs o 8, unknown := bitAt bs (o + 8) 1, after := bitAt bs (o + 8) 0, frames := field bs (o + 12) 4,
    rewrites := field bs (o + 16) 4, rate := field bs (o + 20) 2, heavy := field bs (o + 24) 4, retries := field bs (o + 28) 4 }

/-- A stored cleaning state (12.2); a code beyond the table is taken as CLEAN_OK, the model's choice, log entry 42. -/
def cleanStateOf : Nat → CleanState
  | 1 => .advised | 2 => .required | 3 => .cleaning | _ => .ok

/-- The persistent part, 512 bytes with its check (R176, 12.8); the return state during CLEANING. -/
def persistentBytes (h : Health) : List Byte :=
  let st := if h.clean = .cleaning then h.returnState else h.clean
  let body := [byteOf st.code, byteOf h.escCount, byteOf h.history.length, 0] ++ leBytes 4 h.meters ++ List.replicate 8 0 ++
    padTo 492 (h.history.flatMap driveEntryBytes)
  body ++ leBytes 4 (checkOf (wordSum body))

def sourceCode : Source → Nat
  | .off => 0 | .event c => c | .level n => 0x41 + n

def MonMode.code : MonMode → Nat
  | .count => 0 | .level => 1 | .above => 2 | .enter => 3

def counterBytes (c : Counter) : List Byte :=
  leBytes 2 (sourceCode c.source) ++
    [byteOf c.mode.code, byteOf ((if c.invert then 1 else 0) + (if c.posted then 2 else 0) + (if c.prev then 4 else 0))] ++
    leBytes 2 c.threshold ++ [0, 0] ++ leBytes 4 c.limit ++ leBytes 4 c.count

/-- The snapshot part, bytes 512 to 4,095 (R176, 12.8). -/
def snapshotBytes (s : State) : List Byte :=
  let h := s.he
  let t := h.tally
  padTo 3584 ([byteOf h.clean.code, if h.tallyOpen then 1 else 0] ++ leBytes 2 h.lastRate ++ leBytes 2 h.soft ++ leBytes 2 h.hard ++
    leBytes 4 h.usage ++ [byteOf h.escLimit, 0, 0, 0] ++
    leBytes 4 t.frames ++ leBytes 4 t.rewrites ++ leBytes 4 t.heavy ++ leBytes 4 t.skips ++ leBytes 4 t.writeErrors ++
    leBytes 4 t.readRetries ++ leBytes 4 t.readErrors ++ leBytes 4 t.servoLosses ++ leBytes 4 t.meters ++ List.replicate 12 0 ++
    padTo 64 (h.counters.flatMap counterBytes) ++ padTo 32 (s.sp.resid.flatMap (leBytes 4)) ++ leBytes 4 s.sp.backhitch ++
    leBytes 2 s.re.entSup ++ leBytes 2 s.re.entTak ++ leBytes 4 s.li.collisions)

end Sys2Proof.Machine
end

