-- ==== Sys2Proof/Machine/Codec.lean ====
section
/-! DEFINITION. The compression scheme of R93 to R95 and its inverse (R153), and the parity arithmetic of R110 and R149. -/

namespace Sys2Proof.Machine

/-! ### Compression (R93 to R95) -/

/-- How many bytes of `cand` and `rest` agree, at most `n`. -/
def agree : Nat → List Byte → List Byte → Nat
  | 0, _, _ => 0
  | _, [], _ => 0
  | _, _, [] => 0
  | n + 1, a :: as, b :: bs => if a = b then agree n as bs + 1 else 0

/-- The length of the match that starts `d` bytes back (R93): the run may overlap the bytes it copies, so the copied run
continues into the bytes ahead. `before` is what precedes position i, newest first. -/
def matchLen (before rest : List Byte) (d : Nat) : Nat := agree 18 ((before.take d).reverse ++ rest) rest

/-- The best match over distances 1 to `n`: longest, and the smallest distance among equals (R93). Answers (length,
distance), length 0 for none. -/
def bestMatch (before rest : List Byte) : Nat → Nat × Nat
  | 0 => (0, 0)
  | n + 1 =>
    let b := bestMatch before rest n
    let l := matchLen before rest (n + 1)
    if b.1 < l then (l, n + 1) else b

/-- One token: a literal byte or a match of a length at a distance. -/
inductive Token where
  | lit (b : Byte)
  | copy (len dist : Nat)
deriving DecidableEq, Repr

/-- The greedy parse (R93). `fuel` bounds the number of tokens by the bytes left. -/
def parseTokens : Nat → List Byte → List Byte → List Token
  | 0, _, _ => []
  | _, _, [] => []
  | fuel + 1, before, b :: rest =>
    let m := bestMatch before (b :: rest) (min 2048 before.length)
    if 3 ≤ m.1 then
      Token.copy m.1 m.2 :: parseTokens fuel (((b :: rest).take m.1).reverse ++ before) ((b :: rest).drop m.1)
    else Token.lit b :: parseTokens fuel (b :: before) rest

/-- A literal run as its control byte and bytes (R94). -/
def literalRun (run : List Byte) : List Byte := byteOf (run.length - 1) :: run

/-- Cut a literal run into runs of 128 from its start (R94). -/
def literalRuns : Nat → List Byte → List Byte
  | 0, _ => []
  | _, [] => []
  | fuel + 1, run => literalRun (run.take 128) ++ literalRuns fuel (run.drop 128)

/-- A match token's two bytes (R94). -/
def matchBytes (len dist : Nat) : List Byte :=
  [byteOf (0x80 + (len - 3) * 8 + (dist - 1) / 256), byteOf ((dist - 1) % 256)]

/-- The token stream; `run` is the literal run still open, in order (R94). -/
def tokenStream (run : List Byte) : List Token → List Byte
  | [] => literalRuns run.length run
  | .lit b :: ts => tokenStream (run ++ [b]) ts
  | .copy l d :: ts => literalRuns run.length run ++ matchBytes l d ++ tokenStream [] ts

/-- The token stream of a chunk after a history (R93, R94). -/
def compressChunk (history raw : List Byte) : List Byte := tokenStream [] (parseTokens raw.length history.reverse raw)

/-- The body of a chunk and whether it is COMPRESSED (R95). -/
def chunkBody (compress : Bool) (history raw : List Byte) : List Byte × Bool :=
  if compress then
    let t := compressChunk history raw
    if t.length < raw.length then (t, true) else (raw, false)
  else (raw, false)

/-- The last 2,048 bytes (R92). -/
def lastBytes (bs : List Byte) : List Byte := bs.drop (bs.length - 2048)

/-- The history after raw bytes have been consumed (R92). -/
def growHistory (history raw : List Byte) : List Byte := lastBytes (history ++ raw)

/-- A chunk header (12.5). -/
def chunkHeader (compressed : Bool) (bodyLen : Nat) : List Byte := [if compressed then 1 else 0, 0] ++ leBytes 2 bodyLen

/-! ### Decompression (R153) -/

/-- Copy `n` bytes from `d` back, byte by byte, so that overlapping copies repeat. `have_` is everything so far, newest
first; none when `d` reaches beyond it. -/
def copyBack : Nat → Nat → List Byte → Option (List Byte)
  | 0, _, have_ => some have_
  | n + 1, d, have_ =>
    match have_[d - 1]? with
    | none => none
    | some b => copyBack n d (b :: have_)

/-- Replay a token stream on what precedes it, newest first; none for a decode fault (a token that runs past its body, or
a match beyond the bytes available since the last reset). -/
def replay : Nat → List Byte → List Byte → Option (List Byte)
  | 0, [], have_ => some have_
  | 0, _ :: _, _ => none
  | _ + 1, [], have_ => some have_
  | fuel + 1, c :: rest, have_ =>
    if c.toNat < 128 then
      let k := c.toNat + 1
      if rest.length < k then none else replay fuel (rest.drop k) ((rest.take k).reverse ++ have_)
    else
      match rest with
      | [] => none
      | d :: rest' =>
        let len := (c.toNat - 128) / 8 + 3
        let dist := ((c.toNat - 128) % 8) * 256 + d.toNat + 1
        if have_.length < dist then none
        else match copyBack len dist have_ with
          | none => none
          | some h => replay fuel rest' h

/-- Expand one chunk body of known raw length after a history (R153): its raw bytes, or none for a decode fault. -/
def expandChunk (history body : List Byte) (compressed : Bool) (rawLen : Nat) : Option (List Byte) :=
  if compressed then
    match replay body.length body history.reverse with
    | none => none
    | some h => if h.length = history.length + rawLen then some ((h.take rawLen).reverse) else none
  else if body.length = rawLen then some body else none

/-- The chunks of one entry: from `bytes` (the segment's chunk bytes still ahead) take the chunks that make `raw` raw
bytes. Answers the output, the history after it and the stored bytes used, or none for a decode fault. -/
def expandEntry : Nat → List Byte → List Byte → Nat → Option (List Byte × List Byte × Nat)
  | _, history, _, 0 => some ([], history, 0)
  | 0, _, _, _ => none
  | fuel + 1, history, bytes, raw =>
    let want := min raw Config.chunkBytes
    let blen := field bytes 2 2
    if bytes.length < 4 + blen then none
    else match expandChunk history ((bytes.drop 4).take blen) (decide (field bytes 0 1 = 1)) want with
      | none => none
      | some out =>
        match expandEntry fuel (growHistory history out) (bytes.drop (4 + blen)) (raw - want) with
        | none => none
        | some (more, h, used) => some (out ++ more, h, 4 + blen + used)

/-! ### Parity (R110, R149) -/

/-- Multiply by 02h in the field of polynomial 11Dh (R110). -/
def gfDouble (a : Byte) : Byte := if a.toNat < 128 then a <<< 1 else (a <<< 1) ^^^ 0x1D

/-- Multiplication in the field, over the low `n` bits of `b` (R110). -/
def gfMulBits : Nat → Byte → Byte → Byte
  | 0, _, _ => 0
  | n + 1, a, b => (if b.toNat % 2 = 1 then a else 0) ^^^ gfMulBits n (gfDouble a) (b >>> 1)

def gfMul (a b : Byte) : Byte := gfMulBits 8 a b

/-- Powers in the field. -/
def gfPow (a : Byte) : Nat → Byte
  | 0 => 1
  | n + 1 => gfMul a (gfPow a n)

/-- α^i, the place of frame `i` (R110). -/
def alpha (i : Nat) : Byte := gfPow 2 i

/-- The inverse of a field element other than zero. -/
def gfInv (a : Byte) : Byte := gfPow a 254

/-- The product of (x + α^w) over the frames of a list: in a field of characteristic 2 it is zero exactly at their
places. -/
def locator (x : Byte) : List Nat → Byte
  | [] => 1
  | w :: ws => gfMul (x ^^^ alpha w) (locator x ws)

/-- The coefficient with which a known frame enters a wanted one. The equations of R110 for k = 0 to 3, weighted by the
coefficients of the polynomial that is zero at the other unknown frames, leave the wanted frame alone. -/
def parityCoeff (unknown : List Nat) (want known : Nat) : Byte :=
  let others := unknown.filter (fun w => decide (w ≠ want))
  gfMul (locator (alpha known) others) (gfInv (locator (alpha want) others))

/-- The sum of coefficient times byte over the known frames. -/
def paritySum (coeffs bytes : List Byte) : Byte :=
  match coeffs, bytes with
  | c :: cs, b :: bs => gfMul c b ^^^ paritySum cs bs
  | _, _ => 0

/-- One byte of a wanted frame from the bytes of the 28 known frames at the same offset (R110, R149). -/
def solveByte (unknown known : List Nat) (want : Nat) (bytes : List Byte) : Byte :=
  paritySum (known.map (parityCoeff unknown want)) bytes

/-- The whole of a wanted frame: the known frames are added up, each times its coefficient. -/
def solveFrame (unknown known : List Nat) (want : Nat) (frames : List (List Byte)) : List Byte :=
  ((known.map (parityCoeff unknown want)).zip frames).foldl
    (fun acc p => List.zipWith (fun a b => a ^^^ gfMul p.1 b) acc p.2) (List.replicate Config.frameBytes 0)

/-- The first `n` frames of those that follow each other in a byte list. -/
def framesOf : Nat → List Byte → List (List Byte)
  | 0, _ => []
  | n + 1, bs => bs.take Config.frameBytes :: framesOf n (bs.drop Config.frameBytes)

end Sys2Proof.Machine
end

