-- ==== Sys2Proof/Machine/Flags.lean ====
section
/-! DEFINITION. The flags and conditions the part computes from its state: what is running, what a transport state
accepts, the busy flags of STATUS, the power state. -/

namespace Sys2Proof.Machine

/-- A write session is open: OPEN, CLOSING or ERROR (5.1). -/
def sessionOpen (s : State) : Bool := decide (s.ri.session ≠ .closed)

/-- READ_RECORDS is running: judged, and holding its running place until its completion has entered the queue (R183). -/
def readRunning (s : State) : Bool :=
  match s.ci.read.running with
  | some (.cmd c) => s.ci.read.judged && (match c.op with | .readRecords _ => true | _ => false)
  | _ => false

/-- The TRANSPORT running place is held (R193). -/
def transportHeld (s : State) : Bool := s.ci.transport.running.isSome

/-- The busy flags of STATUS, bits 0 to 6 (R193, 12.9). -/
def busyFlags (s : State) : Nat :=
  (if transportHeld s then 1 else 0) + (if sessionOpen s then 2 else 0) + (if readRunning s then 4 else 0) +
    (if s.li.unloadRefused then 8 else 0) + (if s.li.attnClean then 16 else 0) + (if s.li.attnFirmware then 32 else 0) +
    (if s.li.attnUnloaded then 64 else 0)

/-- The sub-code a transport state gives to a tape command it does not accept (R1). -/
def transportSub : Transport → SubCode
  | .empty => .noCartridge
  | .seated => .notLoaded
  | .loading => .busyTransport
  | .ready => .alreadyLoaded
  | .parked => .alreadyLoaded
  | .active => .busyTransport
  | .unloading => .busyTransport
  | .unpositioned => .notPositioned
  | .faulted => .transportFaulted

/-- The sub-code for LOAD: as R1's table, but ALREADY_LOADED in ACTIVE too (R1). -/
def loadSub (t : Transport) : SubCode := if t = .active then .alreadyLoaded else transportSub t

/-- Tape-side power states (R35). -/
inductive Power where
  | sleep | parkPower | holdPower | full
deriving DecidableEq, Repr

/-- The power state of each transport state (R35). -/
def powerOf : Transport → Power
  | .empty | .seated | .faulted => .sleep
  | .parked => .parkPower
  | .ready | .unpositioned => .holdPower
  | .loading | .active | .unloading => .full

/-- The servo-enable and channel-enable outputs (R35). -/
def servoEnable (s : State) : Bool := decide (powerOf s.ch.transport = .holdPower) || decide (powerOf s.ch.transport = .full)
def channelEnable (s : State) : Bool := decide (powerOf s.ch.transport = .full)

/-- The transport states in which the health tick runs (R162). -/
def tickRuns : Transport → Bool
  | .ready | .parked | .active | .unpositioned => true
  | _ => false

/-- A cartridge is writable (R7). -/
def writable (s : State) : Bool :=
  let c := s.cart
  !c.cleaning && decide (c.gen = 3) && decide (s.ch.tab = some .isWritable) && !s.ch.tagUnreadable && s.ch.eodConfirmed

/-- The transport moves the tape for a read: READ_RECORDS with its seek, a splice's read with its scan, or the EOD
confirmation with its way back to BOT (R15, R20). -/
def readMotion (s : State) : Bool :=
  (match s.rd.user with
    | some .records | some .scanSeek | some .scanSplice | some .splice | some .confirm => true
    | some .scanLocate | none => false) ||
  decide (s.mo.goal = .confirmBack) || decide (s.mo.savedGoal = .confirmBack)

/-- The activity of a transport state and motion mode (R20). -/
def activity (s : State) : Activity :=
  match s.ch.transport with
  | .loading | .unloading => .moving
  | .active =>
    match s.mo.mode with
    | some .writeStream | some .runout => .writing
    | some .readStream => .reading
    | some .waitData => .none
    | some .backhitch | some .recovery =>
      if sessionOpen s then .writing
      else if readMotion s then .reading
      else .moving
    | _ => if s.rd.user = some .confirm ∨ s.mo.goal = .confirmBack then .reading else .moving
  | _ => .none

/-- The current activity is set at each change of transport state or motion mode, and kept between (R20). -/
def noteActivity (s : State) : State :=
  if s.ch.activityAt = (s.ch.transport, s.mo.mode) then s
  else { s with ch.activity := activity s, ch.activityAt := (s.ch.transport, s.mo.mode) }

/-- F, the number of slots in SEALED (R110). -/
def sealedCount (s : State) : Nat := (s.sm.slots.filter (fun k => decide (k.st = .sealed))).length

/-- The delivery ring's occupied length as a whole percentage (R81). -/
def deliveryFill (s : State) : Nat :=
  match s.bp.layout with
  | none => 0
  | some l => if l.zd = 0 then 0 else s.bp.occupied * 100 / l.zd

end Sys2Proof.Machine
end

