-- ==== Sys2Proof/Machine/Health.lean ====
section
/-! DEFINITION. The Health Monitor (Chapter 9), with the raise of a drive attention (R197) and the forced band (R135) it
calls. -/

namespace Sys2Proof.Machine

/-! ### What the Monitor calls -/

/-- After a raise in state NONE a drive attention starts (R197). -/
def startAttention (s : State) : State :=
  if s.li.attn = .none then { s with li.attn := .pulseDue, li.pulses := 0 } else s

/-- Events of R161, with their codes as monitor sources (12.3). -/
inductive Ev where
  | frameWritten | frameRewrite | frameHeavy | segmentSkip | writeError | readRetry | readError | tensionExcursion
  | reelStall | servoLoss | backhitch | promotion | demotion | demotionRejected | parkRejected | meter
deriving DecidableEq, Repr

def Ev.code : Ev → Nat
  | .frameWritten => 1 | .frameRewrite => 2 | .frameHeavy => 3 | .segmentSkip => 4 | .writeError => 5 | .readRetry => 6
  | .readError => 7 | .tensionExcursion => 8 | .reelStall => 9 | .servoLoss => 10 | .backhitch => 11 | .promotion => 12
  | .demotion => 13 | .demotionRejected => 14 | .parkRejected => 15 | .meter => 16

/-! ### Monitor counters (R163) -/

/-- Post MONITOR_ALARM for a counter whose count has reached its limit and whose flag is clear (R163). -/
def alarmCheck (n : Nat) (s : State) : State :=
  let c := s.he.counters.getD n .clear
  if c.limit ≠ 0 ∧ c.posted = false ∧ c.limit ≤ c.count then
    postAt (.alarm n) (noticeRecord .monitorAlarm ([byteOf n, byteOf (sourceCode c.source)] ++ leBytes 4 c.count))
      { s with he.counters := s.he.counters.set n { c with posted := true } }
  else s

/-- Add to a counter's count, saturating, and compare it with its limit (R163). -/
def bumpCounter (n k : Nat) (s : State) : State :=
  let c := s.he.counters.getD n .clear
  alarmCheck n { s with he.counters := s.he.counters.set n { c with count := satAdd32 c.count k } }

/-- Offer an event to one counter (R163). -/
def offerEvent (e : Ev) (s : State) (n : Nat) : State :=
  let c := s.he.counters.getD n .clear
  if c.source = .event e.code ∧ c.mode = .count then bumpCounter n 1 s else s

/-- A level's condition: at or above the threshold, inverted when invert is set (R163). -/
def Counter.holds (c : Counter) (value : Nat) : Bool := if c.invert then decide (value < c.threshold) else decide (c.threshold ≤ value)

/-- Offer a level at a tick to one counter (R163). -/
def offerLevel (value : Nat → Nat) (s : State) (n : Nat) : State :=
  let c := s.he.counters.getD n .clear
  match c.source with
  | .level k =>
    match c.mode with
    | .level => bumpCounter n (value k) s
    | .above => if c.holds (value k) then bumpCounter n 1 s else s
    | .enter =>
      let now := c.holds (value k)
      let s := { s with he.counters := s.he.counters.set n { c with prev := now } }
      if now && !c.prev then bumpCounter n 1 s else s
    | .count => s
  | _ => s

/-- Offer to counters 0 to 3 in order. -/
def offerAll (f : State → Nat → State) (s : State) : State := [0, 1, 2, 3].foldl f s

/-! ### Cleaning state (R168) -/

/-- The causes of a change of cleaning state, coded 1 to 5 (12.4). -/
inductive CleanCause where
  | checkpointHead | usage | escalation | cleaned | cleanRunFailed
deriving DecidableEq, Repr

def CleanCause.code : CleanCause → Nat
  | .checkpointHead => 1 | .usage => 2 | .escalation => 3 | .cleaned => 4 | .cleanRunFailed => 5

/-- Offer an event to the four counters. -/
def offerToCounters (e : Ev) (s : State) : State := offerAll (offerEvent e) s

/-- CLEAN_REQUIRED while a session is open forces the decided band to 0 at once (R135). -/
def forceBand (s : State) : State :=
  if sessionOpen s then
    let was := s.sp.c
    let s := { s with sp.c := 0, sp.promo := 0, sp.dwellOn := false, sp.dwellCount := 0 }
    if 0 < was then offerToCounters .demotion s else s
  else s

/-- A change of the cleaning state, in the order of R168: set, tell the Speed Matcher, post, raise the attention. A cause
other than a checkpoint leaves the rate absent, all ones (R199). -/
def changeClean (new : CleanState) (cause : CleanCause) (s : State) : State :=
  let old := s.he.clean
  let s := { s with he.clean := new, he.escCount := if new = .advised then 0 else s.he.escCount }
  let s := if new = .required then forceBand s else s
  let rate := if cause = .checkpointHead then leBytes 2 s.he.lastRate else ones 2
  let s := postNotice .cleanStateChanged
    ([byteOf old.code, byteOf new.code, byteOf cause.code] ++ leBytes 4 s.he.meters ++ rate) s
  startAttention { s with li.attnClean := true }

/-- The usage limit: CLEAN_OK at or above it becomes CLEAN_ADVISED (R169, R175). -/
def usageCheck (s : State) : State :=
  if s.he.clean = .ok ∧ s.he.usage ≤ s.he.meters then changeClean .advised .usage s else s

/-- The escalation limit: CLEAN_ADVISED at or above it becomes CLEAN_REQUIRED (R169, R175). -/
def escalationCheck (s : State) : State :=
  if s.he.clean = .advised ∧ s.he.escLimit ≤ s.he.escCount then changeClean .required .escalation s else s

/-- A cleaning run begins its threading: CLEANING, with the return state kept (R168, R172). The change's cause has no code
of its own in 12.4; it is a free value (log entry 31). -/
def enterCleaning (s : State) : State :=
  let old := s.he.clean
  let cause := byteOf (freeNow s)
  let s := usedFree { s with he.clean := .cleaning, he.returnState := old }
  let s := postNotice .cleanStateChanged ([byteOf old.code, byteOf CleanState.cleaning.code, cause] ++ leBytes 4 s.he.meters ++ ones 2) s
  startAttention { s with li.attnClean := true }

/-- A cleaning run that fails before its motion completes returns the cleaning state (R174). -/
def cleaningFailed (s : State) : State :=
  if s.he.clean = .cleaning then
    -- the escalation count is unchanged (R174), also where the return state is CLEAN_ADVISED
    let n := s.he.escCount
    let s := changeClean s.he.returnState .cleanRunFailed s
    { s with he.escCount := n }
  else s

/-! ### Checkpoints (R166, R167) -/

/-- The load rate in parts per thousand, 0 when no frame has been written (R166, R170). -/
def loadRate (t : Tally) : Nat := if t.frames = 0 then 0 else t.rewrites * 1000 / t.frames

/-- The serial of the cartridge in the drive, none when it is taken as unknown (R167). -/
def driveSerial (s : State) : Option (List Byte) := if s.ch.tagUnreadable then none else some s.cart.serial

/-- The first three entries, newest first, that carry the after-cleaning marker and whose serial differs (R167). -/
def othersOf (mine : Option (List Byte)) (newestFirst : List DriveEntry) : List DriveEntry :=
  (newestFirst.filter (fun e => e.after && (e.unknown || decide (mine ≠ some e.serial)))).take 3

/-- How many of a list of rates are at or above the soft limit. -/
def atSoft (soft : Nat) (rates : List Nat) : Nat := (rates.filter (fun r => decide (soft ≤ r))).length

/-- A checkpoint: form the rate, judge it (R166, R167). -/
def checkpoint (s : State) : State :=
  let rate := loadRate s.he.tally
  let s := consultCart { s with he.lastRate := rate }
  let others := atSoft s.he.soft ((othersOf (driveSerial s) s.he.history.reverse).map DriveEntry.rate)
  let tags := s.cart.hist.map TagLoad.rate
  if s.he.hard ≤ rate ∧ 2 ≤ others then
    if s.he.clean = .required then s else changeClean .required .checkpointHead s
  else if s.he.soft ≤ rate ∧ 1 ≤ others then
    if s.he.clean = .ok then changeClean .advised .checkpointHead s else s
  else if s.he.soft ≤ rate ∧ others = 0 ∧ 2 ≤ atSoft s.he.soft tags then
    if s.he.mediaPosted then s
    else postNotice .mediaDegraded (s.cart.serial ++ leBytes 2 rate ++ tags.flatMap (leBytes 2)) { s with he.mediaPosted := true }
  else s

/-! ### Events (R161) -/

/-- Add the event to its tally field (R161, R165). -/
def tallyEvent (e : Ev) (t : Tally) : Tally :=
  match e with
  | .frameWritten => { t with frames := satAdd32 t.frames 1 }
  | .frameRewrite => { t with rewrites := satAdd32 t.rewrites 1 }
  | .frameHeavy => { t with heavy := satAdd32 t.heavy 1 }
  | .segmentSkip => { t with skips := satAdd32 t.skips 1 }
  | .writeError => { t with writeErrors := satAdd32 t.writeErrors 1 }
  | .readRetry => { t with readRetries := satAdd32 t.readRetries 1 }
  | .readError => { t with readErrors := satAdd32 t.readErrors 1 }
  | .servoLoss => { t with servoLosses := satAdd32 t.servoLosses 1 }
  | .meter => { t with meters := satAdd32 t.meters 1 }
  | .tensionExcursion | .reelStall | .backhitch | .promotion | .demotion | .demotionRejected | .parkRejected => t

/-- The Monitor takes an event: the tally first, then the counters; a frame written may make a checkpoint (R161, R166). -/
def event (e : Ev) (s : State) : State :=
  let s := { s with he.tally := tallyEvent e s.he.tally }
  let s := offerToCounters e s
  if e = .frameWritten ∧ s.he.tallyOpen = true ∧ s.he.tally.frames % 4096 = 0 then checkpoint s else s

/-- METER: the tally and counters, and the meters since cleaning while a DATA or unreadable cartridge is in the drive
(R161, R169). -/
def meterEvent (s : State) : State :=
  let s := event .meter s
  if s.ch.tagUnreadable || !s.cart.cleaning then usageCheck { s with he.meters := satAdd32 s.he.meters 1 } else s

/-- A BACKHITCH event reaches the Health Monitor and the Speed Matcher (R54, R138). -/
def backhitchEvent (s : State) : State := event .backhitch { s with sp.backhitch := satAdd32 s.sp.backhitch 1 }

/-- A DATA load completes: the tally is cleared and opened, the flags cleared, the escalation count raised in
CLEAN_ADVISED (R13 step 6, R138, R165, R167, R169). -/
def loadTally (s : State) : State :=
  let s := { s with he.tally := .clear, he.tallyOpen := true, he.mediaPosted := false,
                    sp.resid := List.replicate 8 0, sp.backhitch := 0 }
  if s.he.clean = .advised then escalationCheck { s with he.escCount := min (s.he.escCount + 1) 50 } else s

/-! ### Histories (R170, R171, R176) -/

/-- Base of the history area. -/
def histBase (s : State) : Nat := (s.bp.layout.map Layout.histBase).getD 0

/-- Write the persistent part of the history area (R176). -/
def writePersistent (s : State) : State :=
  if s.bp.layout.isSome then issueWrite .internal (histBase s) (persistentBytes s.he) .plain s else s

/-- Append, dropping the oldest of `n`. -/
def appendMax {α : Type} (n : Nat) (xs : List α) (x : α) : List α := (xs ++ [x]).drop (xs.length + 1 - n)

/-- The load summary (R170) and the tag's entry (R171), when tally-open is set: also where the load whose tally it is was ended by a
FAULTED cartridge's removal by hand, the model's choice, log entry 42. -/
def loadSummary (s : State) : State :=
  if s.he.tallyOpen then
    let t := s.he.tally
    let rate := loadRate t
    let e : DriveEntry := { serial := if s.ch.tagUnreadable then List.replicate 8 0 else s.cart.serial, unknown := s.ch.tagUnreadable,
                            after := true, frames := t.frames, rewrites := t.rewrites, rate := rate, heavy := t.heavy, retries := t.readRetries }
    let s := { s with he.history := appendMax 8 s.he.history e, he.tallyOpen := false }
    let c := s.cart
    if !s.ch.tagUnreadable && !c.cleaning then
      let drive := (s.bp.layout.map Layout.driveId).getD []
      let h : TagLoad := { drive := drive, frames := t.frames, rewrites := t.rewrites, rate := rate }
      putCart { c with hist := appendMax 4 c.hist h } s
    else s
  else s

/-- The Health Monitor's part of the TAG_WRITE step: the unload checkpoint, the summary, the history area (R166, R170,
R176). -/
def healthAtTagWrite (s : State) : State :=
  let s := if s.he.tallyOpen = true ∧ 4096 ≤ s.he.tally.frames then checkpoint s else s
  writePersistent (loadSummary s)

/-- At an adoption the persistent part of the history area is read through the internal class, and the four values are
taken from it, or begun afresh when its check fails (R74, R176). Counts beyond their range are taken as its end: the model's choice, log
entry 42. -/
def readHistory (s : State) : State :=
  let bs := readThrough s (histBase s) 512
  let s := consult (histBase s) 512 s
  if wordSum bs = 0 then
    { s with he.history := (List.range (min (field bs 2 1) 8)).map (driveEntryOf bs), he.clean := cleanStateOf (field bs 0 1),
             he.meters := field bs 4 4, he.escCount := min (field bs 1 1) 50 }
  else { s with he.history := [], he.clean := .ok, he.meters := 0, he.escCount := 0 }

/-! ### The Monitor's own rows -/

/-- The value of a level at a tick (R162): SEALED_COUNT, APPLIED_BAND, DELIVERY_FILL. -/
def levelValue (s : State) : Nat → Nat
  | 0 => sealedCount s
  | 1 => s.mo.band
  | _ => deliveryFill s

/-- HEALTH_TICK (R162): while the tick runs, the three levels are offered to the counters. -/
def execHealthTick (s : State) : Out := .next (if s.he.tick then offerAll (offerLevel (levelValue s)) s else s)

/-- A source code of SET_MONITOR (12.3); none for any other code (R164). -/
def sourceOf (n : Nat) : Option Source :=
  if n = 0 then some .off else if n ≤ 16 then some (.event n) else if 0x41 ≤ n ∧ n ≤ 0x43 then some (.level (n - 0x41)) else none

def modeOf (n : Nat) : MonMode :=
  match n % 4 with
  | 0 => .count | 1 => .level | 2 => .above | _ => .enter

/-- Check 3 of R164. -/
def modeFits (src : Source) (m : MonMode) : Bool :=
  match src, m with
  | .event _, .count => true
  | .event _, _ => false
  | .level _, .count => false
  | .level _, _ => true
  | .off, _ => true

/-- SET_MONITOR judged (R164). -/
def judgeSetMonitor (m : MonitorOperands) (s : State) : State :=
  match sourceOf m.source with
  | some src =>
    if 3 < m.counter ∨ modeFits src (modeOf m.mode) = false then completeWith .health .refusedOperand s
    else
      let c : Counter := { source := src, mode := modeOf m.mode, threshold := m.threshold, invert := m.invert, limit := m.limit,
                           count := 0, posted := false, prev := false }
      completeWith .health .ok { s with he.counters := s.he.counters.set m.counter c }
  | none => completeWith .health .refusedOperand s

/-- SET_CLEAN_LIMITS judged (R175): the soft limit is clamped first, then the hard limit against it. -/
def judgeSetCleanLimits (l : CleanOperands) (s : State) : State :=
  let soft := clampNat l.soft 1 500
  let s := { s with he.soft := soft, he.hard := clampNat l.hard soft 1000, he.usage := clampNat l.usage 1000 10000000,
                    he.escLimit := clampNat l.escalation 1 50 }
  completeWith .health .ok (escalationCheck (usageCheck s))

/-- HEALTH_SNAPSHOT judged (R176): the persistent part first, then the snapshot part. -/
def judgeHealthSnapshot (s : State) : State :=
  let s := writePersistent s
  completeWith .health .ok (issueWrite .internal (histBase s + 512) (snapshotBytes s) .plain s)

end Sys2Proof.Machine
end

