-- ==== Sys2Proof/Machine/Power.lean ====
section
/-! DEFINITION. Targets of the reel loops, forced zeros, the brake, changes of transport state with the power state that
follows them, wake and park dwell (Chapter 2), and the emptying of the recovery stack (R59). -/

namespace Sys2Proof.Machine

/-! ### What the position input shows -/

/-- The position input shows movement: the newest two scans differ. -/
def inputMoves (s : State) : Bool :=
  match s.re.window with
  | a :: b :: _ => decide (a ≠ b)
  | _ => false

/-- The distance over the last 33 scan completions, unsigned by direction: positive for forward movement (R26). -/
def windowDistance (s : State) : Int := s.re.window.headD 0 - s.re.window.getLastD 0

/-- |v| below 2 (R34, R45). -/
def stands (s : State) : Bool := decide ((windowDistance s).natAbs < 2)

/-- The tape is at rest: v* is 0 and the scan shows |v| below 2 (R45). -/
def atRest (s : State) : Bool := decide (s.mo.v = 0) && stands s

/-! ### Targets (R27) -/

/-- T* (R27). -/
def tStar (s : State) : Nat :=
  match s.ch.transport with
  | .active =>
    match s.mo.mode with
    | some .waitData => Config.tHold
    | some .cleanRun => Config.tClean
    | some .recovery => s.mo.recT
    | _ => Config.tStream
  | .parked => Config.tPark
  | .unloading => Config.tStream
  | .loading => if s.ch.step = some .threadPull then Config.tThread else Config.tHold
  | _ => Config.tHold

/-- v* in quarter counts per 32 scans (R27). The locate and rewind rows are carried in `mo.v`, which holds thread speed
while the search of R56 runs; a ramp before a held frame 0 has brought a write stream to the band it will start at (R52). -/
def vStar (s : State) : Nat :=
  match s.ch.transport with
  | .active =>
    match s.mo.mode with
    | some .writeStream | some .readStream | some .runout => bandSpeed (s.mo.bandTo.getD s.mo.band)
    | some .waitData => 0
    | some .cleanRun => Config.threadSpeed
    | _ => s.mo.v
  | .unloading => if s.ch.step = some .rewind then s.mo.v else 0
  | .loading => if s.ch.step = some .servoAcquire then Config.threadSpeed else 0
  | _ => 0

/-- The loops run: the states and steps of R27 with the brake released (R25). -/
def loopsRun (s : State) : Bool :=
  !s.re.brake &&
    match s.ch.transport with
    | .ready | .parked | .active | .unpositioned => true
    | .loading => decide (s.ch.step = some .threadPull) || decide (s.ch.step = some .tensionUp) || decide (s.ch.step = some .servoAcquire)
    | .unloading => decide (s.ch.step = some .rewind)
    | _ => false

/-- The rewind of an unload that goes to BOT from a known position (R18): neither the search of R56 nor a cleaning rewind. -/
def knownRewind (s : State) : Bool :=
  decide (s.ch.transport = .unloading) && decide (s.ch.step = some .rewind) && !s.mo.recal && s.he.cleanDist.isNone

/-- The supply direction to stage (R29): FORWARD wherever v* is 0; in the rewind of an unload REVERSE on an even pass and FORWARD
on an odd pass; else the commanded direction of motion. -/
def supplyDir (s : State) : Dir :=
  if vStar s = 0 then .forward
  else if knownRewind s then (if s.mo.pass % 2 = 0 then .reverse else .forward)
  else s.mo.dir

/-- What follows from a change of transport state or motion mode: the current activity (R20); and a change of T* restarts the settle and
excursion counts, and the excursion count is held for 64 scans (R31, R33). -/
def noteTarget (s : State) : State :=
  let s := noteActivity s
  if s.re.tstar = tStar s then s else { s with re.tstar := tStar s, re.settle := 0, re.exc := 0, re.excHold := 64 }

/-- Movement that the position input shows, in quarter counts: METER's sum while tape is in the path, the net cleaning distance
(R43, R172). -/
def carryMovement (delta : Int) (s : State) : State :=
  { s with mo.meter := if s.ch.tape then s.mo.meter + delta.natAbs else s.mo.meter, he.cleanDist := s.he.cleanDist.map (· + delta) }

/-- Every entry of the movement window takes the movement count of the newest scan, at which the tape stands (R26). -/
def fillWindow (s : State) : State := { s with re.window := s.re.window.map (fun _ => s.re.input) }

/-- The scan mode leaves OFF (R26): no scan has read the movement count of this moment, so the window is empty until the first scan
reads it; as long as it has fewer than 33 entries, the count read first is its oldest. -/
def openWindow (s : State) : State := { s with re.window := [], re.scanDue := false }

/-! ### Channels and brake (R24, R25) -/

/-- A channel after a forced zero: both pairs at zero duty, the update flag set (R24). -/
def Channel.forced : Channel := { rise := 0, fall := 0, sRise := 0, sFall := 0, flag := true }

/-- Stage a pair and set the update flag (R24). -/
def Channel.stage (c : Channel) (rise fall : Nat) : Channel := { c with sRise := rise, sFall := fall, flag := true }

/-- Both reels forced to zero; the brake is applied when the position input shows movement (R24, R25). -/
def zeroReels (s : State) : State :=
  { s with re.sup := .forced, re.tak := .forced, re.brake := s.re.brake || inputMoves s }

/-- All three channels forced to zero. -/
def zeroAll (s : State) : State := zeroReels { s with re.armCh := .forced }

/-- Where a loop does not run its reel's staged pair is held at zero duty, other than in TENSION_DOWN; a brake also holds
the counters of Section 2.4 at 0 (R24, R25). -/
def holdIdle (s : State) : State :=
  if loopsRun s then s
  else
    let s := if s.ch.step = some .tensionDown ∨ s.ch.step = some .backTension then s
      else { s with re.sup := s.re.sup.stage 0 0, re.tak := s.re.tak.stage 0 0 }
    if s.re.brake then { s with re.limSup := 0, re.limTak := 0, re.exc := 0, re.excDue := false, re.stall := 0, re.stallDue := false } else s

/-- Drive the arm: duty 600 in a direction (R30). -/
def driveArm (d : ArmDir) (s : State) : State := { s with re.armCh := s.re.armCh.stage 0 600, re.armDirS := d }

/-- The arm movement has ended: zero duty (R30). -/
def stopArm (s : State) : State := { s with re.armCh := s.re.armCh.stage 0 0 }

/-! ### Recovery stack (R59) -/

/-- Write both markers of the recovery context area clear. -/
def clearMarkers (s : State) : State :=
  match s.bp.layout with
  | none => s
  | some l => issueWrite .internal (l.ctxBase + 64) [0] .plain (issueWrite .internal l.ctxBase [0] .plain s)

/-- Empty the stack: the part writes both markers clear (R59). A pop still under way comes to nothing. -/
def emptyStack (s : State) : State :=
  if s.mo.stack.isEmpty then s else clearMarkers { s with mo.stack := [] }

/-- End the recovery: stack and pending set emptied, mask cleared (R4, R57, R65, R66). -/
def endRecovery (s : State) : State :=
  let s := emptyStack s
  { s with mo.pend := [], mo.mask := false, mo.wait := .none, mo.savedLegs := [], mo.savedGoal := .none, mo.redirect := false,
           mo.skipResume := false, mo.recT := Config.tStream }

/-! ### Transport state and power (R1, R35) -/

/-- Entry to SLEEP: forced zero, reels NORMAL, counters 0 (R24, R35). -/
def enterSleep (s : State) : State :=
  let s := zeroAll s
  { s with re.degSup := false, re.degTak := false, re.limSup := 0, re.limTak := 0, re.exc := 0, re.excDue := false,
           re.stall := 0, re.stallDue := false, re.settle := 0 }

/-- What follows from the power state that a transport state decides (R26, R35). -/
def followPower (old new : Power) (s : State) : State :=
  let s := if new = .sleep ∧ old ≠ .sleep then enterSleep s else s
  if old = .sleep ∧ new ≠ .sleep then openWindow s else s

/-- The position and the logical position become UNKNOWN (R43, R44); the start point is then invalid (R144). -/
def losePosition (s : State) : State :=
  { s with mo.quality := .unknown, mo.lp := none, mo.stands := none, rd.start := none }

/-- What leaving ACTIVE takes away: the motion mode and its plan, the recovery, the pending set, the excursion count (R33,
R57, R59). -/
def leaveActive (s : State) : State :=
  let s := endRecovery s
  { s with mo.mode := none, mo.into := none, mo.stopping := false, mo.passWait := false, mo.legs := [], mo.goal := .none, mo.bandTo := none,
           mo.v := 0, mo.dest := 0, re.exc := 0, re.excDue := false }

/-- What entry to each transport state sets in the position and the servo (R4, R35, R43, R194). -/
def enterEffects (t : Transport) (s : State) : State :=
  match t with
  | .empty => losePosition { s with mo.locked := false, li.unloadRefused := false }
  | .seated => losePosition { s with mo.locked := false }
  | .loading => losePosition { s with mo.locked := false }
  | .parked =>
    { s with mo.locked := false, mo.quality := if s.mo.quality = .locked then .estimated else s.mo.quality,
             pw.dataOffered := false, re.sparse := 0 }
  | .unpositioned => losePosition s
  | .faulted => losePosition { s with mo.locked := false }
  | .ready | .active | .unloading => s

/-- A change of transport state. The dwell and the settling end with the state they belong to; a change of T* is noted. -/
def setTransport (t : Transport) (s : State) : State :=
  let old := s.ch.transport
  let s := if old = .active ∧ t ≠ .active then leaveActive s else s
  let s := { s with ch.transport := t, pw.dwell := false, pw.settling := false, mo.reacquire := false, mo.passWait := false,
                    he.tick := tickRuns t }
  let s := enterEffects t (followPower (powerOf old) (powerOf t) s)
  noteTarget (holdIdle s)

/-- Set the step of a load or unload. -/
def setStep (x : Step) (s : State) : State := noteTarget (holdIdle { s with ch.step := some x })

/-- Entry to READY with settling ended arms the park dwell (R39). -/
def toReady (s : State) : State :=
  let s := setTransport .ready s
  { s with pw.dwell := true }

/-- A command cancels a running park dwell, which counts PARK_REJECTED (R39). -/
def cancelDwell (j : JobId) (s : State) : State :=
  if s.pw.dwell then event .parkRejected { s with pw.dwell := false, pw.cancelled := some j } else s

/-- A restart of the writer cancels the dwell (R39, R122). -/
def cancelDwellByRestart (s : State) : State :=
  if s.pw.dwell then event .parkRejected { s with pw.dwell := false } else s

/-- A wake of a PARKED transport (R36). -/
def wake (s : State) : State :=
  let s := setTransport .ready s
  { s with pw.settling := true }

/-- Entry to PARKED (R35, R39, R40). -/
def park (s : State) : State := setTransport .parked s

/-! ### Wake sources (R37) -/

/-- The three wake sources, coded 1 to 3 (12.4). -/
inductive WakeSource where
  | seat | linkWake | data
deriving DecidableEq, Repr

def WakeSource.code : WakeSource → Nat
  | .seat => 1 | .linkWake => 2 | .data => 3

/-- A WAKE notice: the source, the transport state, whether a wake was made (R37, 12.4). -/
def postWake (src : WakeSource) (t : Transport) (made : Bool) (s : State) : State :=
  postNotice .wake [byteOf src.code, byteOf t.code, if made then 1 else 0] s

/-- LINK_WAKE offered to the power policy (R37). -/
def offerLinkWake (s : State) : State :=
  let t := s.ch.transport
  let made := decide (t = .parked) && s.pw.linkW
  let s := if made then wake s else s
  if s.pw.linkN then postWake .linkWake t made s else s

/-- DATA offered to the power policy: once in each stay in PARKED (R37). -/
def offerData (s : State) : State :=
  if s.ch.transport = .parked ∧ s.pw.dataOffered = false then
    let made := s.pw.dataW
    let n := s.pw.dataN
    let s := { s with pw.dataOffered := true }
    let s := if made then wake s else s
    if n then postWake .data .parked made s else s
  else s

/-! ### SET_POWER_POLICY (R41) -/

/-- SET_POWER_POLICY judged (R41): enables in bits 0 to 5, SEAT W and N, LINK_WAKE W and N, DATA W and N (12.3); a running
dwell is armed again. -/
def judgeSetPowerPolicy (enables dwell : Nat) (s : State) : State :=
  completeWith .transport .ok
    { s with pw.seatW := enables.testBit 0, pw.seatN := enables.testBit 1, pw.linkW := enables.testBit 2, pw.linkN := enables.testBit 3,
             pw.dataW := enables.testBit 4, pw.dataN := enables.testBit 5, pw.dwellLen := clampNat dwell 1 600 }

end Sys2Proof.Machine
end

