-- ==== Sys2Proof/Machine/Motion.lean ====
section
/-! DEFINITION. The motion primitives of the Motion Controller (R44, R45): plans of legs, ramps into a stream, the restart of
the writer and WAIT_DATA (R54). What a plan leads to is carried out where it arrives. -/

namespace Sys2Proof.Machine

/-- The position held (R43). -/
def here (s : State) : Pos := { pass := s.mo.pass, count := s.mo.count }

/-- The tape is about to move: it leaves its standing point, and the start point becomes invalid (R144). -/
def motionStart (s : State) : State := { s with mo.stands := none, rd.start := none }

/-- The transport is ACTIVE for a motion, or stays UNLOADING in the rewind. -/
def enterActive (s : State) : State :=
  if s.ch.transport = .active ∨ s.ch.transport = .unloading then s else setTransport .active s

/-- Counts to go to a target in the direction of motion. -/
def remaining (s : State) (target : Nat) : Nat :=
  if s.mo.dir = .forward then target - s.mo.count else s.mo.count - target

/-- The step-down of a move that ends at rest begins at the distance that brings v* to 0 at the named point (R45):
v(v+1)/256 counts at one step a scan. -/
def checkStop (s : State) : State :=
  match s.mo.legs with
  | { target := some t, .. } :: _ =>
    let r := remaining s t
    if s.mo.stopping = false ∧ s.mo.passWait = false ∧ r * 256 ≤ s.mo.v * (s.mo.v + 1) ∧ (0 < s.mo.v ∨ r = 0) then
      { s with mo.dest := 0, mo.stopping := true, mo.into := none, mo.mode := if s.mo.mode = some .locate then some .ramp else s.mo.mode }
    else s
  | _ => s

/-- The pass is changed at rest before a move begins (R43): it is named to the servo, and the plan waits for lock on it. The
model's choice, log entry 36: while it waits, v* is 0 in the mode of the move. -/
def awaitPass (p : Nat) (m : MotionMode) (legs : List Leg) (s : State) : State :=
  { s with mo.named := p, mo.passWait := true, mo.legs := legs, mo.mode := if s.ch.transport = .active then some m else none, mo.into := none,
           mo.stopping := false, mo.v := 0, mo.dest := 0 }

/-- Begin the first leg of a plan. A stop with the tape already at rest is done at once when more legs follow. -/
def beginLegs : List Leg → State → State
  | [], s => { s with mo.legs := [] }
  | leg :: rest, s =>
    match leg.target with
    | none =>
      if rest ≠ [] ∧ atRest s = true then beginLegs rest s
      else
        let m := if s.ch.transport = .active then some leg.mode else none
        { s with mo.mode := m, mo.legs := leg :: rest, mo.dest := 0, mo.stopping := true, mo.into := none }
    | some t =>
      let p := leg.pass.getD s.mo.pass
      if p ≠ s.mo.pass then awaitPass p (if leg.mode = .locate then .ramp else leg.mode) (leg :: rest) s
      else
        let dir := if t < s.mo.count then Dir.reverse else if s.mo.count < t then .forward else s.mo.dir
        let s := { s with mo.named := p, mo.legs := leg :: rest, mo.dest := leg.speed, mo.stopping := false, mo.into := none, mo.dir := dir }
        if s.ch.transport = .active then
          if leg.mode = .locate then checkStop { s with mo.mode := some .ramp, mo.into := some .locate }
          else checkStop { s with mo.mode := some leg.mode }
        else checkStop { s with mo.v := leg.speed }

/-- Start a plan. The park dwell does not outlast WAIT_DATA (R39). -/
def startPlan (legs : List Leg) (g : Goal) (s : State) : State :=
  let s := motionStart (enterActive s)
  noteTarget (beginLegs legs { s with mo.goal := g, mo.passWait := false, mo.bandTo := none, pw.dwell := false })

/-- Start a plan, or in a recovery leave it to be started in place of the plan that the recovery interrupted when the recovery
returns. The model's choice, log entry 39. -/
def planMotion (legs : List Leg) (g : Goal) (s : State) : State :=
  if s.mo.mask then { s with mo.savedLegs := legs, mo.savedGoal := g, mo.redirect := true } else startPlan legs g s

/-- A stop in a mode. -/
def stopLeg (m : MotionMode) : Leg := { mode := m, pass := none, target := none, speed := 0 }

/-- A move to rest at a count of a pass. -/
def moveLeg (m : MotionMode) (p : Pos) (speed : Nat) : Leg := { mode := m, pass := some p.pass, target := some p.count, speed := speed }

/-- Stop where the tape is, in RAMP. -/
def stopThen (g : Goal) (s : State) : State := planMotion [stopLeg .ramp] g s

/-- Bring the tape to the standing point of `p` by a move in mode BACKHITCH (R44). -/
def backhitchTo (p : Pos) (g : Goal) (s : State) : State :=
  planMotion [stopLeg .ramp, moveLeg .backhitch (standing p) Config.moveSpeed] g s

/-- Bring the tape at locate speed to a standing place (R46). -/
def locateTo (place : Pos) (g : Goal) (s : State) : State := planMotion [stopLeg .ramp, moveLeg .locate place Config.locateSpeed] g s

/-- Ramp from rest into a stream on the pass now held, at the applied band (R45). -/
def rampInto (m : MotionMode) (s : State) : State :=
  let s := motionStart (enterActive s)
  noteTarget { s with mo.mode := some .ramp, mo.into := some m, mo.legs := [], mo.goal := .none, mo.stopping := false, mo.passWait := false,
                      mo.bandTo := none, mo.named := s.mo.pass, mo.dest := bandSpeed s.mo.band, mo.dir := passDir s.mo.pass }

/-- From a standing point, ramp into WRITE_STREAM at the applied band; the first slot is offered at `p` (R54, R63). -/
def rampWrite (p : Pos) (s : State) : State := rampInto .writeStream { s with mo.planned := p.count }

/-- From a standing point, ramp into READ_STREAM at the read band (R137). -/
def rampRead (s : State) : State := rampInto .readStream { s with mo.band := s.sp.policy.readBand }

/-- Enter WAIT_DATA, which arms the park dwell (R39, R54); with the session ended meanwhile the transport enters READY
(R125, R126). -/
def enterWaitData (s : State) : State :=
  if s.ri.session = .closed ∨ s.wr.pendingEnd ≠ .none then toReady { s with wr.pendingEnd := .none }
  else
    let s := enterActive { s with mo.mode := some .waitData, mo.legs := [], mo.goal := .none, mo.into := none, mo.stopping := false,
                                  mo.passWait := false, mo.v := 0, mo.dest := 0, mo.dir := passDir s.mo.pass }
    noteTarget { s with pw.dwell := true }

/-- A restart of the writer (R54, R86, R136): the applied band becomes the decided band, and the tape starts from the standing
point of the resume point, or after a move to it. -/
def restart (s : State) : State :=
  match s.mo.resume with
  | none => s
  | some p =>
    let s := cancelDwellByRestart s
    let s := { s with mo.band := s.sp.c }
    if s.mo.stands = some (standing p) then rampWrite p s else backhitchTo p .writeGo s

end Sys2Proof.Machine
end

