-- ==== Sys2Proof/Machine/Speed.lean ====
section
/-! DEFINITION. The Speed Matcher (Chapter 7): evaluation, stream policy, session start. -/

namespace Sys2Proof.Machine

/-- The inflow EF in frames per 3 s (R130). -/
def inflow (hist : List Nat) : Nat := min (hist.sum * 15 / 131072) 65535

/-- rate(b), frames per 3 s (R131). -/
def bandRate (b : Nat) : Nat := 500 + 100 * b

/-- The base band (R131): the smallest that satisfies the test, else 7. -/
def baseBand (ef : Nat) : Nat := ((List.range 8).find? (fun b => decide (ef * 17 ≤ bandRate b * 16))).getD 7

/-- b1 (R132). -/
def fillBand (b0 f h : Nat) : Nat := if h ≤ f then min (b0 + 1) 7 else if f ≤ 1 then b0 - 1 else b0

/-- H of the policy: half of S until a command sets it (R139). -/
def highMark (s : State) : Nat :=
  if s.sp.highSet then s.sp.policy.highMark else ((s.bp.layout.map Layout.s).getD 0) / 2

/-- The target of an evaluation (R132). -/
def bandTarget (s : State) : Nat :=
  if s.he.clean = .required then 0
  else clampNat (fillBand (baseBand (inflow s.sp.hist)) (sealedCount s) (highMark s)) s.sp.policy.bandMin s.sp.policy.bandMax

/-- A target above c (R133, R134). -/
def promote (target : Nat) (s : State) : State :=
  let rejected := s.sp.dwellOn
  let s := { s with sp.dwellOn := false, sp.dwellCount := 0 }
  let s := if s.sp.promo + 1 = 2 then event .promotion { s with sp.c := target, sp.promo := 0 } else { s with sp.promo := s.sp.promo + 1 }
  if rejected then event .demotionRejected s else s

/-- A target below c (R133, R134). -/
def demote (target : Nat) (s : State) : State :=
  let s := { s with sp.promo := 0 }
  if s.sp.dwellOn then
    let n := s.sp.dwellCount + 1
    let high := max s.sp.dwellHigh target
    if s.sp.policy.dwell ≤ n then event .demotion { s with sp.c := high, sp.dwellOn := false, sp.dwellCount := 0, sp.dwellHigh := high }
    else { s with sp.dwellCount := n, sp.dwellHigh := high }
  else { s with sp.dwellOn := true, sp.dwellCount := 1, sp.dwellHigh := target }

/-- The decision of one evaluation (R133, R134). -/
def decideBand (target : Nat) (s : State) : State :=
  if s.sp.c < target then promote target s
  else if target < s.sp.c then demote target s
  else
    let rejected := s.sp.dwellOn
    let s := { s with sp.promo := 0, sp.dwellOn := false, sp.dwellCount := 0 }
    if rejected then event .demotionRejected s else s

/-- Residency (R138). -/
def countResidency (s : State) : State :=
  if s.ch.transport = .active ∧ s.mo.mode = some .writeStream then
    { s with sp.resid := s.sp.resid.set s.mo.band (satAdd32 (s.sp.resid.getD s.mo.band 0) 1) }
  else s

/-- INTERVAL_EXPIRY (R129 to R134, R138): while the timer runs, the sum is pushed and the evaluation made. -/
def execIntervalExpiry (s : State) : Out :=
  .next (if s.sp.timer then
    let s := countResidency { s with sp.hist := (s.sp.hist ++ [s.sp.sum]).drop 1, sp.sum := 0 }
    decideBand (bandTarget s) s
  else s)

/-- A session enters OPEN (R141). -/
def startSpeed (s : State) : State :=
  { s with sp.hist := List.replicate 8 0, sp.sum := 0, sp.c := if s.he.clean = .required then 0 else s.sp.policy.bandMin,
           sp.promo := 0, sp.dwellOn := false, sp.dwellCount := 0, sp.timer := true }

/-- A session enters CLOSED (R129, R134). -/
def stopSpeed (s : State) : State := { s with sp.timer := false, sp.dwellOn := false, sp.dwellCount := 0 }

/-- The fields that an accepted SET_STREAM_POLICY sets, clamped against S (R139). -/
def clampPolicy (n : Nat) (p : StreamOperands) : StreamPolicy :=
  { bandMin := p.bandMin, bandMax := p.bandMax, restart := clampNat p.restart 1 (n - 2), highMark := clampNat p.highMark 2 (n - 1),
    dwell := clampNat p.dwell 2 50, heavy := clampNat p.heavy 1 63, readBand := p.readBand, readAhead := clampNat p.readAhead 2 n }

/-- At an adoption a kept R, H and RA are clamped again against the new S (R139). -/
def reclampPolicy (n : Nat) (p : StreamPolicy) : StreamPolicy :=
  { p with restart := clampNat p.restart 1 (n - 2), highMark := clampNat p.highMark 2 (n - 1), readAhead := clampNat p.readAhead 2 n }

/-- The policy is not refused (R139). -/
def policyGood (p : StreamOperands) : Bool :=
  decide (p.bandMin ≤ 7) && decide (p.bandMax ≤ 7) && decide (p.readBand ≤ 7) && decide (p.bandMin ≤ p.bandMax)

/-- An accepted policy takes effect (R140). -/
def applyPolicy (p : StreamOperands) (s : State) : State :=
  let pol := clampPolicy ((s.bp.layout.map Layout.s).getD 8) p
  let s := { s with sp.policy := pol, sp.highSet := true }
  if s.he.clean = .required ∨ (pol.bandMin ≤ s.sp.c ∧ s.sp.c ≤ pol.bandMax) then s
  else { s with sp.c := clampNat s.sp.c pol.bandMin pol.bandMax, sp.promo := 0, sp.dwellOn := false, sp.dwellCount := 0 }

/-- SET_STREAM_POLICY judged (R139). What holds "after the command completes" (R140) holds from here on; where the completion must
wait for room in the internal queue that is the model's choice, log entry 34. -/
def judgeSetStreamPolicy (p : StreamOperands) (s : State) : State :=
  if policyGood p then completeWith .write .ok (applyPolicy p s) else completeWith .write .refusedOperand s

end Sys2Proof.Machine
end

