-- ==== Sys2Proof/Machine/Segments.lean ====
section
/-! DEFINITION. The Segment Manager and what ends a write session (Chapters 5 and 6): slots and the free list, the seal,
the session's errors, close and abort, the waiting FLUSH and WRITE_CLOSE, and the restart causes. -/

namespace Sys2Proof.Machine

/-! ### Slots (R108, R109) -/

/-- 32 frames UNWRITTEN at write count 0 (R109). -/
def freshFrames : List FrameEntry := List.replicate 32 { st := .unwritten, count := 0 }

/-- A slot as taken into a state with a segment number (R109, R146). -/
def freshSlot (st : SlotState) (seg : Nat) : Slot :=
  { st := st, seg := seg, placement := 1, rewrites := 0, f0 := none, frames := freshFrames, held := List.replicate 32 false,
    stamp := none, retry := 0, leadIn := none, frameEnd := none }

/-- The entry of a slot. -/
def slotAt (s : State) (k : Nat) : Slot := s.sm.slots.getD k (freshSlot .free 0)

/-- Replace the entry of a slot that is in use by one in use: a slot leaves FREE by `takeFree` alone, and enters it by `freeSlot` alone
(R108). -/
def setSlot (k : Nat) (v : Slot) (s : State) : State :=
  { s with sm.slots := if (slotAt s k).st = .free ∨ v.st = .free then s.sm.slots else s.sm.slots.set k v }

/-- Insert a slot number by its segment number. -/
def insertBySeg (s : State) (k : Nat) : List Nat → List Nat
  | [] => [k]
  | j :: rest => if (slotAt s k).seg < (slotAt s j).seg then k :: j :: rest else j :: insertBySeg s k rest

/-- Slots in ascending segment number. -/
def bySeg (s : State) (ks : List Nat) : List Nat := ks.foldr (insertBySeg s) []

/-- The slots in states that satisfy `f`, in ascending segment number. -/
def slotsIn (f : SlotState → Bool) (s : State) : List Nat :=
  bySeg s ((List.range s.sm.slots.length).filter (fun k => f (slotAt s k).st))

def isSealed (x : SlotState) : Bool := decide (x = .sealed)
def isSealing (x : SlotState) : Bool := decide (x = .sealing)
def isOnTape (x : SlotState) : Bool := decide (x = .onTape)
def isWriteBusy (x : SlotState) : Bool := isSealed x || isSealing x || isOnTape x
def isFilling (x : SlotState) : Bool := decide (x = .filling)
def isFetching (x : SlotState) : Bool := decide (x = .fetching)
def isReadSide (x : SlotState) : Bool := isFetching x || decide (x = .rebuilding) || decide (x = .decoded) || decide (x = .draining)

/-- A slot freed joins the tail of the free list (R108); one that is FREE stands in it already. -/
def freeSlot (k : Nat) (s : State) : State :=
  let already := decide ((slotAt s k).st = .free)
  { s with sm.slots := if already then s.sm.slots else s.sm.slots.set k (freshSlot .free 0),
           sm.free := if already then s.sm.free else s.sm.free ++ [k] }

/-- Free several slots in the order given. -/
def freeSlots : List Nat → State → State
  | [], s => s
  | k :: ks, s => freeSlots ks (freeSlot k s)

/-- Take the head of the free list into a state with a segment number. -/
def takeFree (st : SlotState) (seg : Nat) (s : State) : Option (Nat × State) :=
  match s.sm.free with
  | [] => none
  | k :: rest => some (k, { s with sm.slots := s.sm.slots.set k (freshSlot st seg), sm.free := rest })

/-! ### The seal (R100) -/

/-- Write entry `j` of a slot. -/
def writeEntry (k j : Nat) (bs : List Byte) (s : State) : State := issueWrite .internal (slotBase s k + entryAt j) bs .plain s

/-- The bytes of a fragment's entry. -/
def fragmentBytes (f : Fragment) (last incomplete : Bool) : List Byte :=
  entryBytes f.num false f.first last f.reset incomplete f.raw f.stored

/-- FILEMARK entries among the first `n` of a slot. -/
def filemarksIn (s : State) (k n : Nat) : Nat := ((List.range n).filter (fun j => decide ((slotEntry s k j).kind = 2))).length

/-- The part reads frames 0 to 27 of the slot that parity now serves (R110). -/
def serveParity (s : State) : State :=
  match s.sm.parity with
  | [] => s
  | k :: _ => issueRead .internal (slotBase s k) (28 * Config.frameBytes) .parityRead { s with sm.parityGot := none }

/-- A slot enters SEALING and joins the parity work (R100, R110). -/
def joinParity (k : Nat) (s : State) : State :=
  let idle := s.sm.parity.isEmpty
  let s := setSlot k { slotAt s k with st := .sealing } s
  let s := { s with sm.parity := s.sm.parity ++ [k] }
  if idle then serveParity s else s

/-- The parity work stops (R126). -/
def stopParity (s : State) : State := forgetAll .parityRead { s with sm.parity := [], sm.parityGot := none, sm.orphans := [] }

/-- The open fragment is written into its entry without LAST, and is closed in this slot (R99 step 1, R100 step 2). -/
def closeFragment (k : Nat) (s : State) : State :=
  match s.ri.frag with
  | none => s
  | some f => writeEntry k (s.ri.e - 1) (fragmentBytes f false false) { s with ri.frag := none }

/-- Seal the FILLING slot: zeros, the open fragment, the trailer, for which the entries are read; the slot enters SEALING and joins the
parity work (R100, R110). A slot that holds no entries is left as it is. -/
def sealSlot (s : State) : State :=
  match s.ri.filling with
  | none => s
  | some k =>
    if s.ri.e = 0 then s
    else
      let e := s.ri.e
      let s := issueWrite .internal (slotBase s k + s.ri.u) (List.replicate (Config.trailerAt - 16 * e - s.ri.u) 0) .plain s
      let s := closeFragment k s
      let t := trailerBytes (slotAt s k).seg (slotEntry s k 0).num e s.ri.u (filemarksIn s k e)
      let s := consultSlot k (entryAt (e - 1)) (16 * e) s
      let s := issueWrite .internal (slotBase s k + Config.trailerAt) t .plain s
      joinParity k { s with ri.filling := none, ri.u := 0, ri.e := 0, ri.frag := none }

/-- Return a FILLING slot that holds no entries to the tail of the free list (R100, R105). -/
def freeEmptyFilling (s : State) : State :=
  match s.ri.filling with
  | none => s
  | some k => if s.ri.e = 0 then freeSlot k { s with ri.filling := none, ri.u := 0, ri.frag := none } else s

/-! ### The staging watch ends (R75) -/

/-- The frontier (R75). -/
def frontier (s : State) : Nat :=
  match s.bp.layout with
  | none => 0
  | some l => if l.z = 0 then 0 else (s.bp.release + s.bp.rl) % l.z

/-- The watch becomes inactive: Rl 0 with the release point at the frontier, no spans (R75). The held write is forwarded
where the writes waiting at the front port are taken again. -/
def stopWatch (s : State) : State := { s with bp.watch := false, bp.release := frontier s, bp.rl := 0, bp.spans := [] }

/-! ### Intake ends (R106) -/

/-- Drop the chunk in progress and stand in IDLE. -/
def stopIntake (s : State) : State :=
  forgetAll .chunkFetch
    { s with ri.st := .idle, ri.item := none, ri.raw := [], ri.hdr := [], ri.chunkBuf := [], ri.cur := none, ri.sealReq := false,
             ri.padOwed := 0, ri.fetched := none, ri.marker := none, ri.refetched := [] }

/-! ### Session errors (R127) -/

/-- The notice SESSION_ERROR (R105, R127). -/
def postSessionError (st : Status) (s : State) : State :=
  postNotice .sessionError ([byteOf st.code] ++ leBytes 4 s.ri.lastComplete) (noteStatus st s)

/-- One ON_TAPE slot returns to SEALED (R127). -/
def backToSealed (k : Nat) (s : State) : State := setSlot k { freshSlot .sealed (slotAt s k).seg with st := .sealed } s

/-- Slots return to SEALED one by one. -/
def allBackToSealed : List Nat → State → State
  | [], s => s
  | k :: ks, s => allBackToSealed ks (backToSealed k s)

/-- The writer holds no frame: queues empty, transmission cut off, nothing held (R114, R127). -/
def dropWriter (s : State) : State :=
  { s with wr.verifyQ := [], wr.rewriteQ := [], wr.tx := none, wr.heldF0 := none, wr.turnWait := false, wr.skipStart := none, wr.abandon := none,
           mo.bandTo := none }

/-- What is still ON_TAPE of a session that WRITE_CLOSE has closed with END_OF_TAPE returns to SEALED when the motion is lost,
and is freed as R125 frees it. The model's choice, log entry 37. -/
def dropOnTape (s : State) : State :=
  let ks := slotsIn isOnTape s
  if ks.isEmpty then s else freeSlots ks (dropWriter s)

/-- The session enters ERROR with WRITE_ERROR, END_OF_TAPE or MOTION_FAULT (R84, R106, R127). -/
def sessionError (st : Status) (s : State) : State :=
  if s.ri.session = .closed then dropOnTape s
  else
    let s := stopWatch (stopIntake { s with ri.session := .error, ri.err := some st })
    let s := freeEmptyFilling (sealSlot s)
    let s := if st = .endOfTape then { s with wr.eot := true, wr.turnWait := false, wr.heldF0 := none, mo.bandTo := none }
      else allBackToSealed (slotsIn isOnTape s) (dropWriter s)
    postSessionError st s

/-- The session is in ERROR with OVERRUN or FORMAT_ERROR: the writer carries on as in OPEN (R127). -/
def softError (s : State) : Bool :=
  decide (s.ri.session = .error) && (decide (s.ri.err = some .overrun) || decide (s.ri.err = some .formatError))

/-- The writer takes SEALED segments: in OPEN and CLOSING, and in ERROR with OVERRUN or FORMAT_ERROR (R127). -/
def writerLive (s : State) : Bool := decide (s.ri.session = .opened) || decide (s.ri.session = .closing) || softError s

/-! ### The session closes (R84, R125, R126) -/

/-- The session enters CLOSED: the watch ends, the interval timer stops, the logical position becomes the first record
number at EOD (R75, R84, R129). -/
def closeSession (s : State) : State :=
  let s := stopSpeed (stopWatch (stopIntake s))
  { s with ri.session := .closed, ri.err := none, ri.filling := none, ri.u := 0, ri.e := 0, ri.frag := none, ri.resetOwed := false,
           wr.eot := s.wr.eot && !(slotsIn isOnTape s).isEmpty, wr.flush := none, wr.close := false, mo.resume := none, mo.lp := some (eodRec s), rd.start := none }

/-- The writer's end is STOP (R112, R125): at rest in WAIT_DATA the transport enters READY; in the streaming modes the next
declined slot ends the run-out. -/
def endWriter (s : State) : State :=
  if s.ch.transport = .active then
    if s.mo.mode = some .waitData then toReady { s with wr.pendingEnd := .none } else { s with wr.pendingEnd := .stop }
  else s

/-- The EOD segment number, 0 when EOD is absent. -/
def eodSeg (s : State) : Nat := (s.cart.eod.map Eod.seg).getD 0

/-- No slot is SEALING, SEALED or ON_TAPE. -/
def nothingToWrite (s : State) : Bool := (slotsIn isWriteBusy s).isEmpty

/-- Check an outstanding FLUSH (R124). In ERROR with OVERRUN or FORMAT_ERROR its target is the next segment number as it stood when the
FLUSH was taken or the session entered ERROR. -/
def checkFlush (s : State) : State :=
  match s.wr.flush with
  | none => s
  | some t =>
    match s.ri.session, s.ri.err with
    | .error, some st =>
      if softError s = false ∨ t.getD s.ri.nextSeg ≤ eodSeg s ∨ (nothingToWrite s = true ∧ s.ri.st ≠ .stopping) then
        complete .write st 0 (.recordNumber s.ri.lastComplete) { s with wr.flush := none }
      else s
    | _, _ =>
      match t with
      | none => s
      | some target =>
        if target ≤ eodSeg s then complete .write .ok 0 (.recordNumber ((eodRec s + max32) % two32)) { s with wr.flush := none }
        else s

/-- Check an outstanding WRITE_CLOSE (R125). In ERROR with WRITE_ERROR, END_OF_TAPE or MOTION_FAULT the SEALED slots are freed; a
slot still SEALING goes on through its parity and is then freed, and a segment still ON_TAPE is written on until the STOP end
(R127), which is the model's choice, log entry 37. -/
def checkClose (s : State) : State :=
  if s.wr.close then
    match s.ri.session, s.ri.err with
    | .closing, _ =>
      if s.ri.st = .idle ∧ nothingToWrite s = true ∧ (s.ri.filling = none ∨ s.ri.e = 0) then
        let s := closeSession (freeEmptyFilling s)
        endWriter (complete .write .ok 0 (.recordNumber (eodRec s)) s)
      else s
    | .error, some st =>
      if softError s then
        if nothingToWrite s = true ∧ s.ri.st ≠ .stopping then
          let last := s.ri.lastComplete
          endWriter (complete .write st 0 (.recordNumber last) (closeSession s))
        else s
      else
        let last := s.ri.lastComplete
        let s := freeSlots (slotsIn isSealed s) { s with sm.orphans := slotsIn isSealing s }
        endWriter (complete .write st 0 (.recordNumber last) (closeSession s))
    | _, _ => s
  else s

/-- A running FLUSH or WRITE_CLOSE completes ABORTED (R123). -/
def abortWaiting (s : State) : State :=
  match runningOp .write s with
  | some .flush | some .writeClose =>
    completeWith .write .aborted { s with wr.flush := none, wr.close := false, ci.deferred := s.ci.deferred.filter (fun j => decide (j ≠ .write)) }
  | _ => s

/-- The session's end by WRITE_ABORT or forced unload, but for the motion: intake ends, the writer drops its frames, the
slots are freed in ascending segment number with the FILLING slot last, the session is CLOSED (R106, R126). -/
def abortSession (s : State) : State :=
  let s := dropWriter (stopParity { s with wr.pendingEnd := .abort })
  let filling := slotsIn (fun x => decide (x = .filling)) s
  let s := freeSlots (slotsIn isWriteBusy s ++ filling) s
  closeSession s

/-- What a command that ends the operation does to the motion (R66, R126, R159): a recovery ends with it, WAIT_DATA gives
READY, a write stream is left to its next declined slot when `atSlot`, anything else is ramped to rest. `unload`: the unload
begins when the tape is at rest. What a closed session still had ON_TAPE is dropped with the motion (log entry 37). The stop of a failed
recovery goes on (R65; the model's choice, log entry 38). -/
def endMotion (atSlot unload : Bool) (s : State) : State :=
  if atSlot = true ∧ s.ch.transport = .active ∧ s.mo.wait ≠ .failing ∧ (s.mo.mode = some .writeStream ∨ s.mo.mode = some .runout) then s
  else
    let s := { s with wr.pendingEnd := .none }
    let s := if s.ri.session = .closed then dropOnTape s else s
    if s.ch.transport ≠ .active ∨ s.mo.wait = .failing then s
    else
      match s.mo.mode with
      | some .recovery => stopThen (.afterEndedRecovery unload) (endRecovery s)
      | some .waitData => if unload then stopThen .stopThenUnload s else toReady s
      | _ => stopThen (if unload then .stopThenUnload else .toReady) s

/-! ### Restart causes (R96, R122) -/

/-- Record Intake waits for a FREE slot (R96, R105). -/
def intakeWaits (s : State) : Bool :=
  s.ri.filling.isNone &&
    ((decide (s.ri.st = .placing) && s.ri.item.isSome) || (decide (s.ri.st = .stopping) && s.ri.marker.isSome))

/-- A slot still SEALING at an outstanding FLUSH: one of those that its target covers, all of them while intake has not answered
(R122, R124). -/
def sealingAtFlush (s : State) : Bool :=
  match s.wr.flush with
  | none => false
  | some t => (slotsIn isSealing s).any (fun k => (t.map (fun n => decide ((slotAt s k).seg < n))).getD true)

/-- The second restart cause (R122): an outstanding FLUSH or WRITE_CLOSE with a slot SEALING, SEALED or ON_TAPE; a FLUSH waits for the
slots that were SEALING at it. -/
def flushCause (s : State) : Bool := !nothingToWrite s && (s.wr.close || (s.wr.flush.isSome && !sealingAtFlush s))

/-- A restart cause holds (R122). -/
def restartCause (s : State) : Bool :=
  let anySealed := !(slotsIn isSealed s).isEmpty
  let anyOnTape := !(slotsIn isOnTape s).isEmpty
  writerLive s &&
    (decide (s.sp.policy.restart ≤ sealedCount s) ||
     flushCause s ||
     (intakeWaits s && (anySealed || anyOnTape)) ||
     (softError s && anySealed))

/-- In WAIT_DATA a cause that holds restarts the writer (R54, R122). -/
def checkRestart (s : State) : State :=
  if s.ch.transport = .active ∧ s.mo.mode = some .waitData ∧ restartCause s = true then restart s else s

/-- Slot exhaustion wakes a PARKED transport, and so does an outstanding FLUSH or WRITE_CLOSE whose restart cause is met there
(R38, R39, R96). -/
def checkExhaustion (s : State) : State :=
  if s.ch.transport = .parked ∧ ((intakeWaits s = true ∧ s.sm.free.isEmpty = true) ∨ (writerLive s = true ∧ flushCause s = true)) then wake s else s

end Sys2Proof.Machine
end

