-- ==== Sys2Proof/Machine/Intake.lean ====
section
/-! DEFINITION. Record Intake (Chapter 5): the taking of bytes at the cursor, headers, chunks, placement, misfits, and the stop
for OVERRUN or FORMAT_ERROR. -/

namespace Sys2Proof.Machine

/-- The ring size Z. -/
def ringZ (s : State) : Nat := (s.bp.layout.map Layout.z).getD 0

/-- Forward distance round a ring. -/
def ringDist (z from_ to_ : Nat) : Nat := if z = 0 then 0 else (to_ + z - from_ % z) % z

/-- Bytes written at and after the cursor: from the cursor to the frontier (R89). -/
def available (s : State) : Nat := s.bp.rl - ringDist (ringZ s) s.bp.release s.ri.cursor

/-- Advance the cursor (R90). -/
def advanceCursor (n : Nat) (s : State) : State :=
  { s with ri.cursor := if ringZ s = 0 then 0 else (s.ri.cursor + n) % ringZ s }

/-- Release bytes: never more than Rl (R79). -/
def releaseBytes (n : Nat) (s : State) : State :=
  let k := min n s.bp.rl
  { s with bp.release := if ringZ s = 0 then 0 else (s.bp.release + k) % ringZ s, bp.rl := s.bp.rl - k }

/-- Advance over and release the pad after a record's data, as far as it has arrived; the rest is owed (R88). -/
def takePad (n : Nat) (s : State) : State :=
  let k := min n (available s)
  releaseBytes k (advanceCursor k { s with ri.padOwed := n - k })

/-- The pad of a record of length L (R88). -/
def padOf (l : Nat) : Nat := (16 - l % 16) % 16

/-- Raw length of the chunk in progress (R91). -/
def chunkLen (c : RecordInProgress) : Nat := min Config.chunkBytes (c.len - c.placed)

/-! ### The stop (R105) -/

/-- Place the INCOMPLETE marker of a record whose last fragment is sealed, into a FILLING slot (R105 step 2). -/
def placeMarker (num : Nat) (s : State) : State :=
  match s.ri.filling with
  | none => s
  | some k =>
    let s := writeEntry k s.ri.e (entryBytes num false false true s.ri.resetOwed true 0 0) s
    { s with ri.e := s.ri.e + 1, ri.resetOwed := false }

/-- After the marking: seal or free the slot; intake stands in IDLE (R105 steps 3 and 5). -/
def finishStop (s : State) : State :=
  let s := freeEmptyFilling (sealSlot s)
  { s with ri.st := .idle, ri.marker := none }

/-- Take a FREE slot into FILLING with the next segment number (R96); at most one slot is FILLING (R108). The history is reset; a chunk
that waits with its body made, which was compressed from an empty history, leaves in it its own raw bytes alone. -/
def takeSlot (s : State) : Option State :=
  match if s.sm.slots.any (fun x => isFilling x.st) then none else takeFree .filling s.ri.nextSeg s with
  | none => none
  | some (k, s) =>
    let hist := match s.ri.item with
      | some (.chunk _ body _) => if body = 0 then [] else s.ri.history
      | _ => []
    some { s with ri.filling := some k, ri.u := 0, ri.e := 0, ri.frag := none, ri.nextSeg := inc32 s.ri.nextSeg, ri.history := hist }

/-- The record in progress is marked and the FILLING slot sealed or freed (R105 steps 2, 3 and 5). -/
def markRecord (cur : Option RecordInProgress) (s : State) : State :=
  match cur with
  | none => finishStop s
  | some c =>
    if c.placed = 0 then finishStop s
    else
      match s.ri.filling, s.ri.frag with
      | some k, some f =>
        let s := writeEntry k (s.ri.e - 1) (fragmentBytes f true true) s
        finishStop { s with ri.frag := none }
      | some _, none => finishStop (placeMarker c.num s)
      | none, _ =>
        match takeSlot s with
        | some s => finishStop (placeMarker c.num s)
        | none => { s with ri.st := .stopping, ri.marker := some c.num }

/-- Intake is stopped with OVERRUN or FORMAT_ERROR (R105). An outstanding FLUSH is from then on one taken in ERROR, with the next segment
number as its target (R124). SESSION_ERROR is posted at once, also where the marking waits for a slot in STOPPING: the model's choice,
log entry 42. In WAIT_DATA with no slot SEALING, SEALED or ON_TAPE the transport stays there until WRITE_CLOSE, WRITE_ABORT or the dwell:
the model's choice where R127 gives the writer's end as STOP, log entry 37. -/
def stopSession (st : Status) (s : State) : State :=
  let cur := s.ri.cur
  let s := stopWatch (stopIntake { s with ri.session := .error, ri.err := some st })
  let s := markRecord cur (postSessionError st s)
  { s with wr.flush := s.wr.flush.map (fun _ => some s.ri.nextSeg) }

/-! ### Placement (R96 to R99) -/

/-- The fit test of R97 for a stored length. -/
def chunkFits (u e stored : Nat) (newEntry : Bool) : Bool :=
  let e' := if newEntry then e + 1 else e
  decide (u + stored + 16 * e' ≤ Config.trailerAt) && decide (e' ≤ 1024)

/-- Place a filemark entry in the FILLING slot (R98). -/
def placeFilemark (k : Nat) (s : State) : State :=
  let s := writeEntry k s.ri.e (entryBytes s.ri.nextRec true true true s.ri.resetOwed false 0 0) s
  let s := releaseBytes 16 { s with ri.e := s.ri.e + 1, ri.resetOwed := false, ri.history := [], ri.item := none, ri.hdr := [],
                                    ri.lastComplete := s.ri.nextRec, ri.nextRec := inc32 s.ri.nextRec }
  { s with ri.st := if s.ri.session = .closing then .idle else .header }

/-- Issue the reads of `n` bytes of the staging ring from an offset, round its end (R99). -/
def readStaging (off n : Nat) (what : Purpose) (s : State) : State :=
  match s.bp.layout with
  | none => s
  | some l =>
    let k := min n (l.z - off)
    issueRead .internal l.stBase (n - k) what (issueRead .internal (l.stBase + off) k what s)

/-- The raw bytes of the chunk that waits, those that end at the cursor, are fetched from staging, where they are still retained (R95,
R99). -/
def fetchChunk (raw : Nat) (s : State) : State :=
  readStaging (ringDist (ringZ s) raw s.ri.cursor) raw .chunkFetch { s with ri.refetched := [] }

/-- A chunk that could not go where it was compressed for has its new slot: the history is empty, and its raw bytes are fetched from
staging again (R99 steps 4 and 5). -/
def startRecompress (raw : Nat) (s : State) : State :=
  fetchChunk raw { s with ri.st := .recompress, ri.history := [], ri.chunkBuf := [] }

/-- A chunk fits the FILLING slot: a RAW body is copied into it from staging, a COMPRESSED body stands in the chunk buffer (R97 step 2);
CHUNK_PLACED comes when the last write of it is issued. -/
def startPlacement (raw : Nat) (compressed : Bool) (s : State) : State := if compressed then s else fetchChunk raw s

/-- Judge what waits in PLACING: take a slot where there is none, place a filemark, begin a chunk that fits, find a misfit, at which the
open fragment's entry is written before the seal (R99). A waiting chunk with no body is one that a misfit left to be compressed again. -/
def tryPlace (s : State) : State :=
  match s.ri.item with
  | none => s
  | some .filemark =>
    match s.ri.filling with
    | some k =>
      if decide (s.ri.e + 1 ≤ 1024) && decide (s.ri.u + 16 * (s.ri.e + 1) ≤ Config.trailerAt) then placeFilemark k s
      else
        match takeSlot (sealSlot s) with
        | some s => match s.ri.filling with
          | some k => placeFilemark k s
          | none => s
        | none => sealSlot s
    | none =>
      match takeSlot s with
      | some s => match s.ri.filling with
        | some k => placeFilemark k s
        | none => s
      | none => s
  | some (.chunk raw body comp) =>
    match s.ri.filling with
    | some k =>
      if chunkFits s.ri.u s.ri.e (4 + body) s.ri.frag.isNone then startPlacement raw comp s
      else
        let s := sealSlot (closeFragment k { s with ri.item := some (.chunk raw 0 comp), ri.sealReq := false })
        match takeSlot s with
        | some s => startRecompress raw s
        | none => s
    | none =>
      match takeSlot s with
      | some s => if body = 0 then startRecompress raw s else startPlacement raw comp s
      | none => s

/-- A chunk's last raw byte has been consumed: compress it, enter PLACING (R90, R95). -/
def finishChunk (s : State) : State :=
  let b := chunkBody s.ri.compress s.ri.history s.ri.raw
  tryPlace { s with ri.item := some (.chunk s.ri.raw.length b.1.length b.2), ri.chunkBuf := if b.2 then b.1 else [],
                    ri.history := growHistory s.ri.history s.ri.raw, ri.st := .placing, ri.raw := [] }

/-- A chunk begins: the history is empty where the chunk will be the first of a slot or carries the owed RESET (R92). -/
def startChunk (s : State) : State :=
  { s with ri.st := .data, ri.raw := [], ri.history := if s.ri.filling.isNone || s.ri.resetOwed then [] else s.ri.history }

/-- A header of 16 bytes is parsed (R87). -/
def parseHeader (s : State) : State :=
  let h := s.ri.hdr
  let len := field h 0 4
  let kind := field h 4 1
  if field h 8 2 ≠ s.ri.nextRec % 65536 then stopSession .formatError s
  else if kind ≠ 1 ∧ kind ≠ 2 then stopSession .formatError s
  else if kind = 1 ∧ (len = 0 ∨ 16777216 < len) then stopSession .formatError s
  else if kind = 2 ∧ len ≠ 0 then stopSession .formatError s
  else if kind = 1 then startChunk { s with ri.cur := some { num := s.ri.nextRec, len := len, placed := 0 }, ri.hdr := [] }
  else tryPlace { s with ri.st := .placing, ri.item := some .filemark, ri.hdr := [] }

/-- Consume bytes at the cursor for as long as the state allows (R90): pad still owed, header bytes, chunk bytes. -/
def consume : Nat → List Byte → State → State
  | 0, _, s => s
  | fuel + 1, bs, s =>
    if bs.isEmpty then s
    else
      match s.ri.st with
      | .header =>
        if 0 < s.ri.padOwed then
          let k := min s.ri.padOwed bs.length
          consume fuel (bs.drop k) (releaseBytes k (advanceCursor k { s with ri.padOwed := s.ri.padOwed - k }))
        else
          let k := min (16 - s.ri.hdr.length) bs.length
          let s := advanceCursor k { s with ri.hdr := s.ri.hdr ++ bs.take k }
          consume fuel (bs.drop k) (if s.ri.hdr.length = 16 then parseHeader s else s)
      | .data =>
        match s.ri.cur with
        | none => s
        | some c =>
          let k := min (chunkLen c - s.ri.raw.length) bs.length
          let s := advanceCursor k { s with ri.raw := s.ri.raw ++ bs.take k }
          if s.ri.raw.length = chunkLen c then finishChunk s else consume fuel (bs.drop k) s
      | _ => s

/-- Intake takes bytes at the cursor (R89). -/
def takesBytes (s : State) : Bool := decide (s.ri.st = .header) || decide (s.ri.st = .data)

/-- The cursor stands behind the frontier and intake takes bytes: a fetch of the line at the cursor is issued (R90). -/
def startFetch (s : State) : State :=
  match s.bp.layout with
  | none => s
  | some l =>
    if takesBytes s ∧ s.bp.watch = true ∧ s.ri.fetch = none ∧ s.ri.fetched = none ∧ 0 < available s then
      let n := min (available s) (Config.lineBytes - s.ri.cursor % Config.lineBytes)
      issueRead .internal (l.stBase + s.ri.cursor) n .stagingFetch { s with ri.fetch := some s.ri.cursor }
    else s

/-- The stored length joins the interval sum (R129). -/
def countPlaced (n : Nat) (s : State) : State := if s.sp.timer then { s with sp.sum := satAdd32 s.sp.sum n } else s

/-- The bytes of the body that waits in PLACING: the chunk buffer's, or those copied from staging (R95, R97). -/
def waitingBody (compressed : Bool) (s : State) : List Byte := if compressed then s.ri.chunkBuf else s.ri.refetched

/-- The last write of a chunk of `raw` bytes has been issued: the chunk is placed (R97). -/
def placeChunk (k : Nat) (c : RecordInProgress) (raw : Nat) (comp : Bool) (s : State) : State :=
  let body := waitingBody comp s
  let stored := 4 + body.length
  let isNew := s.ri.frag.isNone
  let f : Fragment := s.ri.frag.getD { num := c.num, first := decide (c.placed = 0), reset := s.ri.resetOwed, raw := 0, stored := 0 }
  let f := { f with raw := f.raw + raw, stored := f.stored + stored }
  let s := issueWrite .internal (slotBase s k + s.ri.u) (chunkHeader comp body.length ++ body) .plain s
  let s := { s with ri.e := if isNew then s.ri.e + 1 else s.ri.e, ri.resetOwed := if isNew then false else s.ri.resetOwed,
                    ri.u := s.ri.u + stored, ri.frag := some f, ri.item := none, ri.chunkBuf := [], ri.refetched := [] }
  let s := releaseBytes (raw + if c.placed = 0 then 16 else 0) s
  let s := countPlaced stored s
  if c.placed + raw = c.len then
    let s := writeEntry k (s.ri.e - 1) (fragmentBytes f true false) s
    let s := takePad (padOf c.len) { s with ri.frag := none, ri.cur := none, ri.lastComplete := c.num, ri.nextRec := inc32 s.ri.nextRec }
    { s with ri.st := if s.ri.session = .closing then .idle else .header }
  else startChunk { s with ri.cur := some { c with placed := c.placed + raw } }

/-- The chunk in progress is abandoned for a seal and is compressed afresh in the next slot from its first byte, which waits in
PLACING where no slot is FREE (R100, R99 steps 3 to 6). -/
def restartChunk (s : State) : State :=
  let raw := s.ri.raw.length
  let s := { sealSlot s with ri.item := some (.chunk raw 0 false), ri.raw := [], ri.st := .placing }
  match takeSlot s with
  | some s => startRecompress raw s
  | none => s

/-- The seal asked for by FLUSH or WRITE_CLOSE, by the state of intake (R100): true when intake has answered. -/
def requestSeal (s : State) : State × Bool :=
  match s.ri.st with
  | .header | .idle => (sealSlot s, true)
  | .data => if s.ri.filling.isSome && decide (0 < s.ri.e) then (restartChunk s, true) else (s, true)
  | .placing => if s.ri.filling.isSome && s.ri.item.isSome then ({ s with ri.sealReq := true }, false) else (s, true)
  | .recompress | .stopping => (s, true)

/-- The flush target once intake has answered (R124). -/
def flushTarget (s : State) : Nat :=
  match s.ri.filling with
  | some k => if s.ri.e = 0 then (slotAt s k).seg else s.ri.nextSeg
  | none => s.ri.nextSeg

/-! ### FLUSH and WRITE_CLOSE (R100, R104, R123 to R125) -/

/-- In CLOSING, intake in IDLE makes the seal asked for by WRITE_CLOSE (R104). -/
def sealWhenIdle (s : State) : State := if s.ri.session = .closing ∧ s.ri.st = .idle then sealSlot s else s

/-- A FLUSH or WRITE_CLOSE that stays outstanding in PARKED wakes the transport (R38, R124). -/
def wakeForData (s : State) : State :=
  if s.ch.transport = .parked ∧ (s.wr.flush.isSome = true ∨ s.wr.close = true) then wake s else s

/-- FLUSH judged (R123, R124). -/
def judgeFlush (s : State) : State :=
  match s.ri.session with
  | .closed => refuse .write .noSession s
  | .error => wakeForData (checkFlush { s with wr.flush := some (some s.ri.nextSeg) })
  | .opened | .closing =>
    let r := requestSeal s
    let target := if r.2 then some (flushTarget r.1) else none
    wakeForData (checkFlush { r.1 with wr.flush := some target })

/-- WRITE_CLOSE in OPEN: CLOSING, with no further header (R104). -/
def enterClosing (s : State) : State :=
  let s := { s with ri.session := .closing }
  sealWhenIdle (if s.ri.st = .header then { s with ri.st := .idle, ri.hdr := [] } else s)

/-- WRITE_CLOSE judged (R123, R125). -/
def judgeWriteClose (s : State) : State :=
  match s.ri.session with
  | .closed => refuse .write .noSession s
  | .opened => wakeForData (checkClose { enterClosing s with wr.close := true })
  | .closing | .error => wakeForData (checkClose { s with wr.close := true })

end Sys2Proof.Machine
end

