-- ==== Sys2Proof/Machine/Front.lean ====
section
/-! DEFINITION. The Buffer Path at the front port and the memory port (Chapter 4): recognition, the staging watch, the held
write, the delivery watch, the arbiter's grant; with the sequence and consumer words (R178, R187). -/

namespace Sys2Proof.Machine

/-! ### What a recognised write does -/

/-- Start a binding, or set the rebind request while one is in progress (R70). -/
def bindingWord (s : State) : State :=
  if s.bp.binding then { s with bp.rebind := true }
  else issueRead .internal 0 256 .anchor { s with bp.binding := true, bp.anchor := none }

/-- Post SEQUENCE_BREAK: slot number, value, expected sequence (R179). -/
def sequenceBreak (value : Nat) (s : State) : State :=
  postNotice .sequenceBreak (leBytes 2 s.ci.index ++ leBytes 2 value ++ leBytes 2 s.ci.expected) s

/-- A judged sequence-word write (R178, R179). -/
def sequenceWord (slot value : Nat) (s : State) : State :=
  if s.ci.state = .waiting ∧ slot = s.ci.index then
    if value = s.ci.expected then readSlot .slot s else sequenceBreak value s
  else s

/-- A consumer value (R187). -/
def consumerWord (n w : Nat) (s : State) : State :=
  let w' := w % n
  let q := ringCount n s.cq.p s.cq.c
  setService { s with cq.c := if ringCount n w' s.cq.c ≤ q then w' else s.cq.p }

/-! ### The staging watch (R76, R77) -/

/-- What the watch decides of a staging write. -/
inductive Verdict where
  | hold
  | advance
  | ahead (spans : List Span)
deriving DecidableEq, Repr

/-- A span as distances from the frontier. -/
def spanFrom (z f : Nat) (x : Span) : Nat × Nat :=
  let a := ringDist z f x.start
  (a, a + ringDist z x.start x.stop)

/-- Merge a run into a list of runs ordered by distance, no two of which touch (R77). -/
def mergeRun (a b : Nat) : List (Nat × Nat) → List (Nat × Nat)
  | [] => [(a, b)]
  | (c, d) :: rest =>
    if b < c then (a, b) :: (c, d) :: rest
    else if d < a then (c, d) :: mergeRun a b rest
    else mergeRun (min a c) (max b d) rest

/-- Spans from distances. -/
def toSpans (z f : Nat) (runs : List (Nat × Nat)) : List Span :=
  runs.map (fun r => { start := (f + r.1) % z, stop := (f + r.2) % z })

/-- Judge a staging write of `n` bytes at ring offset `o` (R76, R77). -/
def judgeStaging (z : Nat) (s : State) (o n : Nat) : Verdict :=
  let f := frontier s
  let d := ringDist z f o
  if z - s.bp.rl < d + n then .hold
  else if d = 0 then .advance
  else
    let runs := s.bp.spans.map (spanFrom z f)
    let touches := runs.any (fun r => decide (r.1 ≤ d + n) && decide (d ≤ r.2))
    if touches = false ∧ 8 ≤ runs.length then .hold else .ahead (toSpans z f (mergeRun d (d + n) runs))

/-- Absorb the spans that the advanced frontier reaches; answers how far it has advanced and the spans left (R76). -/
def absorb (adv : Nat) : List (Nat × Nat) → Nat × List (Nat × Nat)
  | [] => (adv, [])
  | (a, b) :: rest => if a ≤ adv then absorb (max adv b) rest else (adv, (a, b) :: rest)

/-- The frontier advances by a write of `data`: the spans absorbed, DATA offered, the bytes handed to intake when they
begin at the cursor (R76, R90). -/
def advanceFrontier (z : Nat) (data : List Byte) (s : State) : State :=
  let f := frontier s
  let atCursor := decide (available s = 0) && takesBytes s
  let r := absorb data.length (s.bp.spans.map (spanFrom z f))
  let s := { s with bp.rl := min z (s.bp.rl + r.1), bp.spans := toSpans z f r.2 }
  let s := offerData s
  if atCursor then consume (data.length + 1) data s else s

/-! ### Front-port writes (R68, R69, R78) -/

/-- The write lies inside a region. -/
def insideRegion (base size addr : Nat) : Bool := decide (base ≤ addr) && decide (addr < base + size)

/-- Forward a write: issue it in the pass-through class with its byte enables, and acknowledge it to its master (R68). -/
def forwardWrite (w : FrontWrite) (s : State) : State :=
  { s with bp.acks := s.bp.acks.add w.master,
           bp.reqs := s.bp.reqs ++ [{ cls := .front, isWrite := true, addr := w.addr, len := w.data.length, data := w.data, got := [], what := .plain }] }

/-- A write enables the byte at an address. -/
def FrontWrite.enables (w : FrontWrite) (a : Nat) : Bool := decide (w.addr ≤ a) && (w.data.getD (a - w.addr) none).isSome

/-- A write enables each of the `n` bytes from an address. -/
def FrontWrite.enablesAll (w : FrontWrite) (a n : Nat) : Bool := (List.range n).all (fun i => w.enables (a + i))

/-- The number that the `n` bytes of a write from an address spell. -/
def FrontWrite.value (w : FrontWrite) (a n : Nat) : Nat := field (w.data.map (·.getD 0)) (a - w.addr) n

/-- The bytes that a run holds when a write of it has been forwarded, as intake takes them in flight (R90): what the write
enables, and elsewhere what the memory holds. -/
def inFlight (s : State) : Nat → List (Option Byte) → List Byte
  | _, [] => []
  | a, some b :: bs => b :: inFlight s (a + 1) bs
  | a, none :: bs => throughByte s.mem s.bp.reqs a :: inFlight s (a + 1) bs

/-- The verdict on a write that falls to the staging watch, none for any other (R69). -/
def stagingVerdict (w : FrontWrite) (s : State) : Option Verdict :=
  match s.bp.layout with
  | none => none
  | some l => if s.bp.watch && insideRegion l.stBase l.z w.addr then some (judgeStaging l.z s (w.addr - l.stBase) w.data.length) else none

/-- Hand a forwarded write to the block that watches it (R69): the binding word when it enables a byte of it, a slot's sequence
word and the consumer word when it enables all of it. -/
def recognise (w : FrontWrite) (s : State) : State :=
  if (List.range 8).any (fun i => w.enables (248 + i)) then bindingWord s
  else
    match s.bp.layout with
    | none => s
    | some l =>
      if insideRegion l.cmdBase (64 * l.k) w.addr then
        let slot := (w.addr - l.cmdBase) / 64
        let at_ := l.cmdBase + 64 * slot + 56
        if w.enablesAll at_ 2 then sequenceWord slot (w.value at_ 2) s else s
      else if w.enablesAll l.consumer 4 then consumerWord l.n (w.value l.consumer 4) s
      else s

/-- Take a write at the front port: hold it, or forward it and hand it on (R68, R76). -/
def takeWrite (w : FrontWrite) (s : State) : State :=
  match stagingVerdict w s with
  | some .hold => { s with bp.held := some w }
  | some .advance => advanceFrontier ((s.bp.layout.map Layout.z).getD 0) (inFlight s w.addr w.data) (forwardWrite w s)
  | some (.ahead spans) => forwardWrite w { s with bp.spans := spans }
  | none => recognise w (forwardWrite w s)

/-- The writes waiting behind a held write are taken in order until one is held (R68, R78). -/
def takeBehind : List FrontWrite → State → State
  | [], s => s
  | w :: ws, s => if s.bp.held.isSome then { s with bp.behind := w :: ws } else takeBehind ws (takeWrite w s)

/-- Forward the held write as it stands and take the writes behind it (R68, R75, R78). -/
def releaseHeld (w : FrontWrite) (s : State) : State :=
  let ws := s.bp.behind
  takeBehind ws (takeWrite w { s with bp.held := none, bp.behind := [] })

/-- Judge the held write again (R75, R78). -/
def rejudgeHeld (s : State) : State :=
  match s.bp.held with
  | none => s
  | some w => if stagingVerdict w s = some .hold then s else releaseHeld w s

/-- Commands that wait for a recovery to return (R66). -/
def waitsForRecovery : FwOp → Bool
  | .flush | .writeClose | .setStreamPolicy _ | .setPowerPolicy _ _ => true
  | _ => false

/-- Commands that leave the park dwell alone (R39). -/
def keepsDwell : FwOp → Bool
  | .park | .setPowerPolicy _ _ => true
  | o => decide (fwJob o = .health) || decide (fwJob o = .link)

/-- The command is now running and about to be judged; it cancels the dwell where R39 says so. -/
def startRunning (c : FwCmd) (s : State) : State :=
  let j := fwJob c.op
  let s := s.setJob j { s.job j with running := some (.cmd c), judged := true }
  if keepsDwell c.op then s else cancelDwell j s

/-- Judge the command of a job that has waited for a recovery (R66). -/
def judgeLate (s : State) (j : JobId) : State :=
  match (s.job j).running with
  | some (.cmd c) =>
    if (s.job j).judged then s
    else match c.op with
      | .flush => judgeFlush (startRunning c s)
      | .writeClose => judgeWriteClose (startRunning c s)
      | .setStreamPolicy p => judgeSetStreamPolicy p (startRunning c s)
      | .setPowerPolicy e d => judgeSetPowerPolicy e d (startRunning c s)
      | _ => s
  | _ => s

/-- With no recovery under way, the commands that have waited for one are judged, in the order they came (R66). -/
def judgeDeferred (s : State) : State :=
  if s.mo.mask ∨ s.ci.deferred = [] then s else s.ci.deferred.foldl judgeLate { s with ci.deferred := [] }

/-- After a step that may have changed the watch, intake, the slots, the session or the recovery: waiting commands, the held
write, fetching, exhaustion and restart causes (R66, R78, R90, R96, R122, R124, R125). -/
def settle (s : State) : State :=
  let s := rejudgeHeld (checkClose (checkFlush (judgeDeferred s)))
  let s := checkClose (checkFlush s)
  noteTarget (checkRestart (checkExhaustion (startFetch s)))

/-- A request of 1 to 64 bytes within one aligned line of the buffer memory; what is wrong with it otherwise (0.2, R68). -/
def requestFault (addr len : Nat) : Option Fault :=
  if len = 0 ∨ 64 < addr % 64 + len then some (.malformedRequest addr len)
  else if Config.memBytes < addr + len then some (.outsideMemory addr len)
  else none

/-- A front-port write request (R68): it waits behind a held write, or is taken. -/
def frontWrite (m : Master) (addr : Nat) (data : List (Option Byte)) (s : State) : Out :=
  match requestFault addr data.length with
  | some f => .fault f
  | none =>
    let w : FrontWrite := { master := m, addr := addr, data := data }
    if s.bp.held.isSome then .next { s with bp.behind := s.bp.behind ++ [w] } else .next (settle (takeWrite w s))

/-! ### The delivery watch (R81) -/

/-- Mark WRITTEN pieces whose tail lies in a read (R81). -/
def markPieces (zd off len : Nat) (ps : List Piece) : List Piece :=
  ps.map (fun p =>
    let tail := (p.start + p.len - 1) % zd
    if p.state = .written ∧ off ≤ tail ∧ tail < off + len then { p with state := .marked } else p)

/-- Release MARKED pieces from the head: what stays and the length released (R81). -/
def releasePieces : List Piece → List Piece × Nat
  | [] => ([], 0)
  | p :: ps =>
    if p.state = .marked then
      let r := releasePieces ps
      (r.1, r.2 + p.len)
    else (p :: ps, 0)

/-- A read inside the delivery ring (R81). -/
def deliveryRead (zd off len : Nat) (s : State) : State :=
  let r := releasePieces (markPieces zd off len s.bp.pieces)
  { s with bp.pieces := r.1, bp.occupied := s.bp.occupied - r.2 }

/-- A front-port read request (R68, R69): forwarded, and handed to the delivery watch inside the delivery ring. -/
def frontRead (m : Master) (addr len : Nat) (s : State) : Out :=
  match requestFault addr len with
  | some f => .fault f
  | none =>
    let s := issueRead .front addr len (.frontRead m) s
    match s.bp.layout with
    | none => .next s
    | some l => .next (if insideRegion l.dlBase l.zd addr then deliveryRead l.zd (addr - l.dlBase) len s else s)

/-- HOLD_TIMER_EXPIRY (R78, R105): the held write is forwarded unchanged over retained bytes and intake stops with OVERRUN. A
watch that has ended forwards it without (R75). -/
def holdExpiry (s : State) : State :=
  match s.bp.held with
  | none => s
  | some w =>
    if s.bp.watch then
      let ws := s.bp.behind
      let s := stopSession .overrun (forwardWrite w { s with bp.held := none, bp.behind := [] })
      settle (takeBehind ws s)
    else settle s

/-! ### The arbiter's grant (R82) -/

/-- The first request of a class with what was issued before it and after it. -/
def headOf (c : ReqClass) : List Req → List Req → Option (List Req × Req × List Req)
  | _, [] => none
  | before, r :: rest => if r.cls = c then some (before, r, rest) else headOf c (before ++ [r]) rest

/-- The grantable request of a class: its oldest, when no earlier request has the same line still to move (R82). -/
def grantable (c : ReqClass) (rs : List Req) : Option (List Req × Req × List Req) :=
  match headOf c [] rs with
  | some (before, r, rest) => if before.any (fun q => q.touches (lineOf r.addr)) then none else some (before, r, rest)
  | none => none

/-- The arbiter's choice (R82). -/
def chooseGrant (s : State) : Option (List Req × Req × List Req) :=
  let t := grantable .tape s.bp.reqs
  let f := grantable .front s.bp.reqs
  let i := grantable .internal s.bp.reqs
  if s.bp.starve = 8 ∧ i.isSome = true then i
  else if t.isSome then t else if f.isSome then f else i

/-- Move the request's next line. -/
def moveLine (r : Req) (m : List Host.Cell) : Req × List Host.Cell :=
  let k := r.step
  if r.isWrite then ({ r with addr := r.addr + k, len := r.len - k, data := r.data.drop k }, memWriteBytes m r.addr (r.data.take k))
  else ({ r with addr := r.addr + k, len := r.len - k, got := r.got ++ memReadBytes m r.addr k }, m)

/-- Grant one line: the state after it, and the request when its last line has moved (R82). -/
def grantLine (s : State) : State × Option Req :=
  match chooseGrant s with
  | none => (s, none)
  | some (before, r, rest) =>
    let waitingInternal := (grantable .internal s.bp.reqs).isSome
    let starve := if r.cls = .internal then 0 else if waitingInternal then min 8 (s.bp.starve + 1) else s.bp.starve
    let m := moveLine r s.mem
    if m.1.len = 0 then ({ s with mem := m.2, bp.reqs := before ++ rest, bp.starve := starve }, some m.1)
    else ({ s with mem := m.2, bp.reqs := before ++ m.1 :: rest, bp.starve := starve }, none)

/-- The grant of a completion record's write (R186). -/
def recordGranted (s : State) : State :=
  match s.bp.layout with
  | none => { s with cq.writing := false }
  | some l =>
    let p := (s.cq.p + 1) % l.n
    setService { s with cq.p := p, cq.lap := if p = 0 then !s.cq.lap else s.cq.lap, cq.writing := false }

end Sys2Proof.Machine
end

