-- ==== Sys2Proof/Machine/Drain.lean ====
section
/-! DEFINITION. The decompressor's walk of the slot in DRAINING (R153) and the writing of a piece (R154): what each read brings,
chunk by chunk, and how a piece whose room was granted is completed when the read stops (R158). -/

namespace Sys2Proof.Machine

/-! ### Pieces (R154) -/

/-- The size Zd of the delivery ring. -/
def ringZd (s : State) : Nat := (s.bp.layout.map Layout.zd).getD 0

/-- A piece's length: header, data, pad to a multiple of 32 (R154). -/
def pieceLen (data : Nat) : Nat := (32 + data + 31) / 32 * 32

/-- A piece's header (12.5). -/
def pieceHeader (a : PieceAsk) : List Byte :=
  padTo 32 (leBytes 4 a.num ++ [if a.filemark then 2 else 1, byteOf ((if a.first then 1 else 0) + (if a.last then 2 else 0)),
    byteOf a.status, 0] ++ leBytes 4 a.len)

/-- Write a run of bytes into the delivery ring, wrapping at its end (R154). -/
def writeDelivery (base zd off : Nat) (bs : List Byte) (s : State) : State :=
  let n := zd - off % zd
  let s := issueWrite .internal (base + off % zd) (bs.take n) .plain s
  issueWrite .internal base (bs.drop n) .plain s

/-- Where the piece last granted starts. -/
def lastPiece (s : State) : Nat := (s.bp.pieces.getLast?.map Piece.start).getD 0

/-- The data of the piece granted has been produced: its data lines are written, then its header (R154). -/
def writePiece (a : PieceAsk) (data : List Byte) (s : State) : State :=
  match s.bp.layout with
  | none => s
  | some l =>
    let at_ := lastPiece s
    let s := writeDelivery l.dlBase l.zd (at_ + 32) data { s with rd.fill := none, rd.out := some a }
    issueWrite .internal (l.dlBase + at_) (pieceHeader a) (.pieceHeader at_) s

/-- A piece whose data met a decode fault is taken back from the tail of the piece list with its room (the model's choice, log
entry 40). -/
def withdrawPiece (s : State) : State :=
  match s.rd.fill, s.bp.pieces.getLast? with
  | some _, some p =>
    { s with rd.fill := none, bp.pieces := s.bp.pieces.dropLast, bp.wpos := p.start, bp.occupied := s.bp.occupied - p.len }
  | _, _ => s

/-! ### Chunks (R153) -/

/-- The body mode and length that a chunk header gives; none where the chunk would run past the chunk bytes of the segment. A mode other than
the two of R153 is taken as RAW: the model's choice, log entry 42. -/
def headerOf (d : Drain) (bs : List Byte) : Option (Bool × Nat) :=
  let n := field bs 2 2
  if d.off + 4 + n ≤ d.used then some (decide (field bs 0 1 = 1), n) else none

/-- The raw length of the entry's next chunk (R153). -/
def nextRaw (d : Drain) (e : Entry) : Nat := min (e.raw - d.made) Config.chunkBytes

/-- A chunk of the entry is expanded: the walk after it and the history after it, or none for a decode fault (R153). -/
def takeChunk (d : Drain) (e : Entry) (hist body : List Byte) (compressed : Bool) : Option (Drain × List Byte) :=
  match expandChunk hist body compressed (nextRaw d e) with
  | none => none
  | some out =>
    let d' : Drain := { d with off := d.off + 4 + body.length, made := d.made + out.length, stored := d.stored + 4 + body.length,
                               out := if d.wanted then d.out ++ out else d.out, read := .nothing }
    if d'.made = e.raw ∧ d'.stored ≠ e.stored then none else some (d', growHistory hist out)

/-- The piece's data is at hand: it is written, and what is left of the output stays for the next piece. -/
def pieceReady (d : Drain) (a : PieceAsk) (s : State) : State :=
  writePiece a (d.out.take a.len) { s with rd.drain := some { d with out := d.out.drop a.len, sent := d.sent + a.len } }

/-- When a read stops, a piece whose room was granted is completed through its header (R158 step 1): its remaining chunks are
read and expanded at once. Each chunk makes at least one byte. -/
def finishFill : Nat → State → State
  | 0, s => withdrawPiece s
  | fuel + 1, s =>
    match s.rd.fill, s.rd.drain with
    | some a, some d =>
      match d.cur with
      | none => withdrawPiece s
      | some e =>
        if a.len ≤ d.out.length then pieceReady d a s
        else
          let h := slotRead s d.slot d.off 4
          match headerOf d h with
          | none => withdrawPiece s
          | some (comp, n) =>
            let body := slotRead s d.slot (d.off + 4) n
            match takeChunk d e s.rd.dhist body comp with
            | none => withdrawPiece s
            | some (d', hist) =>
              finishFill fuel (consultSlot d.slot d.off (4 + n) { s with rd.drain := some d', rd.dhist := hist })
    | _, _ => s

/-- The drain stops with its read outstanding (R158 steps 1 and 2, R159). -/
def stopDrain (s : State) : State :=
  let s := finishFill 1100 s
  forgetAll .drainRead { s with rd.drain := none, rd.ask := none }

end Sys2Proof.Machine
end

