-- ==== Sys2Proof/Machine/Reader.lean ====
section
/-! DEFINITION. The Frame Reader: segments opened, merged and completed, retries, READ_ERROR, the trailer scan, the EOD
confirmation, and the ways a read ends (R47 to R49, R142 to R152, R155 to R159). -/

namespace Sys2Proof.Machine

/-! ### Slots of a read -/

/-- The slots the reader holds, ascending by segment. -/
def readSlots (s : State) : List Nat := slotsIn isReadSide s

/-- Drain and rebuild stop, and every slot the reader holds is freed, in ascending segment number (R158). -/
def freeReadSlots (s : State) : State :=
  let s := stopDrain s
  freeSlots (readSlots s) (forgetAll .rebuildRead { s with rd.rebuildQ := [], rd.rebuildGot := [] })

/-- The reader stands in IDLE. -/
def readerIdle (s : State) : State :=
  { s with rd.state := .idle, rd.user := none, rd.discardPt := none, rd.resume := none, rd.lastEnd := none, rd.lowEnd := none, rd.rebuildQ := [],
           rd.rebuildGot := [], rd.drain := none, rd.dhist := [], rd.ask := none, rd.fill := none, rd.out := none, rd.partly := none, rd.ended := none,
           rd.bad := none, rd.after := none, rd.past := none, rd.dataEnd := false, rd.scan := none, rd.blank := 0, rd.endLead := none }

/-- The read slot of a segment in FETCHING. -/
def fetchSlot (s : State) (m : Nat) : Option Nat := (slotsIn isFetching s).find? (fun k => decide ((slotAt s k).seg = m))

/-- The reader may take a slot (R147). -/
def mayOpen (s : State) : Bool :=
  !s.sm.free.isEmpty && (decide (s.rd.user ≠ some .records) || decide ((readSlots s).length < s.sp.policy.readAhead))

/-- `d` counts before a position, no nearer than the region start of the pass (R147). -/
def backClamped (p : Pos) (d : Nat) : Pos :=
  { p with count := if evenPass p.pass then max Config.regionLow (p.count - d) else min Config.regionHigh (p.count + d) }

/-- MISSING frames of a slot (R148). -/
def missingFrames (x : Slot) : List Nat := (List.range 32).filter (fun i => !(x.held.getD i false))

/-- The 28 lowest HELD frames of a slot (R149). -/
def knownFrames (x : Slot) : List Nat := ((List.range 32).filter (fun i => x.held.getD i false)).take 28

/-- The part reads the 28 lowest HELD frames of the slot that the rebuild now serves (R149). -/
def serveRebuild (s : State) : State :=
  match s.rd.rebuildQ with
  | [] => s
  | k :: _ =>
    (knownFrames (slotAt s k)).foldl
      (fun t i => issueRead .internal (slotBase s k + i * Config.frameBytes) Config.frameBytes .rebuildRead t) { s with rd.rebuildGot := [] }

/-- A slot joins the rebuild, which serves one slot at a time in order of completion (R149). -/
def joinRebuild (k : Nat) (s : State) : State :=
  let idle := s.rd.rebuildQ.isEmpty
  let s := { s with rd.rebuildQ := s.rd.rebuildQ ++ [k] }
  if idle then serveRebuild s else s

/-- Slots leave the rebuild. -/
def leaveRebuild (gone : Nat → Bool) (s : State) : State :=
  let head := (s.rd.rebuildQ.head?.map gone).getD false
  let s := { s with rd.rebuildQ := s.rd.rebuildQ.filter (fun j => !gone j) }
  if head then serveRebuild (forgetAll .rebuildRead s) else s

/-- The reader goes on along tape after a completion (R145, R151, R156): the stream runs, and no segment has ended in READ_ERROR. -/
def goesOn (s : State) : Bool := decide (s.rd.state = .streaming) && s.rd.bad.isNone

/-- The segment in slot k is complete: X is the lowest segment number not yet completed, be it open or not yet opened (R145, R148). -/
def raiseX (k : Nat) (s : State) : State :=
  { s with rd.x := match (slotsIn isFetching s).find? (fun j => decide (j ≠ k)) with
    | some j => (slotAt s j).seg
    | none => max s.rd.next ((slotAt s k).seg + 1) }

/-! ### Records delivered (R155, R156) -/

/-- The logical position past a segment in READ_ERROR (R156). -/
def positionPast (s : State) : Option Nat :=
  match s.rd.bad with
  | some n => if s.cart.eod.isSome = true ∧ n + 1 = eodSeg s then some (eodRec s) else s.rd.past
  | none => s.mo.lp

/-- The header of a record's LAST piece has been written: the record counts as delivered, a filemark does not, and the logical position
follows it, or lies past the segment in READ_ERROR (R155, R156). -/
def countRecord (a : PieceAsk) (s : State) : State :=
  let past := decide (a.status = 2)
  let s := if past then consultHead s else s
  { s with mo.lp := if past then positionPast s else some (inc32 a.num), rd.partly := none,
           rd.delivered := if a.filemark then s.rd.delivered else s.rd.delivered + 1 }

/-- A read that is cut off completes the piece under way through its header (R158 step 1); where that is a LAST piece, its record counts as
delivered. That it counts before the header's grant is the model's choice, log entry 40. -/
def countOut (s : State) : State :=
  match s.rd.out with
  | some a => if a.last = true ∧ s.rd.user = some .records ∧ s.rd.ended = none then countRecord a s else s
  | none => s

/-! ### Ends of a read -/

/-- The result of READ_RECORDS: the delivered count and the logical position (12.4). -/
def readResult (s : State) : Results := .position (leBytes 4 s.rd.delivered) s.mo.lp

/-- READ_RECORDS ends (R158): slots are freed and the tape is brought to rest, at the standing point of the lead-in point
where one is known. In a recovery the move waits for its return, and a recovery that has failed ends the read as it ends it; both
are the model's choice, log entry 39. -/
def endRead (st : Status) (s : State) : State :=
  if s.mo.wait = .failing then { s with rd.ended := some st, rd.endLead := none }
  else
  let lead := if st = .ok ∨ st = .filemarkSeen then s.rd.endLead else none
  let s := freeReadSlots { s with rd.ended := some st, rd.state := .ending, rd.endLead := lead }
  match lead with
  | some sp => backhitchTo sp.pos .readEnd s
  | none => stopThen .readEnd s

/-- The read fails with the motion (R65, R158). -/
def failRead (s : State) : State :=
  let s := countOut (freeReadSlots s)
  let s := complete .read .motionFault 0 (.position (leBytes 4 s.rd.delivered) none) { s with mo.lp := none }
  readerIdle s

/-- What READ_ABORT does to a running READ_RECORDS before it becomes running itself (R159). -/
def abortRead (s : State) : State :=
  let s := countOut (freeReadSlots { s with rd.start := none, pw.waiters := s.pw.waiters.filter (fun j => decide (j ≠ .read)) })
  let s := complete .read .aborted 0 (readResult s) s
  readerIdle s

/-! ### Scans and locates (R46 to R49) -/

/-- The pass and count of BOT's standing point (R46). -/
def botStand : Pos := standing bot

/-- The mark to start from for record r: its segment and position, none for BOT (R47). -/
def chooseMark (marks : List Mark) (r : Nat) : Option Mark :=
  let below := marks.filter (fun m => decide (m.firstRec < r))
  below.getLast?

/-- Begin the mark choice and trailer scan (R47, R48): for a record, or to blank detection (R49). -/
def beginScan (u : ReadUser) (target : Option Nat) (s : State) : State :=
  let c := s.cart
  let mark := match target with
    | some r => if c.eod.isSome then chooseMark c.marks r else none
    | none => none
  let place := match mark with
    | some m => { m.pos with count := back m.pos.pass m.pos.count Config.skipGap }
    | none => botStand
  let x := (mark.map Mark.seg).getD 0
  let s := { s with rd.state := .seeking, rd.user := some u, rd.x := x, rd.next := x, rd.scan := some { target := target, seen := [] },
                    rd.blank := 0, rd.dataEnd := false, rd.lastEnd := none, rd.lowEnd := none, mo.entry := 0 }
  locateTo place .scanGo s

/-- The standing place and completion of a target beyond the scan: LOCATE ends without scanning (R46). -/
def locatePlace (place : Pos) (st : Status) (lp : Option Nat) (sp : Option StartPoint) (s : State) : State :=
  let s := { s with mo.entry := 0 }
  if s.mo.stands = some place ∧ s.ch.transport = .ready then
    complete .transport st 0 (.position [] lp) { s with mo.lp := lp, rd.start := sp }
  else locateTo place (.locateAt st lp sp) s

/-- BOT, or the EOD resume point's standing point where EOD is present (R46). -/
def eodPlace (s : State) : Pos :=
  match s.cart.eod with
  | none => botStand
  | some e => standing (eodResume e)

/-- A LOCATE that passes its checks begins (R46): target 0 is RECORD, 1 is EOD, 2 is BOT (12.3). -/
def beginLocate (target r : Nat) (s : State) : State :=
  if target = 2 then locatePlace botStand .ok (some 0) (some { pos := bot, seg := 0 }) s
  else
    let eod := s.cart.eod
    let s := consultCart s
    if s.ch.tagUnreadable ∧ eod = none then beginScan .scanLocate (if target = 0 then some r else none) s
    else if target = 1 then locatePlace (eodPlace s) .ok (some (eodRec s)) none s
    else
      match eod with
      | none => locatePlace botStand .endOfData (some 0) none s
      | some e =>
        if e.firstRec ≤ r then locatePlace (eodPlace s) .endOfData (some e.firstRec) none s
        else beginScan .scanLocate (some r) s

/-- The scan has found its target segment: stop and back to the standing point of its frame 0 (R48). The read state, which the scan has taken
through STARTING and STREAMING as R152 gives, is SEEKING again: the model's choice between R142 and R152, log entry 42. -/
def scanFound (m : Met) (s : State) : State :=
  let s := freeReadSlots { s with rd.state := .seeking, rd.scan := s.rd.scan.map (fun sc => { sc with seen := [m] }) }
  backhitchTo m.f0 .scanStand s

/-- The scan ends without its target (R46, R48, R49, R64): a READ_ERROR stops where the tape is; the end of the data brings a
LOCATE to its standing place, OK for target EOD where blank tape has been met and END_OF_DATA otherwise. With EOD absent still, as when
END_APPROACH on pass 47 ends the scan of a full tape, that place is BOT's standing point and the logical position 0: the model's choice,
log entry 42. -/
def scanEnded (st : Status) (s : State) : State :=
  let s := freeReadSlots { s with rd.state := .seeking }
  match s.rd.user with
  | some .scanLocate =>
    if st = .readError then stopThen (.scanFailed st) s
    else
      let s := consultHead s
      let lp := eodRec s
      let ok := decide ((s.rd.scan.bind Scan.target) = none) && (decide (4 * Config.blankLength ≤ s.rd.blank) || s.cart.eod.isSome)
      locateTo (eodPlace s) (.locateAt (if ok then .ok else .endOfData) (some lp) none) (readerIdle s)
  | _ => stopThen (.scanFailed st) s

/-- The trailer of a segment has been passed to the scan (R152). -/
def trailerPassed (s : State) (n : Nat) : Bool :=
  match s.rd.scan with
  | some sc => sc.seen.any (fun m => decide (m.seg = n))
  | none => false

/-- Enter a segment among those whose trailers have been passed, ascending. -/
def putMet (m : Met) : List Met → List Met
  | [] => [m]
  | a :: rest => if m.seg < a.seg then m :: a :: rest else a :: putMet m rest

/-- The trailer of the segment in slot k is passed to the scan (R152). With EOD absent the segment enters the pass table and the mark list,
and the record that follows it is read (R49). -/
def passTrailer (k : Nat) (s : State) : State :=
  let x := slotAt s k
  let first := trailerFirst (slotTrailer s k)
  let f0 := x.f0.getD bot
  let c := s.cart
  let m : Met := { seg := x.seg, first := first, eodRec := segmentNextRec s k, f0 := f0, stop := x.frameEnd.getD f0 }
  let s := consultHead (consultSlot k Config.trailerAt 64 s)
  let s := if c.eod = none then putCart (enterSegment x.seg first f0 c) (consultLast k s) else s
  { s with rd.scan := s.rd.scan.map (fun sc => { sc with seen := putMet m sc.seen }) }

/-- Slots whose trailers may be passed: frame 27 HELD, or DECODED, and not passed yet (R152). -/
def passable (s : State) : List Nat :=
  (readSlots s).filter (fun k =>
    let x := slotAt s k
    (decide (x.st = .decoded) || (decide (x.st = .fetching) && x.held.getD 27 false)) && !trailerPassed s x.seg)

/-- A segment below `n` is held whose trailer has not been passed: those from `n` on are not judged before it (R48: the first segment met). -/
def trailerOwed (s : State) (n : Nat) : Bool :=
  (readSlots s).any (fun k => decide ((slotAt s k).seg < n) && !trailerPassed s (slotAt s k).seg)

/-- The target segment (R48): the first segment whose successor's first record number is r or greater, or the last committed segment. For
target EOD the scan has none. -/
def scanTarget (s : State) (r : Nat) : List Met → Option Met
  | a :: b :: rest =>
    if trailerOwed s b.seg then none
    else if a.seg + 1 = b.seg ∧ r ≤ b.first then some a
    else scanTarget s r (b :: rest)
  | [a] => if trailerOwed s a.seg = false ∧ s.cart.eod.isSome = true ∧ a.seg + 1 = eodSeg s then some a else none
  | [] => none

/-- What the scan keeps: the segments passed, from the last one below `low` on. -/
def trimSeen (low : Nat) : List Met → List Met
  | a :: b :: rest => if b.seg < low then trimSeen low (b :: rest) else a :: b :: rest
  | l => l

/-- The lowest segment the reader holds, or else the next one to open. -/
def lowestHeld (s : State) : Nat := ((readSlots s).head?.map (fun k => (slotAt s k).seg)).getD s.rd.next

/-- Pass on the trailers that are to hand, free the slots that are complete, and see whether the target has been found (R48, R152). -/
def scanAdvance (s : State) : State :=
  if s.rd.scan.isNone then s
  else
    let s := (passable s).foldl (fun t k => passTrailer k t) s
    let s := freeSlots (slotsIn (fun x => decide (x = .decoded)) s) s
    match s.rd.scan with
    | none => s
    | some sc =>
      match sc.target.bind (fun r => scanTarget s r sc.seen) with
      | some m => scanFound m s
      | none => { s with rd.scan := some { sc with seen := trimSeen (lowestHeld s) sc.seen } }

/-! ### The EOD confirmation (R15) -/

/-- The confirmation stops: the open flag becomes 0, the EOD is confirmed, the tape goes back to BOT (R15 step 5). -/
def stopConfirm (s : State) : State :=
  let s := putCart { s.cart with openFlag := false } (freeReadSlots s)
  let s := readerIdle { s with ch.eodConfirmed := true }
  locateTo botStand .confirmBack s

/-- A DECODED segment's trailer is handed to the Cartridge Handler, and the slot freed (R15 step 3, R152). An extension so made stays in the
record also where the confirmation fails later: the model's choice, log entry 35. -/
def confirmSegment (k : Nat) (s : State) : State :=
  let x := slotAt s k
  let t := slotTrailer s k
  if trailerSeg t = eodSeg s then
    let f0 := x.f0.getD bot
    let endPos := x.frameEnd.getD f0
    let c := enterSegment x.seg (trailerFirst t) f0 s.cart
    let eod : Eod := { seg := x.seg + 1, firstRec := segmentNextRec s k, pos := endPos }
    freeSlot k (putCart { c with eod := some eod } (consultLast k s))
  else stopConfirm (freeSlot k s)

/-- The confirmation takes its segments in segment order: a DECODED one waits for every lower one still open or being rebuilt; it stops when
none is left behind a READ_ERROR or the end of the data (R15 steps 3 and 4, R152). -/
def confirmAdvance : Nat → State → State
  | 0, s => s
  | fuel + 1, s =>
    if s.rd.user ≠ some .confirm then s
    else
      match readSlots s with
      | k :: _ => if (slotAt s k).st = .decoded then confirmAdvance fuel (confirmSegment k s) else s
      | [] => if s.rd.bad.isSome || s.rd.dataEnd then stopConfirm s else s

/-! ### The splice (R101, R102) -/

/-- Entries of the splice slot that are kept: those before the first whose record number is p or greater; with their stored
bytes. -/
def keptEntries (s : State) (k p : Nat) : Nat → Nat → Nat → Nat × Nat
  | 0, j, u => (j, u)
  | fuel + 1, j, u =>
    if j < trailerEntries (slotTrailer s k) then
      let e := slotEntry s k j
      if p ≤ e.num then (j, u) else keptEntries s k p fuel (j + 1) (u + e.stored)
    else (j, u)

/-- The splice segment is DECODED: it becomes the FILLING slot, the only one (R108), and the tape goes back to its frame 0 (R101, R102). The
truncation is made when the tape stands there. -/
def spliceDecoded (k : Nat) (s : State) : State :=
  let x := slotAt s k
  let others := (readSlots s ++ slotsIn isFilling s).filter (fun j => decide (j ≠ k))
  let s := freeSlots others (leaveRebuild (fun _ => true) s)
  let s := setSlot k (freshSlot .filling x.seg) s
  backhitchTo (x.f0.getD bot) .spliceStand { s with rd.splice := some k, rd.spliceAt := x.f0, rd.state := .ending }

/-- A splice ends WRITE_OPEN without opening the session (R103). -/
def spliceEnds (st : Status) (s : State) : State :=
  let s := freeReadSlots s
  let s := match s.rd.splice with
    | some k => freeSlot k s
    | none => s
  let s := readerIdle { s with rd.splice := none, rd.spliceAt := none }
  completeWith .write st s

/-! ### DRAINING_ONLY, retry, READ_ERROR (R148 to R151, R156) -/

/-- The read enters DRAINING_ONLY: the tape ramps to rest where it stands. -/
def drainOnly (s : State) : State :=
  if s.rd.state = .drainingOnly then s else stopThen .drainRest { s with rd.state := .drainingOnly }

/-- EOD is set behind the last segment met, at the end of its last frame, and is confirmed (R49). With no segment met it
stays absent. -/
def blankEod (s : State) : State :=
  let s := { s with ch.eodConfirmed := true }
  match s.rd.scan.bind (fun sc => sc.seen.getLast?) with
  | some m => putCart { s.cart with eod := some { seg := m.seg + 1, firstRec := m.eodRec, pos := m.stop } } s
  | none => s

/-- Blank tape has been met: the run of R49 without the start of a frame. -/
def blankMet (s : State) : Bool := decide (4 * Config.blankLength ≤ s.rd.blank)

/-- A trailer scan has met the end of the data (R46 to R49): with EOD absent and blank tape met, EOD is set there, and a
record below it lies in the last segment. -/
def scanDataEnd (s : State) : State :=
  let s := consultHead s
  if s.cart.eod.isNone && blankMet s then
    let s := blankEod s
    match s.rd.scan.bind Scan.target, s.rd.scan.bind (fun sc => sc.seen.getLast?) with
    | some r, some m => if r < m.eodRec then scanFound m s else scanEnded .endOfData s
    | _, _ => scanEnded .endOfData s
  else scanEnded .endOfData s

/-- WRITE_OPEN's splice read has failed: the tape stops first (R103). -/
def spliceLost (s : State) : State := stopThen (.spliceFailed .readError) { s with rd.state := .ending }

/-- The end of the data for each user, when every completion has been dealt with (R15, R148, R152, R155). -/
def dataEnded (s : State) : State :=
  let s := { s with rd.dataEnd := true }
  match s.rd.user with
  | some .records => drainOnly s
  | some .confirm => if (readSlots s).isEmpty then stopConfirm s else drainOnly s
  | some .splice => if (readSlots s).isEmpty then spliceLost s else drainOnly s
  | some _ => if (readSlots s).isEmpty then scanDataEnd s else drainOnly s
  | none => s

/-- The read segments above N are freed, but for the one kept (R151). -/
def freeAbove (n : Nat) (keep : Option Nat) (s : State) : State :=
  freeSlots ((slotsIn isFetching s).filter (fun j => decide (n < (slotAt s j).seg) && decide (some j ≠ keep))) s

/-- The segment `n` of READ_RECORDS in the slot has ended in READ_ERROR: the read segments above it are freed but for the one after it, and
that one is awaited (R151, R156). -/
def badSegment (k n : Nat) (s : State) : State :=
  let s := freeSlot k (leaveRebuild (fun j => decide (j = k)) { s with rd.bad := some n, rd.past := none })
  let open_ := fetchSlot s (n + 1)
  let s := freeAbove n open_ s
  let s := { s with rd.after := if open_.isSome then some (n + 1) else none }
  if open_.isSome && !s.rd.dataEnd then s else drainOnly s

/-- Segment N in the slot ends in READ_ERROR (R151). The confirmation stops when the segments below it have been dealt with (R15). -/
def readErrorAt (k : Nat) (s : State) : State :=
  let n := (slotAt s k).seg
  let s := raiseX k (event .readError s)
  match s.rd.user with
  | some .records => badSegment k n s
  | some .confirm =>
    let s := freeAbove n none (freeSlot k (leaveRebuild (fun j => decide (j = k)) { s with rd.bad := some n }))
    if (readSlots s).isEmpty then stopConfirm s else drainOnly s
  | some .splice => spliceLost (freeReadSlots s)
  | some _ => scanEnded .readError s
  | none => s

/-- The segment awaited after a READ_ERROR is lost: it is not retried, and the logical position past the error is not known
(R156). -/
def afterLost (k : Nat) (s : State) : State :=
  drainOnly (freeSlot k { raiseX k s with rd.after := none, rd.past := none })

/-- A retry of the segment in the slot (R150), from its lead-in point. A segment opened without a frame, with no frame of any
lower segment received, has none (R147): its retry starts from BOT, the model's choice, log entry 35. -/
def retrySegment (k : Nat) (s : State) : State :=
  let x := slotAt s k
  let s := event .readRetry (setSlot k { x with st := .fetching, retry := x.retry + 1 } s)
  let p := x.leadIn.getD bot
  backhitchTo p .readRetry { s with rd.state := .retrying, rd.resume := some p, rd.dataEnd := false, rd.blank := 0 }

/-- The segment after a READ_ERROR has been decoded: the logical position is set past N, and the slot freed (R156). -/
def afterDecoded (k : Nat) (s : State) : State :=
  let e := slotEntry s k 0
  let s := consultSlot k (entryAt 0) 16 s
  drainOnly (freeSlot k { s with rd.after := none, rd.past := some (if e.first then e.num else inc32 e.num) })

/-- The first record number at the EOD that blank detection set behind a segment, once that segment is whole (R49). -/
def settleEod (k : Nat) (s : State) : State :=
  match s.cart.eod with
  | some e =>
    if s.ch.tagUnreadable = true ∧ s.rd.user = some .records ∧ e.seg = (slotAt s k).seg + 1 then
      putCart { s.cart with eod := some { e with firstRec := segmentNextRec s k } } (consultLast k s)
    else s
  | none => s

/-- A segment whose trailer is good is DECODED, and its user goes on with it (R15, R48, R102, R149, R153). -/
def takeDecoded (k : Nat) (s : State) : State :=
  let x := slotAt s k
  let s := settleEod k (setSlot k { x with st := .decoded } s)
  match s.rd.user with
  | some .records => if s.rd.after = some x.seg then afterDecoded k s else s
  | some .confirm => confirmAdvance ((readSlots s).length + 1) s
  | some .splice => spliceDecoded k s
  | some _ => scanAdvance s
  | none => s

/-- A segment of READ_RECORDS above one in READ_ERROR, which is not awaited: as a read segment it is freed (R151). -/
def aboveBad (s : State) (n : Nat) : Bool :=
  match s.rd.user, s.rd.bad with
  | some .records, some b => decide (b < n)
  | _, _ => false

/-- A failed trailer check is treated as a completion with 32 MISSING frames (R149): X is the segment's own number again for a
retry. True when a retry has begun. -/
def trailerFails (k : Nat) (s : State) : State × Bool :=
  let x := slotAt s k
  let s := setSlot k { x with st := .fetching, held := List.replicate 32 false } s
  if s.rd.after = some x.seg then (afterLost k s, false)
  else if aboveBad s x.seg then (freeSlot k s, false)
  else if x.retry < 3 then (retrySegment k { s with rd.x := min s.rd.x x.seg }, true)
  else (readErrorAt k s, false)

/-- A slot has entered DECODED: the trailer check, then the user's part (R149, R152). True when a retry has begun. -/
def slotDecoded (k : Nat) (s : State) : State × Bool :=
  let good := trailerGood (slotTrailer s k) (slotAt s k).seg
  let s := consultSlot k Config.trailerAt 64 s
  if good then (takeDecoded k s, false) else trailerFails k s

/-- A read segment completes (R148). The trailer scan needs frame 27 alone (R152), and the segment awaited behind a READ_ERROR ends the stream
(R151). True when a retry has begun. -/
def completeSegment (k : Nat) (s : State) : State × Bool :=
  let x := slotAt s k
  let missing := (missingFrames x).length
  if s.rd.scan.isSome = true ∧ x.held.getD 27 false = true then
    (scanAdvance (setSlot k { x with st := .decoded } (raiseX k s)), false)
  else if missing = 0 then slotDecoded k (raiseX k s)
  else if missing ≤ 4 then
    let s := joinRebuild k (setSlot k { x with st := .rebuilding } (raiseX k s))
    (if s.rd.after = some x.seg then drainOnly s else s, false)
  else if s.rd.after = some x.seg then (afterLost k s, false)
  else if x.retry < 3 then (retrySegment k s, true)
  else (readErrorAt k s, false)

/-- Complete the read segments of a list, lowest first, until a retry begins. -/
def completeAll : List Nat → State → State × Bool
  | [], s => (s, false)
  | k :: ks, s =>
    if (slotAt s k).st = .fetching then
      let r := completeSegment k s
      if r.2 then r else completeAll ks r.1
    else completeAll ks s

/-- An event that ends the data: each read segment completes, lowest first, and the read then drains (R148). R148 names no such event for the
EOD confirmation; at its stop by 12,288 counts without a frame, or at the end of pass 47, the read segments still open complete in the same
way, so that one that is whole still extends the data: the model's choice, log entry 42. -/
def endOfStream (s : State) : State :=
  let u := s.rd.user
  let r := completeAll (slotsIn isFetching s) s
  if r.2 || decide (r.1.rd.user ≠ u) || decide (r.1.rd.state ≠ .streaming) then r.1 else dataEnded r.1

/-! ### Frames (R145 to R147) -/

/-- Open the lowest segment not yet opened, with its lead-in point (R147). -/
def openSegment (lead : Option Pos) (s : State) : Option (Nat × State) :=
  let m := s.rd.next
  if mayOpen s then
    match takeFree .fetching m s with
    | none => none
    | some (k, s) => some (k, setSlot k { freshSlot .fetching m with leadIn := lead } { s with rd.next := m + 1 })
  else none

/-- A segment cannot be opened: PAUSED (R147). -/
def pauseRead (p : Pos) (s : State) : State := backhitchTo p .readPaused { s with rd.state := .paused, rd.resume := some p }

/-- The end of a frame that starts at p. -/
def frameStop (p : Pos) : Pos := { p with count := ahead p.pass p.count Config.pitch }

/-- Where frame 0 of the placement lies whose frame `i` starts at p. -/
def frameZero (p : Pos) (i : Nat) : Pos := { p with count := back p.pass p.count (Config.pitch * i) }

/-- A slot as it stands when a frame that starts at p is merged (R146): the first frame, and one of a higher stamp, set the merge stamp and
where frame 0 lies; with the stamp equal the end of the last frame met follows. -/
def stampSlot (id : FrameId) (p : Pos) (x : Slot) : Slot :=
  match x.stamp with
  | none => { x with stamp := some id.stamp, f0 := some (frameZero p id.idx), frameEnd := some (frameStop p) }
  | some t =>
    if t < id.stamp then
      { x with stamp := some id.stamp, f0 := some (frameZero p id.idx), frameEnd := some (frameStop p), held := List.replicate 32 false }
    else if t = id.stamp then { x with frameEnd := some (frameStop p) }
    else x

/-- What the scan holds of a segment follows its slot: the end of its last frame, and nothing when its frames are MISSING again (R146,
R152). -/
def followMet (id : FrameId) (p : Pos) (old : Option Nat) (sc : Scan) : Scan :=
  match old with
  | none => sc
  | some t =>
    if t < id.stamp then { sc with seen := sc.seen.filter (fun m => decide (m.seg ≠ id.seg)) }
    else if t = id.stamp then { sc with seen := sc.seen.map (fun m => if m.seg = id.seg then { m with stop := frameStop p } else m) }
    else sc

/-- Merge a frame that starts at p into its slot (R146). -/
def mergeFrame (k : Nat) (id : FrameId) (st : FrameStatus) (p : Pos) (data : List Byte) (s : State) : State :=
  let old := slotAt s k
  let x := stampSlot id p old
  let s := setSlot k x { s with rd.scan := s.rd.scan.map (followMet id p old.stamp) }
  if x.stamp = some id.stamp ∧ x.held.getD id.idx false = false ∧ st ≠ .uncorrectable ∧ id.idx < 32 then
    let s := setSlot k { x with held := x.held.set id.idx true } s
    issueWrite .tape (slotBase s k + id.idx * Config.frameBytes) (padTo Config.frameBytes data) .plain s
  else s

/-- Open the segments up to M in turn (R145 case 3): the slot of M, or none when the frame is discarded. The splice read completes a segment
below M at once (R152). -/
def openUpTo (id : FrameId) (start : Pos) : Nat → State → State × Option Nat
  | 0, s => (s, none)
  | fuel + 1, s =>
    let n := s.rd.next
    if id.seg < n then (s, none)
    else
      let lead := if n = id.seg then some (backClamped start (Config.pitch * id.idx + Config.skipGap))
        else s.rd.lowEnd.map (fun p => backClamped p Config.skipGap)
      match openSegment lead s with
      | none => (pauseRead start s, none)
      | some (k, s) =>
        if n = id.seg then ({ s with mo.entry := 0 }, some k)
        else if n + 2 ≤ id.seg ∨ s.rd.user = some .splice then
          let r := completeSegment k s
          if r.2 || !goesOn r.1 then (r.1, none) else openUpTo id start fuel r.1
        else openUpTo id start fuel s

/-- The frame lies at or beyond a present EOD, in a read that EOD bounds (R145 case 1). -/
def beyondEod (s : State) (m : Nat) : Bool :=
  match s.cart.eod with
  | some e => decide (e.seg ≤ m) && decide (s.rd.user ≠ some .confirm)
  | none => false

/-- A frame is merged, and the scan sees whether it brings a trailer (R146, R152). -/
def takeMerged (k : Nat) (id : FrameId) (st : FrameStatus) (p : Pos) (data : List Byte) (s : State) : State :=
  scanAdvance (mergeFrame k id st p data s)

/-- The read segments that a frame of segment M completes (R145 case 3); the splice read keeps its segment alone, and the first frame of a
higher segment completes it (R152). -/
def overdue (s : State) (m : Nat) : List Nat :=
  (slotsIn isFetching s).filter (fun k => decide ((slotAt s k).seg + 2 ≤ m) || (decide (s.rd.user = some .splice) && decide ((slotAt s k).seg < m)))

/-- A read that has met a READ_ERROR and awaits no segment any more drains, when a lower segment that it tried again is done with (R151). -/
def restIfDone (s : State) : State :=
  if s.rd.user = some .records ∧ s.rd.state = .streaming ∧ s.rd.bad.isSome = true ∧ (slotsIn isFetching s).isEmpty = true then drainOnly s else s

/-- A frame of a segment above every read segment (R145 case 3): what it completes, what it opens, and its merge. -/
def frameAbove (id : FrameId) (st : FrameStatus) (p : Pos) (data : List Byte) (s : State) : State :=
  let r := completeAll (overdue s id.seg) s
  if r.2 || !goesOn r.1 || (decide (r.1.rd.user = some .splice) && !r.1.rd.rebuildQ.isEmpty) then restIfDone r.1
  else
    let o := openUpTo id p 3 r.1
    match o.2 with
    | none => o.1
    | some k => takeMerged k id st p data o.1

/-- A frame met by the stream that starts at p is judged (R145 to R152). -/
def judgeFrame (id : FrameId) (st : FrameStatus) (p : Pos) (data : List Byte) (s : State) : State :=
  if id.seg < s.rd.x ∨ beyondEod s id.seg = true then s
  else
    match fetchSlot s id.seg with
    | some k => takeMerged k id st p data s
    | none => if (slotsIn isFetching s).any (fun k => decide (id.seg < (slotAt s k).seg)) then s else frameAbove id st p data s

/-- A frame of the read-status stream (R145 to R152). Its end is held as the last frame end received (R59), and as that of a segment that
has been open where it has (R147). -/
def takeFrame (id : FrameId) (st : FrameStatus) (start : Nat) (data : List Byte) (s : State) : State :=
  let p : Pos := { pass := s.mo.pass, count := start }
  let beyond := beyondEod s id.seg
  let s := judgeFrame id st p data (consultBounds { s with rd.blank := 0 })
  if s.rd.user.isSome && !beyond then
    { s with rd.lastEnd := some (frameStop p), rd.lowEnd := if id.seg < s.rd.next then some (frameStop p) else s.rd.lowEnd }
  else s

end Sys2Proof.Machine
end

