-- ==== Sys2Proof/Machine/Delivery.lean ====
section
/-! DEFINITION. Decompression and delivery (R153 to R158): the slot in DRAINING is walked entry by entry and chunk by chunk, each
read through the internal class, and its records go out as pieces. -/

namespace Sys2Proof.Machine

/-- Room for a piece (R80). -/
def roomFor (s : State) (len : Nat) : Bool := decide (s.bp.pieces.length < 64) && decide (len ≤ ringZd s - s.bp.occupied)

/-- The next piece of the fragment now delivered (R154, R157). -/
def fragmentPiece (zd : Nat) (e : Entry) (sent : Nat) : PieceAsk :=
  let n := min (e.raw - sent) (zd / 2)
  let last := e.last && decide (sent + n = e.raw)
  { num := e.num, filemark := false, first := e.first && decide (sent = 0), last := last,
    status := if last && e.incomplete then 1 else 0, len := n }

/-- The segment lies below one in READ_ERROR, or there is none (R151, R156). -/
def belowBad (s : State) (n : Nat) : Bool :=
  match s.rd.bad with
  | some b => decide (n < b)
  | none => true

/-- The slot to drain next: DECODED, no lower segment still held, and none in READ_ERROR below it (R151, R153). -/
def nextDrain (s : State) : Option Nat :=
  match readSlots s with
  | k :: _ => if (slotAt s k).st = .decoded ∧ belowBad s (slotAt s k).seg = true then some k else none
  | [] => none

/-- Pieces of the record at the logical position have been delivered from a segment below the one in READ_ERROR (R156). -/
def begunBelow (s : State) : Bool := (s.rd.partly.map (belowBad s)).getD false

/-- The header-only piece of the unreadable record (R156). -/
def unreadablePiece (s : State) : PieceAsk :=
  { num := s.mo.lp.getD 0, filemark := false, first := !begunBelow s, last := true, status := 2, len := 0 }

/-! ### The walk (R153) -/

/-- The decompressor reads payload bytes of its slot. -/
def drainReadAt (d : Drain) (off n : Nat) (what : DrainRead) (s : State) : State :=
  issueRead .internal (slotBase s d.slot + off) n .drainRead { s with rd.drain := some { d with read := what } }

/-- A slot begins to drain: its trailer is read, and the history is empty (R153). -/
def drainBegin (k : Nat) (s : State) : State :=
  let s := setSlot k { slotAt s k with st := .draining } s
  let d : Drain := { slot := k, entries := 0, used := 0, entry := 0, cur := none, wanted := false, off := 0, made := 0, stored := 0,
                     out := [], sent := 0, read := .nothing }
  drainReadAt d Config.trailerAt 64 .trailer { s with rd.dhist := [] }

/-- The walk stands before an entry: it is read where there is one. -/
def drainEntry (d : Drain) (s : State) : State :=
  if d.entry < d.entries then drainReadAt d (entryAt d.entry) 16 .entry s else { s with rd.drain := some d }

/-- The walk past the entry under way. -/
def Drain.past (d : Drain) : Drain :=
  { d with entry := d.entry + 1, cur := none, made := 0, stored := 0, out := [], sent := 0, read := .nothing }

/-- What the walk of a slot does next: finish the piece whose room was granted, ask for the next piece, or read on (R153, R154). -/
def drainWalk (d : Drain) (s : State) : State :=
  match d.cur with
  | none => drainEntry d s
  | some e =>
    match s.rd.fill with
    | some a =>
      if a.len ≤ d.out.length then
        if d.sent + a.len = e.raw then writePiece a (d.out.take a.len) { s with rd.drain := some d.past } else pieceReady d a s
      else drainReadAt d d.off 4 .header s
    | none =>
      if d.wanted then { s with rd.ask := some (fragmentPiece (ringZd s) e d.sent) }
      else if d.made < e.raw then drainReadAt d d.off 4 .header s
      else drainEntry d.past s

/-- Go on as far as can be before a read returns or a piece is granted: begin the next slot, walk the slot that is draining, or
ask for the piece of the unreadable record (R153, R156). -/
def drainNext (s : State) : State :=
  if s.rd.user ≠ some .records ∨ s.rd.ended.isSome = true ∨ s.rd.ask.isSome = true ∨ s.rd.out.isSome = true then s
  else
    match s.rd.drain with
    | some d => if d.read = .nothing then drainWalk d s else s
    | none =>
      match nextDrain s with
      | some k => drainBegin k s
      | none =>
        if (readSlots s).all (fun k => !belowBad s (slotAt s k).seg) = true ∧ s.rd.fill = none ∧ s.rd.bad.isSome = true ∧ s.rd.after = none ∧
           s.rd.state = .drainingOnly then
          { s with rd.ask := some (unreadablePiece s) }
        else s

/-- The data has ended and every slot has been drained with fewer than n records delivered (R155). -/
def checkDataEnd (s : State) : State :=
  if s.rd.user = some .records ∧ s.rd.state = .drainingOnly ∧ s.rd.dataEnd = true ∧ (readSlots s).isEmpty = true ∧ s.rd.bad = none ∧
     s.rd.ended = none ∧ s.rd.ask = none ∧ s.rd.fill = none ∧ s.rd.out = none then
    let s := consultHead s
    endRead .endOfData { s with mo.lp := some (eodRec s) }
  else s

/-- Drain, and see whether the read has ended. -/
def drain (s : State) : State := checkDataEnd (drainNext s)

/-- A decode fault ends the segment in READ_ERROR at the point reached (R151, R153). -/
def decodeFault (d : Drain) (s : State) : State := drain (readErrorAt d.slot (withdrawPiece { s with rd.drain := none }))

/-- An entry has been read: a filemark is asked for as a piece of its own, and a zero-length fragment as a header-only piece; below
the discard point nothing is delivered (R153, R154, R157). A kind other than the two of R153 is taken as DATA: the model's choice, log
entry 42. -/
def entryRead (d : Drain) (e : Entry) (s : State) : State :=
  let wanted := match s.rd.discardPt with
    | some p => decide (p ≤ e.num)
    | none => true
  let s : State := { s with rd.discardPt := if wanted then none else s.rd.discardPt }
  if e.kind = 2 then
    let s : State := { s with rd.dhist := [] }
    let mark : PieceAsk := { num := e.num, filemark := true, first := true, last := true, status := 0, len := 0 }
    if wanted then { s with rd.drain := some d.past, rd.ask := some mark } else drainEntry d.past s
  else
    let s : State := { s with rd.dhist := if e.reset then [] else s.rd.dhist }
    if e.raw = 0 then
      if e.stored ≠ 0 then decodeFault d s
      else if wanted then { s with rd.drain := some d.past, rd.ask := some (fragmentPiece (ringZd s) e 0) }
      else drainEntry d.past s
    else drain { s with rd.drain := some { d with cur := some e, wanted := wanted } }

/-- A chunk's body has been read (R153). -/
def chunkRead (d : Drain) (body : List Byte) (compressed : Bool) (s : State) : State :=
  match d.cur with
  | none => s
  | some e =>
    match takeChunk d e s.rd.dhist body compressed with
    | none => decodeFault d s
    | some (d', hist) => drain { s with rd.drain := some d', rd.dhist := hist }

/-- The decompressor's read has returned. -/
def drainReturned (bs : List Byte) (s : State) : State :=
  match s.rd.drain with
  | none => s
  | some d =>
    let now : Drain := { d with read := .nothing }
    match d.read with
    | .nothing => s
    | .trailer => drain { s with rd.drain := some { now with entries := trailerEntries bs, used := trailerUsed bs } }
    | .entry => entryRead now (entryOf bs) s
    | .header =>
      match headerOf d bs with
      | none => decodeFault now s
      | some (comp, n) => if n = 0 then chunkRead now [] comp s else drainReadAt d (d.off + 4) n (.body comp n) s
    | .body comp _ => chunkRead now bs comp s

/-- The lead-in point of the segment that holds the record after the one just delivered, where it is known (R158). -/
def nextLead (s : State) : Option StartPoint :=
  match s.rd.drain with
  | none => none
  | some d =>
    let x := slotAt s d.slot
    if d.entry < d.entries then x.leadIn.map (fun p => { pos := p, seg := x.seg })
    else
      match (readSlots s).find? (fun k => decide ((slotAt s k).seg = x.seg + 1)) with
      | some k => (slotAt s k).leadIn.map (fun p => { pos := p, seg := x.seg + 1 })
      | none => none

/-- A record's LAST piece has been written (R155, R156). -/
def recordDelivered (a : PieceAsk) (s : State) : State :=
  let s := countRecord a s
  if a.status = 2 then endRead .readError s
  else
    let s := { s with rd.endLead := nextLead s }
    if a.filemark then endRead .filemarkSeen s
    else if s.rd.wanted ≤ s.rd.delivered then endRead .ok s
    else s

/-- The header write of a piece has been granted (R80, R154). -/
def headerGranted (start : Nat) (s : State) : State :=
  let mine := decide ((s.bp.pieces.getLast?.map Piece.start) = some start)
  let s : State := { s with bp.pieces := s.bp.pieces.map (fun (p : Piece) => if p.start = start ∧ p.state = .writing then { p with state := .written } else p) }
  match s.rd.out with
  | none => s
  | some a =>
    if mine then
      let s : State := { s with rd.out := none }
      if s.rd.user = some .records ∧ s.rd.ended = none then
        drain (if a.last then recordDelivered a s else { s with rd.partly := s.rd.partly.orElse (fun _ => s.rd.drain.map (fun d => (slotAt s d.slot).seg)) })
      else s
    else s

/-- Room is granted to the piece asked for: it joins the piece list, and its data is produced; a header-only piece is written at
once (R80, R154). -/
def grantRoom (s : State) : State :=
  match s.rd.ask, s.bp.layout with
  | some a, some l =>
    let len := pieceLen a.len
    if roomFor s len then
      let at_ := s.bp.wpos
      let s := { s with bp.pieces := s.bp.pieces ++ [{ start := at_, len := len, state := .writing }], bp.wpos := (at_ + len) % l.zd,
                        bp.occupied := s.bp.occupied + len, rd.ask := none, rd.fill := some a }
      if a.len = 0 then writePiece a [] s else drain s
    else s
  | _, _ => s

/-- The last entry of the DRAINING slot has been walked: the slot is freed (R153). -/
def slotDrained (s : State) : State :=
  match s.rd.drain with
  | none => s
  | some d =>
    if decide (d.read = .nothing) && d.cur.isNone && s.rd.ask.isNone && s.rd.fill.isNone && s.rd.out.isNone && decide (d.entries ≤ d.entry) then
      drain (freeSlot d.slot { s with rd.drain := none })
    else s

end Sys2Proof.Machine
end

