-- ==== Sys2Proof/Machine/Cartridge.lean ====
section
/-! DEFINITION. The Cartridge Handler's steps (Chapter 1, with the cleaning run of Chapter 9): load, retries, give-up, unload,
FAULTED, record adoption; and how the running operations end when the motion is lost. -/

namespace Sys2Proof.Machine

/-! ### Ends of TRANSPORT operations -/

/-- UNLOAD_DONE with the status and the payload of the request; its post raises ATTN_UNLOADED (R194, R197). -/
def unloadDone (st : Status) (payload : List Byte) (s : State) : State :=
  let s := postJobEnd .transport (noticeRecord .unloadDone ([byteOf st.code] ++ payload)) (noteStatus st s)
  startAttention { s with li.attnUnloaded := true }

/-- The operation in TRANSPORT's running place ends with a status: a completion, LOAD_DONE or UNLOAD_DONE (R5, R183, R194). A
command whose own row has not come yet is not touched. -/
def endTransport (st : Status) (s : State) : State :=
  let jb := s.ci.transport
  if jb.finishing then s
  else
    match jb.running with
    | some (.cmd c) =>
      if jb.judged then
        match c.op with
        | .locate _ _ => complete .transport st 0 (.position [] s.mo.lp) s
        | _ => completeWith .transport st s
      else s
    | some .autoLoad => postJobEnd .transport (noticeRecord .loadDone [byteOf st.code]) (noteStatus st s)
    | some (.autoUnload p) => unloadDone st p s
    | none => s

/-- The WRITE and READ jobs lose the motion: a session goes to ERROR, a splice and a read end MOTION_FAULT (R4, R36, R65). -/
def loseOperations (s : State) : State :=
  let s := { s with pw.waiters := [] }
  let s := match runningOp .write s with
    | some (.writeOpen _ _) => if s.ci.write.judged then spliceEnds .motionFault s else s
    | _ => s
  let s := match runningOp .read s with
    | some (.readRecords _) => if s.ci.read.judged then failRead s else s
    | some .readAbort => if s.ci.read.judged then completeWith .read .motionFault s else s
    | _ => s
  let s := { s with rd.aborted := false }
  let s := if s.rd.user.isSome then readerIdle (freeReadSlots s) else s
  sessionError .motionFault s

/-- Entry to FAULTED; the running TRANSPORT operation ends with `st` (R4). -/
def enterFaulted (st : Status) (s : State) : State :=
  let s := setTransport .faulted (zeroAll s)
  let s := endRecovery { s with re.brake := true, ch.step := none, mo.recal := false }
  let s := endTransport st (cleaningFailed (holdIdle s))
  settle (loseOperations s)

/-! ### Unload (R17 to R19) -/

/-- EJECT has completed (R7, R11, R18, R173). -/
def finishEject (s : State) : State :=
  let st := match s.ch.transport, s.ci.transport.running with
    | .loading, _ => s.ch.ejectStatus
    | _, some (.cmd { op := .load, .. }) | _, some .autoLoad => .cleaned
    | _, _ => .ok
  let s := setTransport .empty s
  let s := { s with ch.recordHeld := false, ch.step := none, ch.tab := none, he.cleanDist := none, he.useCounted := false }
  endTransport st (postNotice .cartridgeRemoved [] s)

/-- The EJECT step begins; an open seat completes it. -/
def startEject (s : State) : State := if s.ch.seat then setStep .eject s else finishEject (setStep .eject s)

/-- The TAG_WRITE step (R19, R170): Health's part first, then the tag. -/
def startTagWrite (s : State) : State :=
  let s := healthAtTagWrite s
  if s.ch.recordHeld && !s.ch.tagUnreadable then
    let c := { s.cart with openFlag := false }
    let s := putCart c s
    setStep .tagWrite { s with ch.tagOut := [(0, cartImage c)], ch.tagRest := tagRestOf (cartImage c) }
  else startEject s

/-- The HUB_RELEASE step. -/
def startHubRelease (s : State) : State := if s.ch.hub then setStep .hubRelease s else startTagWrite s

/-- The PIN_RELEASED step. -/
def startPinRelease (s : State) : State := if s.ch.pin then setStep .pinRelease s else startHubRelease s

/-- The THREAD_RETURN step. -/
def startThreadReturn (s : State) : State := driveArm .towardHome (setStep .threadReturn s)

/-- Tension is taken down: the brake, and the duties then active (R31). -/
def startTensionDown (x : Step) (s : State) : State :=
  { s with ch.step := some x, re.brake := true, re.downK := 0, re.downDt := s.re.tak.fall - s.re.tak.rise,
           re.downDs := s.re.sup.fall - s.re.sup.rise, re.limSup := 0, re.limTak := 0, re.exc := 0, re.stall := 0,
           re.excDue := false, re.stallDue := false, mo.v := 0 }

/-- The search of R56: toward count 0 at thread speed until the servo locks. -/
def startSearch (g : Goal) (s : State) : State :=
  let s := motionStart s
  { s with mo.recal := true, mo.v := Config.threadSpeed, mo.dest := Config.threadSpeed, mo.dir := .reverse, mo.legs := [],
           mo.goal := g, mo.stopping := false, mo.into := none }

/-- To BOT at locate speed from a known position (R18). On a pass other than 0 the tape goes to BOT's count on the pass it is on,
and the pass is changed there, at rest (R43): the model's choice, log entry 36. -/
def rewindLegs (s : State) : List Leg :=
  if s.mo.pass = 0 then [moveLeg .locate bot Config.locateSpeed]
  else [{ mode := .locate, pass := none, target := some Config.regionLow, speed := Config.locateSpeed }, moveLeg .locate bot Config.locateSpeed]

/-- The rewind of an unload: the cleaning rewind while a cleaning distance is held, the search of RECALIBRATE where the position
is not known, else to BOT at locate speed (R18, R173). -/
def startRewind (s : State) : State :=
  let known := decide (s.mo.quality ≠ .unknown)
  let s := setTransport .unloading { s with ch.step := some .rewind }
  if s.he.cleanDist.isSome && s.cart.cleaning then
    let s := motionStart s
    { s with mo.v := Config.locateSpeed, mo.dest := Config.locateSpeed, mo.dir := .reverse, mo.legs := [], mo.goal := .rewind,
             mo.stopping := false, mo.into := none }
  else if known then startPlan (rewindLegs s) .rewind s
  else startSearch .recalSearch s

/-- From FAULTED: the first step that the sensors show is still needed (R17). -/
def startUnloadFaulted (s : State) : State :=
  if s.ch.tape then startRewind s
  else
    let s := setTransport .unloading s
    if 200 < s.ch.arm then startThreadReturn s
    else if s.ch.pin then setStep .pinRelease s
    else if s.ch.hub then setStep .hubRelease s
    else startTagWrite s

/-- The tag is read into a scratch copy before any directory field is used (R22). For an UNLOAD the transport is still UNPOSITIONED
meanwhile: the model's choice, log entry 35. -/
def startAdopt (s : State) : State := setStep (.adopt false) s

/-- The unload steps begin from the state reached (R17, R18, R22). -/
def beginUnload (s : State) : State :=
  match s.ch.transport with
  | .faulted => startUnloadFaulted s
  | .unpositioned => if s.ch.recordHeld then startRewind s else startAdopt s
  | _ => startRewind s

/-- An unload step fails: FAULTED, MOTION_FAULT for the rewind and THREAD_FAILED for the others (R18). -/
def unloadFails (s : State) : State :=
  enterFaulted (if s.ch.step = some .rewind then .motionFault else .threadFailed) s

/-! ### Load (R5 to R13) -/

/-- A load is taken (R5). -/
def beginLoad (s : State) : State :=
  let s := setTransport .loading s
  setStep (.tagRead false) { s with ch.attempt := 1, ch.giveUp := false, mo.meter := 0, he.cleanDist := none, he.useCounted := false }

/-- THREAD_PULL begins (R8, R30). -/
def startThreadPull (s : State) : State := driveArm .towardPull (setStep .threadPull s)

/-- PIN_CAPTURE begins; a pin already captured completes it at once. -/
def startPinCapture (s : State) : State :=
  if s.ch.pin then startThreadPull s else driveArm .towardPull (setStep .pinCapture s)

/-- HUB_ENGAGE begins; a hub already engaged completes it at once (R21). -/
def startHubEngage (s : State) : State := if s.ch.hub then startPinCapture s else setStep .hubEngage s

/-- The load runs its own EJECT step (R7, R11). -/
def loadEject (st : Status) (s : State) : State := startEject { s with ch.ejectStatus := st }

/-- What follows the release of the hub within a load: the next attempt, or EJECT (R10, R11). -/
def afterBackHub (s : State) : State := if s.ch.giveUp then loadEject .threadFailed s else startHubEngage s

/-- The hub is released within a load. -/
def startBackHub (s : State) : State := if s.ch.hub then setStep .backHub s else afterBackHub s

/-- The arm is driven home within a load. -/
def startBackArm (s : State) : State := driveArm .towardHome (setStep .backArm s)

/-- A step of the load fails (R8 to R11). -/
def loadStepFails (s : State) : State :=
  let last := decide (3 ≤ s.ch.attempt)
  let s := { s with ch.attempt := min 3 (s.ch.attempt + 1), ch.giveUp := last }
  let s := if last then cleaningFailed s else s
  match s.ch.step with
  | some .hubEngage => if last then loadEject .threadFailed s else setStep .hubEngage s
  | some .pinCapture | some .armHomeForCapture => driveArm .towardHome (setStep .armHomeForCapture s)
  | some .threadPull => startBackArm (stopArm s)
  | some .tensionUp | some .servoAcquire => startTensionDown .backTension s
  | _ => s

/-- What the cartridge is (R7), when the tag read has ended. -/
def decideCartridge (s : State) : State :=
  if s.ch.tagUnreadable then startHubEngage s
  else
    let c := s.cart
    if c.cleaning then
      if c.uses = 50 then loadEject .cleanCartExpired s else startHubEngage (enterCleaning s)
    else if c.gen = 3 ∨ c.gen = 2 then startHubEngage s
    else loadEject .unsupportedMedia s

/-- A tag image goes into the cartridge record area as it arrives, whether it passes or not (R6). -/
def putRaw (bs : List Byte) (s : State) : State :=
  match s.bp.layout with
  | none => s
  | some l => issueWrite .internal l.cartBase (bs.take Config.cartBytes) .plain s

/-- Write a tag image to the cartridge record area; uses above 50 are set to 50 (R6). -/
def putImage (bs : List Byte) (s : State) : State :=
  match s.bp.layout with
  | none => s
  | some l =>
    let bs := if bitAt bs 13 1 && decide (50 < field bs 14 1) then cartImage (cartOf bs) else bs
    issueWrite .internal l.cartBase bs .plain s

/-- The area's record after an adoption: "record held", confirmed by its open flag (R22). -/
def adopted (unreadable : Bool) (s : State) : State :=
  noteTarget { s with ch.recordHeld := true, ch.tagUnreadable := unreadable, ch.eodConfirmed := !s.cart.openFlag, ch.step := none, wr.openAsked := false }

/-- The choice of R22: the tag's image, or none when the tag read failed. -/
def adoptRecord (tag : Option (List Byte)) (s : State) : State :=
  let area := cartArea s
  let s := consultCart s
  match tag with
  | some bs =>
    if cartCheck area = true ∧ slice area 0 8 = slice bs 0 8 then adopted false s else adopted false (putImage bs s)
  | none => if cartCheck area then adopted true s else adopted true (putRaw (cartImage blankCart) s)

/-- RECALIBRATE's search begins: ACTIVE, mode LOCATE (R56). -/
def beginRecalibrate (s : State) : State :=
  let s := setTransport .active s
  startSearch .recalSearch { s with mo.mode := some .locate }

/-- After an adoption, the command that waited for it goes on (R22). -/
def afterAdopt (s : State) : State :=
  match s.ci.transport.running with
  | some (.cmd { op := .recalibrate, .. }) => beginRecalibrate s
  | some (.cmd { op := .unload _, .. }) | some (.autoUnload _) => startRewind s
  | _ => s

/-- TAG_READ ends with an image that passes, or fails; one retry at once (R6, R22). -/
def tagReadEnds (img : Option (List Byte)) (s : State) : State :=
  let good := match img with
    | some bs => if tagGood bs then some bs else none
    | none => none
  match s.ch.step with
  | some (.tagRead retry) =>
    match good with
    | some bs =>
      let s := putImage bs { s with ch.tagRest := tagRestOf bs }
      let c := s.cart
      decideCartridge { s with ch.tagUnreadable := false, ch.eodConfirmed := !c.openFlag }
    | none =>
      let s := putRaw (img.getD []) s
      if retry then decideCartridge { putRaw (cartImage blankCart) s with ch.tagUnreadable := true, ch.eodConfirmed := false }
      else setStep (.tagRead true) s
  | some (.adopt retry) =>
    match good with
    | some bs => afterAdopt (adoptRecord (some bs) { s with ch.tagRest := tagRestOf bs })
    | none => if retry then afterAdopt (adoptRecord none s) else setStep (.adopt true) s
  | _ => s

/-- The load count rises in the record, saturating (R13, R172). -/
def countLoad (s : State) : State :=
  let c := s.cart
  putCart { c with loads := satInc16 c.loads } s

/-- The end of a DATA load: READY, the tally, LOAD completes OK (R13 steps 5 to 7, R44, R55, R144). -/
def finishLoad (s : State) : State :=
  let s := toReady s
  let s := loadTally { s with mo.lp := some 0, mo.warned := false, wr.openAsked := false, ch.step := none,
                              rd.start := some { pos := bot, seg := 0 } }
  endTransport .ok s

/-- The EOD confirmation begins: the tape is located as for LOCATE's target EOD, or to BOT where EOD is absent (R15, R46). -/
def beginConfirm (s : State) : State :=
  let s := setTransport .active (consultCart { s with ch.step := none, ch.eodConfirmed := false })
  let place := eodPlace s
  let s := { s with rd.user := some .confirm, rd.state := .starting, rd.x := eodSeg s, rd.next := eodSeg s, rd.blank := 0, rd.dataEnd := false,
                    rd.lastEnd := none, rd.lowEnd := none, mo.entry := 0 }
  locateTo place .readGo s

/-- SERVO_ACQUIRE completes for a DATA cartridge (R13). -/
def loadComplete (s : State) : State :=
  let s := countLoad s
  let s := { s with ch.recordHeld := true, mo.pass := 0, mo.named := 0, mo.count := Config.regionLow, mo.quarter := 0, mo.quality := .locked, mo.locked := true }
  if s.cart.openFlag then beginConfirm s else finishLoad s

/-- TENSION_UP completes for a cleaning cartridge: the run begins (R172). -/
def beginCleanRun (s : State) : State :=
  let s := countLoad { s with ch.recordHeld := true }
  let s := setTransport .active { s with ch.step := none, mo.mode := some .cleanRun }
  { s with he.tally := .clear, he.cleanDist := some 0, he.useCounted := false, mo.entry := 0, mo.dir := .forward,
           mo.v := Config.threadSpeed, mo.dest := Config.threadSpeed, mo.legs := [], mo.goal := .none, mo.stopping := false }

/-- The cleaning takes effect at rest, and the unload begins (R173). -/
def cleaningDone (s : State) : State :=
  let s := changeClean .ok .cleaned s
  let s := { s with he.meters := 0, he.escCount := 0, he.history := s.he.history.map (fun e => { e with after := false }) }
  startRewind s

/-- A seat loss during LOADING (R12). The hub's release is taken as made at once: the model's choice, log entry 35. -/
def loadSeatLoss (s : State) : State :=
  let s := zeroAll s
  if s.ch.tape then enterFaulted .threadFailed s
  else
    let s := cleaningFailed { s with ch.step := none, ch.tab := none, ch.hub := false }
    let s := postNotice .cartridgeRemoved [] (setTransport .empty s)
    endTransport .threadFailed s

end Sys2Proof.Machine
end

