-- ==== Sys2Proof/Machine/Writer.lean ====
section
/-! DEFINITION. The Frame Writer and Verify Tracker (R50 to R54, R111 to R121, R136): failures, abandonment, skip, WRITE_ERROR,
commit, and the answer to a frame slot. -/

namespace Sys2Proof.Machine

/-! ### Failures and abandonment (R116 to R118) -/

/-- Set one frame entry of a slot. -/
def setFrame (k i : Nat) (v : FrameEntry) (s : State) : State :=
  let x := slotAt s k
  setSlot k { x with frames := x.frames.set i v } s

/-- One frame entry of a slot. -/
def frameAt (s : State) (k i : Nat) : FrameEntry := (slotAt s k).frames.getD i { st := .unwritten, count := 0 }

/-- The following segment: the other ON_TAPE segment when its number is one greater (R116). -/
def followingOf (s : State) (k : Nat) : Option Nat :=
  (slotsIn isOnTape s).find? (fun j => decide ((slotAt s j).seg = (slotAt s k).seg + 1))

/-- A slot belongs to an abandonment. -/
def Abandonment.has (a : Abandonment) (k : Nat) : Bool := decide (a.slot = k) || decide (a.following = some k)

/-- Verify entries of the abandoned and the following segments become void; their frames leave the rewrite queue (R117). -/
def voidFrames (a : Abandonment) (s : State) : State :=
  { s with wr.verifyQ := s.wr.verifyQ.map (fun v => if a.has v.slot then { v with isVoid := true } else v),
           wr.rewriteQ := s.wr.rewriteQ.filter (fun q => !a.has q.1) }

/-- An ON_TAPE segment of a skip: every frame UNWRITTEN, placement 2, still ON_TAPE (R117 step 3). -/
def secondPlacement (k : Nat) (s : State) : State :=
  if (slotAt s k).st = .onTape then setSlot k { freshSlot .onTape (slotAt s k).seg with placement := 2 } s else s

/-- WRITE_ERROR (R118): the writing stops, the session enters ERROR, the tape is ramped to rest. -/
def meetWriteError (s : State) : State :=
  let s := sessionError .writeError (dropWriter { s with wr.pendingEnd := .abort })
  let s := event .writeError s
  if s.ch.transport = .active then
    if s.mo.mode = some .recovery ∨ s.mo.mask = true then stopThen (.afterEndedRecovery false) (endRecovery { s with wr.pendingEnd := .none })
    else stopThen .toReady { s with wr.pendingEnd := .none }
  else s

/-- The skip without its gap: steps 1 to 4 of R117. -/
def skipSlots (a : Abandonment) (s : State) : State :=
  let s := voidFrames a { s with wr.abandon := none, wr.heldF0 := none, mo.bandTo := none, wr.turnWait := false, wr.skipStart := none }
  let s := secondPlacement a.slot s
  let s := match a.following with
    | some k => secondPlacement k s
    | none => s
  event .segmentSkip s

/-- The ramp to the decided band in a gap before a frame 0 that is held for its planned start (R52); the band is applied at that
start (R136). -/
def rampToBand (s : State) : State :=
  { s with mo.mode := some .ramp, mo.into := some .writeStream, mo.bandTo := some s.sp.c, mo.dest := bandSpeed s.sp.c, mo.stopping := false }

/-- The skip in a stream: the gap, or the turn in its place (R117 step 5); a band change is ramped inside the gap (R113). The second
placement's frame 0 starts no nearer than the gap also where a rewrite of the older segment has put the turn off (log entry 43). -/
def skipInStream (a : Abandonment) (s : State) : State :=
  let s := skipSlots a s
  let p := s.mo.lastEnd
  let start := ahead p.pass p.count Config.skipGap
  let s := { s with wr.skipStart := some { p with count := start } }
  if roomAfter s.mo.pass start < Config.segmentRoom ∧ s.mo.pass < 47 then { s with wr.turnWait := true }
  else
    let s := { s with mo.planned := start }
    if s.mo.band ≠ s.sp.c ∧ s.wr.rewriteQ = [] then rampToBand { s with wr.heldF0 := some a.slot } else s

/-- An ON_TAPE slot is given up: it returns to SEALED (R127), or is freed where the session has been closed meanwhile (R125; the
model's choice, log entry 37). -/
def giveUpSlot (k : Nat) (s : State) : State := if s.ri.session = .closed then freeSlot k s else backToSealed k s

/-- After END_OF_TAPE an abandonment returns its segments to SEALED without a skip (R127). -/
def abandonAtEot (a : Abandonment) (s : State) : State :=
  let s := voidFrames a { s with wr.abandon := none }
  let s := giveUpSlot a.slot s
  match a.following with
  | some k => giveUpSlot k s
  | none => s

/-- Either segment of an abandonment is in placement 2 (R116). -/
def secondAlready (a : Abandonment) (s : State) : Bool :=
  decide ((slotAt s a.slot).placement = 2) || (match a.following with
    | some k => decide ((slotAt s k).placement = 2)
    | none => false)

/-- An abandonment is decided (R116): WRITE_ERROR or the return after END_OF_TAPE at once, a skip at the next frame boundary. -/
def abandonPlacement (a : Abandonment) (s : State) : State :=
  let s := { s with wr.verifyQ := s.wr.verifyQ.map (fun v => if a.has v.slot then { v with isVoid := true } else v) }
  if s.wr.eot then abandonAtEot a s
  else if secondAlready a s then meetWriteError s
  else if s.wr.tx.isSome then { s with wr.abandon := some a }
  else skipInStream a s

/-- The frame meets no limit of its placement (R116). -/
def mayRewrite (s : State) (k i : Nat) : Bool :=
  decide ((frameAt s k i).count < 4) && decide ((slotAt s k).rewrites < 8) && decide (s.wr.rewriteQ.length < 16)

/-- Queue a failed frame for rewrite (R116). -/
def queueRewrite (k i : Nat) (s : State) : State :=
  let s := setFrame k i { frameAt s k i with st := .rewriteQueued } s
  let s := setSlot k { slotAt s k with rewrites := (slotAt s k).rewrites + 1 } s
  { s with wr.rewriteQ := s.wr.rewriteQ ++ [(k, i)] }

/-- A frame fails its verify (R115, R116). -/
def failFrame (k i : Nat) (s : State) : State :=
  if mayRewrite s k i then event .frameRewrite (queueRewrite k i s)
  else abandonPlacement { slot := k, following := followingOf s k } s

/-! ### Commit (R120) -/

/-- Commit the segment in slot k. -/
def commitSlot (k : Nat) (s : State) : State :=
  let x := slotAt s k
  let first := trailerFirst (slotTrailer s k)
  let rec_ := segmentNextRec s k
  let f0 := x.f0.getD bot
  let s := consultLast k (consultSlot k Config.trailerAt 64 s)
  let c := enterSegment x.seg first f0 s.cart
  let ask := !s.wr.openAsked && !s.ch.tagUnreadable
  let eod : Eod := { seg := x.seg + 1, firstRec := rec_, pos := s.mo.lastEnd }
  let c : Cart := { c with eod := some eod, openFlag := c.openFlag || ask }
  let s := putCart c { s with mo.lp := some rec_, rd.start := none }
  let s := if ask then { s with wr.openAsked := true, wr.openBusy := true, ch.tagOut := tagBlock c s.ch.tagRest } else s
  checkClose (checkFlush (freeSlot k s))

/-- Commit the oldest ON_TAPE segment while all its frames are GOOD; at most two are ON_TAPE (R120). -/
def commitReady : Nat → State → State
  | 0, s => s
  | n + 1, s =>
    match slotsIn isOnTape s with
    | k :: _ => if (slotAt s k).frames.all (fun f => decide (f.st = .good)) then commitReady n (commitSlot k s) else s
    | [] => s

/-! ### Verify results (R115) -/

/-- A result of the read-status stream (R115, R119). -/
def verifyResult (id : FrameId) (st : FrameStatus) (s : State) : State :=
  if s.wr.discard then s
  else
    match s.wr.verifyQ with
    | [] => s
    | v :: rest =>
      let s := { s with wr.verifyQ := rest }
      if v.isVoid then s
      else if v.id ≠ id then failFrame v.slot v.idx s
      else
        match st with
        | .uncorrectable => failFrame v.slot v.idx s
        | .good => commitReady 2 (setFrame v.slot v.idx { frameAt s v.slot v.idx with st := .good } s)
        | .corrected n =>
          let s := setFrame v.slot v.idx { frameAt s v.slot v.idx with st := .good } s
          commitReady 2 (if s.sp.policy.heavy < n then event .frameHeavy s else s)

/-! ### Frame slots (R50 to R53, R112 to R114, R136) -/

/-- The next planned start on the pass. -/
def nextSlot (s : State) : State := { s with mo.planned := ahead s.mo.pass s.mo.planned Config.pitch }

/-- Send a frame at the planned start (R114). A frame 0 sets the entry count to 0 (R65), and the first frame 0 of a placement
sets the frame 0 position and applies the band it was fixed for (R113, R136); a SEALED slot then enters ON_TAPE, of which there are at most
two (R108). -/
def sendFrame (k i : Nat) (s : State) : State :=
  let x := slotAt s k
  let f := frameAt s k i
  let at_ : Pos := { pass := s.mo.pass, count := s.mo.planned }
  let new := decide (i = 0) && decide (f.st = .unwritten)
  let fits := decide ((s.sm.slots.filter (fun y => isOnTape y.st)).length < 2)
  let x := { x with st := if new && isSealed x.st && fits then .onTape else x.st, frames := x.frames.set i { st := .inVerify, count := f.count + 1 }, f0 := if new then some at_ else x.f0 }
  let s := setSlot k x s
  let id : FrameId := { seg := x.seg, idx := i, placement := x.placement, stamp := s.wr.stamp }
  let s := { s with wr.tx := some { slot := k, idx := i, start := at_, bytes := [] }, wr.discard := false, mo.mode := some .writeStream,
                    mo.entry := if i = 0 then 0 else s.mo.entry, wr.heldF0 := if new then none else s.wr.heldF0,
                    wr.skipStart := if new then none else s.wr.skipStart,
                    mo.band := if new then s.mo.bandTo.getD s.mo.band else s.mo.band, mo.bandTo := if new then none else s.mo.bandTo,
                    wr.verifyQ := s.wr.verifyQ ++ [{ slot := k, idx := i, id := id, isVoid := false }] }
  let s := issueRead .tape (slotBase s k + i * Config.frameBytes) Config.frameBytes .txFrame s
  event .frameWritten (nextSlot s)

/-- The turn inside a write session: on in the old direction to the standing point of the next pass's region start (R51). -/
def beginTurn (g : Goal) (s : State) : State :=
  let p := s.mo.pass
  let stop := standing { pass := p + 1, count := regionStart (p + 1) }
  let s := motionStart s
  beginLegs [{ mode := .turn, pass := none, target := some stop.count, speed := bandSpeed s.mo.band }] { s with mo.goal := g, mo.bandTo := none, mo.passWait := false }

/-- The session meets END_OF_TAPE (R113, R127): no new frame 0 is started. -/
def meetEndOfTape (s : State) : State := sessionError .endOfTape s

/-- A backhitch after a run-out (R54). -/
def beginBackhitch (s : State) : State :=
  let e := s.mo.lastEnd
  let p : Pos := { e with count := ahead e.pass e.count Config.pitch }
  startPlan [stopLeg .backhitch, moveLeg .backhitch (standing p) Config.moveSpeed] .waitData { s with mo.resume := some p }

/-- An UNLOAD runs on the TRANSPORT job (R17, R194). -/
def unloadRuns (s : State) : Bool :=
  match s.ci.transport.running with
  | some (.autoUnload _) => true
  | some (.cmd c) => s.ci.transport.judged && (match c.op with | .unload _ => true | _ => false)
  | _ => false

/-- The run-out has completed: the turn that waits for it, or the end the writer names (R51, R53, R112, R127). An unload that
waits for it goes on when the tape rests (R17). -/
def runoutEnds (s : State) : State :=
  if s.wr.pendingEnd = .abort then stopThen (if unloadRuns s then .stopThenUnload else .toReady) { s with wr.pendingEnd := .none, wr.verifyQ := [], wr.rewriteQ := [] }
  else if s.wr.turnWait then beginTurn .turnWrite s
  else if s.wr.pendingEnd = .stop ∨ s.ri.session = .closed ∨ (s.ri.session = .error ∧ (softError s = false ∨ nothingToWrite s = true)) then
    stopThen (if unloadRuns s then .stopThenUnload else .toReady) { s with wr.pendingEnd := .none }
  else beginBackhitch s

/-- The writer declines a slot (R53, R121). -/
def declineSlot (s : State) : State :=
  if s.wr.verifyQ = [] ∨ s.wr.pendingEnd = .abort then runoutEnds s else nextSlot { s with mo.mode := some .runout }

/-- The later of a count and the end of a skip's gap on the pass (R117 step 5). -/
def behindSkip (c : Nat) (s : State) : Nat :=
  match s.wr.skipStart with
  | some p => if p.pass = s.mo.pass ∧ reached p.pass c p.count = false then p.count else c
  | none => c

/-- A frame 0 is chosen: where may it start (R51, R52, R113, R117)? `from_` is the next slot's start. The slot at which END_OF_TAPE is met
is passed: the model's choice where the manual is silent, log entry 43. -/
def startFrame0 (k from_ : Nat) (s : State) : State :=
  let change := decide (s.mo.bandTo.getD s.mo.band ≠ s.sp.c)
  let start := behindSkip (if change then ahead s.mo.pass from_ Config.rampGap else from_) s
  if Config.segmentRoom ≤ roomAfter s.mo.pass start then
    if change then rampToBand { s with wr.heldF0 := some k, mo.planned := start }
    else if start = s.mo.planned then sendFrame k 0 s
    else { s with wr.heldF0 := some k, mo.planned := start }
  else if s.mo.pass < 47 then declineSlot { s with wr.turnWait := true, wr.heldF0 := some k, mo.bandTo := none }
  else nextSlot (meetEndOfTape s)

/-- A frame 0 that was held for its planned start is about to begin there: R136's check; a start that a full verify queue has put
off is judged by R51 again. -/
def heldFrame0 (k : Nat) (s : State) : State :=
  if s.he.clean = .required ∧ s.mo.bandTo.getD s.mo.band ≠ 0 then startFrame0 k (ahead s.mo.pass s.mo.planned Config.pitch) s
  else if Config.segmentRoom ≤ roomAfter s.mo.pass s.mo.planned then sendFrame k 0 s
  else startFrame0 k s.mo.planned s

/-- The slot offered is the first of its stream: it starts at the resume point of a restart, or at the region start after a turn (R50, R51,
R54). -/
def firstOfStream (s : State) : Bool :=
  decide (s.mo.resume = some { pass := s.mo.pass, count := s.mo.planned }) || decide (s.mo.planned = regionStart s.mo.pass)

/-- A frame 0 is chosen at the slot offered (R113). Where it is the first of a stream whose band was fixed before the cleaning state became
CLEAN_REQUIRED, that slot is left blank and its start is fixed from the next one (R136). -/
def chooseFrame0 (k : Nat) (s : State) : State :=
  startFrame0 k (if s.he.clean = .required ∧ s.mo.band ≠ 0 ∧ firstOfStream s = true then ahead s.mo.pass s.mo.planned Config.pitch else s.mo.planned) s

/-- The lowest-indexed UNWRITTEN frame of the lowest ON_TAPE segment that has one (R112 case 3). -/
def unwrittenFrame (s : State) : Option (Nat × Nat) :=
  (slotsIn isOnTape s).findSome? (fun k =>
    ((List.range 32).find? (fun i => decide ((frameAt s k i).st = .unwritten))).map (fun i => (k, i)))

/-- The oldest SEALED segment whose frame 0 may be chosen (R112 case 4). -/
def sealedFrame0 (s : State) : Option Nat :=
  let tape := slotsIn isOnTape s
  match slotsIn isSealed s with
  | k :: _ =>
    if !s.wr.turnWait && !s.wr.eot && writerLive s && decide (tape.length < 2) &&
       tape.all (fun j => decide ((slotAt s j).seg + 2 ≠ (slotAt s k).seg)) then some k else none
  | [] => none

/-- The writer's answer to a slot offered (R112): a frame 0 held for its planned start goes there, ahead of a rewrite queued in its
gap (R52); the slots of a session whose tag write has not ended are passed (R86). The slot at which an UNWRITTEN frame 0 sends its segments
back to SEALED after END_OF_TAPE is passed too: the model's choice where the manual is silent, log entry 43. -/
def frameSlot (s : State) : State :=
  if s.wr.pendingEnd = .abort ∨ (s.ri.session = .closed ∧ (slotsIn isOnTape s).isEmpty = true) then declineSlot s
  else if s.wr.countBusy ∨ 4 ≤ s.wr.verifyQ.length then nextSlot s
  else
    match (if s.wr.turnWait then none else s.wr.heldF0), s.wr.rewriteQ with
    | some k, _ => heldFrame0 k s
    | none, (k, i) :: rest => sendFrame k i { s with wr.rewriteQ := rest, wr.turnWait := false, wr.heldF0 := none }
    | none, [] =>
      match unwrittenFrame s with
      | some (k, i) =>
        if i = 0 then
          if s.wr.eot then nextSlot (abandonAtEot { slot := k, following := followingOf s k } s)
          else if s.wr.turnWait then declineSlot s
          else chooseFrame0 k s
        else sendFrame k i s
      | none =>
        match sealedFrame0 s with
        | some k => chooseFrame0 k s
        | none => declineSlot s

/-- FRAME_SLOT may be taken: a write stream has reached its planned start with no frame in transmission (R50). -/
def slotDue (s : State) : Bool :=
  decide (s.ch.transport = .active) && (decide (s.mo.mode = some .writeStream) || decide (s.mo.mode = some .runout)) &&
    s.wr.tx.isNone && reached s.mo.pass s.mo.count s.mo.planned

/-- A frame has started more than 24 counts from its planned start (R50). -/
def slipped (before after : State) : Bool :=
  match after.wr.tx with
  | some t => before.wr.tx.isNone && decide (24 < gapOf before.mo.count t.start.count)
  | none => false

/-- A frame's transmission completes 48 counts after its start (R114, R117). -/
def transmissionComplete (s : State) : State :=
  match s.wr.tx with
  | none => s
  | some t =>
    let stop := ahead t.start.pass t.start.count Config.pitch
    if s.ch.transport = .active ∧ s.mo.pass = t.start.pass ∧ reached t.start.pass s.mo.count stop = true then
      let s := { s with wr.tx := none, mo.lastEnd := { pass := t.start.pass, count := stop } }
      match s.wr.abandon with
      | some a => if s.wr.eot then abandonAtEot a s else skipInStream a s
      | none => s
    else s

/-! ### Recovery entry (R58, R119) -/

/-- Frames handed over one by one; true when an abandonment has been decided, with the frames after it left UNWRITTEN. -/
def handOver : List VerifyEntry → State → State × Option Abandonment
  | [], s => (s, none)
  | v :: vs, s =>
    if v.isVoid then handOver vs s
    else if mayRewrite s v.slot v.idx then handOver vs (queueRewrite v.slot v.idx s)
    else
      let a : Abandonment := { slot := v.slot, following := followingOf s v.slot }
      let back := vs.filter (fun w => !w.isVoid && !a.has w.slot)
      let s := back.foldl (fun s w => setFrame w.slot w.idx { st := .unwritten, count := (frameAt s w.slot w.idx).count - 1 } s) s
      (s, some a)

/-- An abandonment is carried out at a recovery entry, with the tape to be stopped (R117 to R119, R127). -/
def carryOut (a : Abandonment) (s : State) : State :=
  if s.ri.err = some .writeError then s
  else if s.wr.eot then abandonAtEot a s
  else if secondAlready a s then meetWriteError { s with mo.mask := true }
  else { skipSlots a s with mo.skipResume := true }

/-- The frames of the verify queue are handed to the writer at a recovery entry (R119). The session may meet WRITE_ERROR here. An
abandonment that waited for the frame boundary is carried out too; where the one now decided takes in its segment, one skip serves
both: the model's choice, log entry 41. -/
def writerEntry (s : State) : State :=
  if sessionOpen s || !s.wr.verifyQ.isEmpty then
    let q := s.wr.verifyQ
    let owed := s.wr.abandon
    let s := { s with wr.verifyQ := [], wr.tx := none, wr.discard := true, wr.abandon := none, wr.heldF0 := none, wr.turnWait := false,
                      mo.bandTo := none }
    let r := handOver q s
    match r.2, owed with
    | none, none => r.1
    | some a, none | none, some a => carryOut a r.1
    | some a, some b => if a.has b.slot then carryOut a r.1 else carryOut b (carryOut a r.1)
  else s

/-- END_APPROACH on a pass below 47 abandons every placement under way, with the turn in place of the gap (R64, R119). -/
def abandonForTurn (s : State) : State :=
  match slotsIn isOnTape s with
  | [] => s
  | k :: rest =>
    let a : Abandonment := { slot := k, following := rest.head? }
    if secondAlready a s then meetWriteError s else skipSlots a s

end Sys2Proof.Machine
end

