-- ==== Sys2Proof/Machine/Faults.lean ====
section
/-! DEFINITION. Fault recovery (R57 to R66): raising, entry, the context, procedures, return and resume, failure. -/

namespace Sys2Proof.Machine

/-! ### What is under way (R59) -/

/-- A read other than a seek or scan is under way. -/
def plainRead (s : State) : Bool :=
  decide (s.rd.user = some .records) || decide (s.rd.user = some .confirm) || decide (s.rd.user = some .splice)

/-- A LOCATE's move or trailer scan is under way, whatever session is open (R59). -/
def locating (s : State) : Bool :=
  decide (s.rd.user = some .scanLocate) || (match s.mo.goal with
    | .locateAt _ _ _ => true
    | _ => false)

/-- The operation a context records, from the motion mode at entry (R59). No row of the table fits a RAMP to rest after a STOP or ABORT
that has left the session CLOSED, or after READ_ABORT: LOCATE, in phase MOVE, the model's choice, log entry 42. -/
def operationNow (s : State) : Operation :=
  match s.mo.mode with
  | some .locate => .locate
  | some .cleanRun => .clean
  | some .waitData => .write
  | some .writeStream => .write
  | some .runout => .runout
  | m =>
    if s.mo.goal = .cleanStop then .clean
    else if locating s then .locate
    else if sessionOpen s then (if m = some .backhitch ∧ s.mo.goal = .waitData then .backhitch else .write)
    else if plainRead s then .read
    else .locate

/-- The phase a context records (R59). -/
def phaseNow (op : Operation) (s : State) : Phase :=
  match op with
  | .write => if s.mo.mode = some .waitData then .wait else .stream
  | .locate => if s.rd.scan.isSome ∧ (s.mo.legs = [] ∨ s.mo.mode = some .turn) then .scan else .move
  | .read => match s.rd.state with
    | .paused => .paused
    | .retrying => .retrying
    | .ending => .ending
    | _ => .stream
  | _ => .stream

/-- The frame that comes next where none is UNWRITTEN or queued (R59): the oldest that awaits its result, since the entry hands that one
over first (R119); else the first of the oldest ON_TAPE segment that is not GOOD. -/
def nextToVerify (s : State) : Option (Nat × Nat) :=
  match s.wr.verifyQ.find? (fun v => !v.isVoid) with
  | some v => some (v.slot, v.idx)
  | none => (slotsIn isOnTape s).head?.map (fun k => (k, ((List.range 32).find? (fun i => decide ((frameAt s k i).st ≠ .good))).getD 0))

/-- The segment whose frame 0 comes next (R59): the oldest SEALED, else SEALING, else the one being filled. -/
def nextToWrite (s : State) : Option Nat :=
  ((slotsIn isSealed s).head?.orElse fun _ => (slotsIn isSealing s).head?).orElse fun _ => (slotsIn isFilling s).head?

/-- Slot and next frame index of the segment being written or read (R59). Where no slot is being written or read, as in WAIT_DATA before
the first record, they are absent: the model's choice, log entry 42. -/
def slotNow (op : Operation) (s : State) : Option (Nat × Nat) :=
  match op with
  | .write | .runout | .backhitch =>
    (unwrittenFrame s).orElse fun _ => s.wr.rewriteQ.head?.orElse fun _ => (nextToVerify s).orElse fun _ => (nextToWrite s).map (fun k => (k, 0))
  | .read => match slotsIn isFetching s with
    | k :: _ => some (k, (missingFrames (slotAt s k)).headD 0)
    | [] => none
  | _ => none

/-- The pass in use: the one held, or the one named while the tape rests for its change (R43, R59). -/
def passInUse (s : State) : Nat := if s.mo.passWait then s.mo.named else s.mo.pass

/-- The context pushed at an entry (R59). -/
def contextNow (c : Cause) (s : State) : Context :=
  let op := operationNow s
  let count := match op with
    | .write | .runout | .backhitch => s.mo.lastEnd.count
    | .read => (s.rd.lastEnd.map Pos.count).getD s.mo.count
    | _ => s.mo.count
  let sl := slotNow op s
  { cause := c, op := op, pos := { pass := passInUse s, count := count },
    dir := if op = .locate ∧ s.mo.legs ≠ [] then s.mo.dir else if op = .clean then .forward else passDir (passInUse s),
    band := s.mo.band, slot := sl.map Prod.fst, frame := sl.map Prod.snd, pending := s.mo.pend, phase := phaseNow op s }

/-- Push a context: its entry is written with its marker set (R59). -/
def pushContext (c : Context) (s : State) : State :=
  let d := s.mo.stack.length
  let s := { s with mo.stack := s.mo.stack ++ [c] }
  match s.bp.layout with
  | none => s
  | some l => issueWrite .internal (l.ctxBase + 64 * d) (contextBytes c) .plain s

/-! ### Failure (R65) -/

/-- The tape of a failed recovery is at rest (R65 steps 2 to 5). -/
def failureStands (faulted : Bool) (s : State) : State :=
  let s := endRecovery s
  let s := loseOperations (endTransport .motionFault (cleaningFailed { s with mo.lp := none }))
  if faulted then enterFaulted .motionFault s else settle (setTransport .unpositioned s)

/-- A recovery fails (R65): the tape is stopped first. A command that ends the operation meanwhile does not change the outcome:
the model's choice, log entry 38. -/
def failRecovery (faulted : Bool) (s : State) : State :=
  if atRest s then failureStands faulted s
  else
    let s := startPlan [stopLeg .recovery] (.failStop faulted) { s with mo.recT := Config.tStream }
    { s with mo.wait := .failing, mo.mask := true }

/-- The failure leaves the transport FAULTED: a context on the stack, or the fault itself, has cause REEL_STALL (R65). -/
def stallInvolved (c : Cause) (s : State) : Bool := decide (c = .reelStall) || s.mo.stack.any (fun x => decide (x.cause = .reelStall))

/-! ### Entry (R58, R61) -/

/-- The event an entry sends (R58). -/
def causeEvent (c : Cause) (s : State) : State :=
  match c with
  | .tensionExcursion => event .tensionExcursion s
  | .reelStall => event .reelStall s
  | .servoLoss => event .servoLoss s
  | .endApproach | .frameSlip => s

/-- A procedure begins with its stop (R60). -/
def startProcedure (s : State) : State :=
  let s := startPlan [stopLeg .recovery] .recStop { s with mo.recT := Config.tStream }
  { s with mo.wait := .stop }

/-- The highest-priority cause of a set (R58). -/
def highest (l : List Cause) : Option Cause :=
  [Cause.endApproach, .reelStall, .tensionExcursion, .servoLoss, .frameSlip].find? (fun c => l.contains c)

/-- Recovery is entered (R58). `again`: the context just popped, at an entry that follows a recheck. An entry at which the writer
meets WRITE_ERROR ends the recovery with it (R118), without the event that the entry's cause would have sent: the model's choice, log
entry 42. -/
def enterRecovery (again : Option Context) (s : State) : State :=
  match highest s.mo.pend with
  | none => s
  | some c =>
    if 4 < s.mo.entry + 1 then failRecovery (stallInvolved c s) s
    else
      let s := { s with mo.entry := s.mo.entry + 1 }
      let savedL := match again with | some _ => s.mo.savedLegs | none => s.mo.legs
      let savedG := match again with | some _ => s.mo.savedGoal | none => s.mo.goal
      let ctx := match again with
        | some x => { x with cause := c }
        | none => contextNow c s
      let was := s.ri.err
      let s := writerEntry s
      if s.ri.err = some .writeError ∧ was ≠ some .writeError then s
      else
        let pend := s.mo.pend.filter (fun x => decide (x ≠ c))
        let s := pushContext { ctx with pending := pend } { s with mo.pend := pend }
        startProcedure (causeEvent c { s with mo.mask := true, mo.savedLegs := savedL, mo.savedGoal := savedG })

/-- A fault is raised in ACTIVE (R57, R61). While the tape of a failed recovery is being stopped it changes nothing: the model's
choice, log entry 38. -/
def raiseFault (c : Cause) (s : State) : State :=
  if s.mo.recal then enterFaulted .motionFault s
  else if s.mo.wait = .failing then s
  else if s.mo.mask then
    match s.mo.stack with
    | [x] =>
      if c = .reelStall ∧ x.cause = .reelStall then failRecovery true s
      else if c.code < x.cause.code then
        if 4 < s.mo.entry + 1 then failRecovery (stallInvolved c s) s
        else
          let s := pushContext { x with cause := c, pending := s.mo.pend } { s with mo.entry := s.mo.entry + 1 }
          startProcedure (causeEvent c s)
      else if s.mo.pend.contains c then s
      else { s with mo.pend := s.mo.pend ++ [c] }
    | [_, _] => failRecovery (stallInvolved c s) s
    | _ => s
  else
    let s := { s with mo.pend := if s.mo.pend.contains c then s.mo.pend else s.mo.pend ++ [c] }
    enterRecovery none s

/-! ### Procedures and return (R60, R62, R63) -/

/-- The context whose procedure is under way. -/
def topContext (s : State) : Option Context := s.mo.stack.getLast?

/-- The resume point of a context (R63). A READ in phase ENDING whose move goes to no point, a ramp to rest alone, takes the context
position: the model's choice, log entry 42. -/
def resumePoint (x : Context) (s : State) : Pos :=
  match x.op with
  | .write | .runout | .backhitch =>
    { x.pos with count := ahead x.pos.pass x.pos.count (if s.mo.skipResume then Config.skipGap else Config.pitch) }
  | .read => match x.phase with
    | .paused | .retrying => s.rd.resume.getD x.pos
    | .ending => ((s.rd.endLead.map StartPoint.pos).orElse (fun _ => s.rd.spliceAt)).getD x.pos
    | _ => x.pos
  | .locate => match x.phase with
    | .move => match s.mo.savedLegs.getLast? with
      | some { pass := some p, target := some t, .. } => { pass := p, count := t }
      | _ => x.pos
    | _ => x.pos
  | .clean => x.pos

/-- Pop the context at depth `d`: its entry is read back (R59, R62). -/
def popContext (s : State) : State :=
  match s.bp.layout with
  | none => s
  | some l =>
    let d := s.mo.stack.length
    issueRead .internal (l.ctxBase + 64 * (d - 1)) 64 (.contextPop d) { s with mo.wait := .pop }

/-- A procedure reaches its return (R62). -/
def procedureReturns (s : State) : State :=
  match s.mo.stack with
  | [x] =>
    if x.op = .clean then popContext s
    else
      let p := standing (resumePoint x s)
      let s := startPlan [stopLeg .recovery, moveLeg .recovery p Config.moveSpeed] .recReturn s
      { s with mo.wait := .reposition }
  | [_, _] => popContext s
  | _ => s

/-- Forward to the servo's lock (R60, SERVO_LOSS); a servo that has lock again ends the move as it begins. -/
def forwardToLock (x : Context) (s : State) : State :=
  if s.mo.locked then procedureReturns s
  else
  { s with mo.mode := some .recovery, mo.legs := [], mo.goal := .recForward, mo.stopping := false, mo.dir := x.dir,
           mo.dest := Config.threadSpeed, mo.wait := .forwardMove }

/-- The stop of a procedure is done: its next part (R60). -/
def procedureStopped (s : State) : State :=
  match topContext s with
  | none => s
  | some x =>
    match x.cause with
    | .endApproach | .frameSlip => procedureReturns s
    | .reelStall => noteTarget { s with mo.recT := Config.tPark, mo.wait := .retension }
    | .tensionExcursion => noteTarget { s with mo.recT := Config.tHold, mo.wait := .retension }
    | .servoLoss =>
      let t := if x.dir = .forward then x.pos.count - Config.skipGap else x.pos.count + Config.skipGap
      let beyond := if x.dir = .forward then decide (s.mo.count ≤ t) else decide (t ≤ s.mo.count)
      if beyond then forwardToLock x s
      else
        let s := startPlan [{ mode := .recovery, pass := none, target := some t, speed := Config.threadSpeed }] .recBack s
        { s with mo.wait := .backMove }

/-- The position lies beyond the region end of its pass (R57). -/
def beyondEnd (s : State) : Bool := passed s.mo.pass s.mo.count (regionEnd s.mo.pass)

/-- A pending cause's condition at the recheck (R57, R62). -/
def causeHolds (s : State) : Cause → Bool
  | .endApproach => beyondEnd s
  | .reelStall => decide (s.re.stall = 64)
  | .tensionExcursion => decide (s.re.exc = 4)
  | .servoLoss => !s.mo.locked
  | .frameSlip => false

/-- A turn inside a reading stream, from rest or in motion (R51). -/
def beginReadTurn (s : State) : State := beginTurn .turnRead s

/-- END_APPROACH returns (R64). -/
def resumeEndApproach (x : Context) (s : State) : State :=
  match x.op with
  | .write | .runout | .backhitch =>
    if s.mo.pass < 47 then
      let s := abandonForTurn s
      if s.ri.session = .error ∧ s.ri.err = some .writeError then s
      else beginTurn .turnWrite { s with mo.mode := some .turn, wr.turnWait := false }
    else
      let s := sessionError .endOfTape s
      let s := allBackToSealed (slotsIn isOnTape s) (dropWriter s)
      toReady { s with wr.pendingEnd := .none }
  | _ =>
    if s.mo.pass < 47 then beginReadTurn s
    else endOfStream s

/-- The operation resumes (R63): a plan that the reader has put in the place of the one interrupted is taken, and a read in
DRAINING_ONLY comes to rest again (R142). -/
def resumeOperation (x : Context) (s : State) : State :=
  let p := resumePoint x s
  let legs := s.mo.savedLegs
  let goal := s.mo.savedGoal
  let turned := s.mo.redirect
  let s := { s with mo.savedLegs := [], mo.savedGoal := .none, mo.redirect := false, mo.skipResume := false }
  if turned then startPlan legs goal s
  else if x.op = .read ∧ s.rd.state = .drainingOnly then startPlan [stopLeg .ramp] goal s
  else if x.cause = .endApproach then resumeEndApproach x s
  else
    match x.op with
    | .write | .runout =>
      let s := { s with mo.resume := some p }
      if x.phase = .wait then enterWaitData s else rampWrite p { s with mo.band := s.sp.c }
    | .backhitch => enterWaitData (backhitchEvent { s with mo.resume := some p })
    | .read =>
      match x.phase with
      | .paused | .retrying | .ending => startPlan [stopLeg .backhitch] goal s
      | _ => rampRead s
    | .locate => if x.phase = .move then startPlan legs goal s else rampRead s
    | .clean =>
      if goal = .cleanStop then stopThen .cleanStop s
      else noteTarget { s with mo.mode := some .cleanRun, mo.dir := .forward, mo.v := Config.threadSpeed, mo.dest := Config.threadSpeed, mo.legs := [], mo.goal := .none, mo.stopping := false }

/-- A pop's read has returned: its marker is written clear and the recovery goes on from what was read; an entry that cannot be
read fails it (R59, R62, 12.6). -/
def contextPopped (d : Nat) (bs : List Byte) (s : State) : State :=
  if s.mo.wait ≠ .pop ∨ s.mo.stack.length ≠ d then s
  else
    match contextOf s.sm.slots.length bs, s.bp.layout with
    | some x, some l =>
      let s := issueWrite .internal (l.ctxBase + 64 * (d - 1)) [0] .plain s
      if d = 2 then startProcedure { s with mo.stack := s.mo.stack.take 1 }
      else
        let stand := s.mo.stands
        let s := { s with mo.stack := [], mo.mask := false, mo.wait := .none }
        let s := { s with mo.pend := s.mo.pend.filter (causeHolds s) }
        if s.mo.pend ≠ [] then enterRecovery (some x) s
        else resumeOperation x { s with mo.stands := stand }
    | _, _ => failRecovery (s.mo.stack.any (fun x => decide (x.cause = .reelStall))) s

end Sys2Proof.Machine
end

