-- ==== Sys2Proof/Machine/Arrive.lean ====
section
/-! DEFINITION. What a plan leads to when the tape comes to rest (R45 to R66, R86, R101, R102, R158, R173), and the opening of
a write session. -/

namespace Sys2Proof.Machine

/-! ### A session opens (R86) -/

/-- The changes of R86 that open a session, and the completion of WRITE_OPEN. What a session closed before had ON_TAPE still is no part of
this one (R120, Law 6; log entry 37). -/
def openSession (offset : Nat) (compress : Bool) (firstSeg nextRec : Nat) (resume : Pos) (s : State) : State :=
  let s := dropOnTape s
  let c := s.cart
  let n := min (c.session + 1) max32
  let s := putCart { c with session := n } s
  let s := { s with
    bp.reqs := s.bp.reqs.map (Req.forget .stagingFetch), ri.fetch := none,
    bp.watch := true, bp.release := offset, bp.rl := 0, bp.spans := [],
    ri.session := .opened, ri.err := none, ri.lastComplete := (nextRec + max32) % two32, ri.cursor := offset, ri.st := .header,
    ri.nextRec := nextRec, ri.nextSeg := firstSeg, ri.compress := compress, ri.history := [], ri.hdr := [], ri.raw := [],
    ri.chunkBuf := [], ri.cur := none, ri.item := none, ri.frag := none, ri.sealReq := false, ri.padOwed := 0, ri.fetched := none,
    ri.marker := none, ri.refetched := [], mo.skipResume := false,
    mo.resume := some resume, mo.lastEnd := { resume with count := back resume.pass resume.count Config.pitch },
    wr.stamp := n, wr.countBusy := true, wr.eot := false, wr.discard := false, wr.pendingEnd := .none, wr.turnWait := false,
    wr.heldF0 := none, wr.skipStart := none, wr.abandon := none }
  let s := { s with ch.tagOut := tagBlock { c with session := n } s.ch.tagRest }
  completeWith .write .ok (startSpeed s)

/-- The splice stands before its segment: the entries are cut, the directory truncated, the session opened (R101, R102). -/
def openSplice (s : State) : State :=
  match s.rd.splice, runningOp .write s with
  | some k, some (.writeOpen offset compress) =>
    let x := slotAt s k
    let p := s.rd.spliceRec
    let kept := keptEntries s k p 1024 0 0
    let f0 := s.rd.spliceAt.getD bot
    let c := truncateDirectory x.seg s.cart
    let eod : Eod := { seg := x.seg, firstRec := trailerFirst (slotTrailer s k), pos := { f0 with count := back f0.pass f0.count Config.pitch } }
    let s := readerIdle (putCart { c with eod := some eod } (consultSlot k 0 Config.slotBytes s))
    let s := { s with rd.splice := none, rd.spliceAt := none }
    let s := openSession offset compress (x.seg + 1) p f0 { s with ri.filling := some k, ri.e := kept.1, ri.u := kept.2, ri.resetOwed := true }
    enterWaitData s
  | _, _ => toReady s

/-! ### Reads -/

/-- The read begins from a start point (R144): to its standing point, then STARTING. -/
def beginRead (sp : StartPoint) (s : State) : State :=
  let s := { s with rd.state := .starting, rd.user := some .records, rd.x := sp.seg, rd.next := sp.seg, rd.scan := none, rd.blank := 0,
                    rd.dataEnd := false, rd.lastEnd := none, rd.lowEnd := none }
  backhitchTo sp.pos .readGo s

/-- The splice read begins at the standing point of the segment found (R101). -/
def beginSpliceRead (sp : StartPoint) (s : State) : State :=
  let s := { s with rd.state := .starting, rd.user := some .splice, rd.x := sp.seg, rd.next := sp.seg, rd.scan := none, rd.blank := 0,
                    rd.dataEnd := false, rd.lastEnd := none, rd.lowEnd := none }
  backhitchTo sp.pos .readGo s

/-- The scan stands before its target segment (R48, R101, R144). -/
def scanStands (s : State) : State :=
  let s := backhitchEvent s
  match s.rd.scan with
  | none => toReady s
  | some sc =>
    let sp : StartPoint := { pos := (sc.seen.head?.map Met.f0).getD bot, seg := (sc.seen.head?.map Met.seg).getD 0 }
    match s.rd.user with
    | some .scanLocate =>
      let s := toReady (readerIdle { s with mo.lp := sc.target })
      complete .transport .ok 0 (.position [] sc.target) { s with rd.start := some { sp with located := true } }
    | some .scanSeek => beginRead sp s
    | some .scanSplice => beginSpliceRead sp s
    | _ => toReady s

/-- The scan has ended without standing before a target (R48, R103, R144). -/
def scanFails (st : Status) (s : State) : State :=
  match s.rd.user with
  | some .scanLocate =>
    let s := toReady (readerIdle { s with mo.lp := none })
    complete .transport st 0 (.position [] none) s
  | some .scanSeek =>
    let s := if st = .endOfData then consultHead s else s
    let s := { s with mo.lp := if st = .endOfData then some (eodRec s) else none }
    let r := readResult s
    complete .read st 0 r (toReady (readerIdle s))
  | _ => spliceEnds st (toReady s)

/-- READ_RECORDS is at rest at its end (R158 steps 4 and 5). -/
def readStands (s : State) : State :=
  let st := s.rd.ended.getD .ok
  let start := s.rd.endLead
  let r := readResult s
  let s := toReady (readerIdle s)
  complete .read st 0 r { s with rd.start := start }

/-- READ_ABORT, which has waited for the tape to rest, completes OK (R159). -/
def abortStands (s : State) : State :=
  match runningOp .read s with
  | some .readAbort => if s.ci.read.judged then completeWith .read .ok s else s
  | _ => s

/-! ### Turns (R51) -/

/-- At rest beyond the region end the next pass is named, and the turn waits for lock on it (R43, R51 step 2). -/
def turnPass (g : Goal) (s : State) : State := awaitPass (s.mo.pass + 1) .turn [] { s with mo.goal := g }

/-- Lock on the next pass: a write stream ramps at the decided band (R51 steps 3 and 4). -/
def turnToWrite (s : State) : State :=
  { rampInto .writeStream { s with mo.planned := regionStart s.mo.pass, wr.turnWait := false, wr.skipStart := none, mo.band := s.sp.c } with mo.mode := some .turn }

/-- Lock on the next pass: a reading stream ramps at the read band (R51 step 4, R49, R137). -/
def turnToRead (s : State) : State :=
  { rampInto .readStream { s with mo.band := s.sp.policy.readBand, rd.blank := 0 } with mo.mode := some .turn }

/-- The servo has lock on the pass named, and the plan that waited for it goes on (R43). -/
def passReached (s : State) : State :=
  if s.mo.passWait = true ∧ s.mo.locked = true ∧ s.mo.quality = .locked ∧ s.mo.pass = s.mo.named then
    let s := { s with mo.passWait := false }
    match s.mo.legs, s.mo.goal with
    | [], .turnWrite => turnToWrite s
    | [], .turnRead => turnToRead s
    | [], _ => s
    | legs, _ => beginLegs legs s
  else s

/-! ### Lock -/

/-- The servo's position replaces the one held, LOCKED (R43). -/
def takePosition (pass count : Nat) (s : State) : State :=
  { s with mo.pass := pass, mo.count := count, mo.quarter := 0, mo.quality := .locked, mo.locked := true }

/-- Lock in the search of R56: the tape stops, and is moved on pass 0 to BOT. -/
def searchLocked (s : State) : State :=
  startPlan [stopLeg .ramp, moveLeg .locate bot Config.locateSpeed] (if s.ch.transport = .unloading then .rewind else .recalBot) s

/-! ### Arrival -/

/-- What the goal of a plan does at rest. -/
def reachGoal (g : Goal) (s : State) : State :=
  match g with
  | .none => s
  | .toReady => abortStands (toReady { s with wr.pendingEnd := .none })
  | .afterEndedRecovery unload =>
    let s := if s.mo.quality = .locked then toReady s else setTransport .unpositioned s
    if unload then beginUnload s else abortStands s
  | .stopThenUnload => beginUnload s
  | .waitData => enterWaitData (backhitchEvent s)
  | .writeGo => match s.mo.resume with
    | some p => rampWrite p s
    | none => toReady s
  | .turnWrite => turnPass .turnWrite s
  | .turnRead => turnPass .turnRead s
  | .locateAt st lp sp =>
    let s := toReady { s with mo.lp := lp }
    complete .transport st 0 (.position [] lp) { s with rd.start := sp }
  -- a seek's scan enters STARTING, as every scan (R152): the model's choice between R142 and R152, log entry 42
  | .scanGo => rampRead { s with rd.state := .starting }
  | .scanStand => scanStands s
  | .scanFailed st => scanFails st s
  | .readGo | .readRetry => rampRead { s with rd.state := .starting }
  | .readPaused => s
  | .drainRest => drain s
  | .readEnd => readStands s
  | .confirmBack => finishLoad s
  | .spliceStand => openSplice s
  | .spliceFailed st => spliceEnds st (toReady s)
  | .rewind => startTensionDown .tensionDown { s with mo.recal := false, mo.stopping := false, mo.goal := .none }
  | .recalSearch => s
  | .recalBot =>
    let s := toReady { s with mo.recal := false, mo.lp := some 0 }
    completeWith .transport .ok { s with rd.start := some { pos := bot, seg := 0 } }
  | .cleanStop => cleaningDone s
  | .recStop => procedureStopped s
  | .recBack => match topContext s with
    | some x => forwardToLock x s
    | none => s
  | .recForward => s
  | .recReturn =>
    match topContext s with
    | some x => popContext (if x.cause = .frameSlip then backhitchEvent s else s)
    | none => s
  | .failStop f => failureStands f s

/-- A move has come to rest at its named point: its next leg, or its goal (R45). -/
def arrive (s : State) : State :=
  if s.mo.stopping ∧ atRest s = true ∧ (s.ch.transport = .active ∨ (s.ch.transport = .unloading ∧ s.ch.step = some .rewind)) then
    let at_ := match s.mo.legs with
      | { target := some t, .. } :: _ => some { pass := s.mo.pass, count := t : Pos }
      | _ => s.mo.stands
    let rest := s.mo.legs.drop 1
    let s := { s with mo.stands := at_, mo.stopping := false }
    match rest with
    | [] => settle (reachGoal s.mo.goal { s with mo.legs := [], mo.goal := .none })
    | _ => noteTarget (beginLegs rest s)
  else s

end Sys2Proof.Machine
end

