-- ==== Sys2Proof/Machine/BufferRows.lean ====
section
/-! DEFINITION. The meanings of Chapter 4's and Chapter 10's commands: the front port, binding, the memory port, command intake
and the completion queue; and the judging of a firmware command as it becomes running. -/

namespace Sys2Proof.Machine

/-! ### Front port (R68, R69, R76, R81) -/

def execFrontPortWrite (m : Master) (addr : Nat) (data : List (Option Byte)) (s : State) : Out := frontWrite m addr data s
def execFrontPortRead (m : Master) (addr len : Nat) (s : State) : Out := frontRead m addr len s
def execBindingWordWrite (m : Master) (addr : Nat) (data : List (Option Byte)) (s : State) : Out := frontWrite m addr data s
def execStagingWrite (m : Master) (addr : Nat) (data : List (Option Byte)) (s : State) : Out := frontWrite m addr data s
def execSequenceWordWrite (m : Master) (addr : Nat) (data : List (Option Byte)) (s : State) : Out := frontWrite m addr data s
def execConsumerWordWrite (m : Master) (addr : Nat) (data : List (Option Byte)) (s : State) : Out := frontWrite m addr data s
def execDeliveryTailRead (m : Master) (addr len : Nat) (s : State) : Out := frontRead m addr len s
def execHoldTimerExpiry (s : State) : Out := .next (holdExpiry s)

/-! ### Binding (R70 to R74) -/

/-- The binding status word: outcome code, the low 16 bits of the serial, the region number (R71, 12.2). -/
def statusWord (outcome serial region : Nat) : List Byte := [byteOf outcome, byteOf region] ++ leBytes 2 serial

/-- End the binding: its status word write is issued; a rebind request starts a new one (R70). -/
def endBinding (w : List Byte) (s : State) : State :=
  let s := issueWrite .internal 240 w .plain { s with bp.binding := false, bp.anchor := none }
  if s.bp.rebind then issueRead .internal 0 256 .anchor { s with bp.rebind := false, bp.binding := true } else s

/-- A job holds neither a running nor a pending command. -/
def Job.empty (j : Job) : Bool := j.running.isNone && j.pending.isNone

/-- A bound part may adopt (R73). -/
def adoptionAllowed (s : State) : Bool :=
  s.ci.transport.empty && s.ci.write.empty && s.ci.read.empty && s.ci.health.empty && s.ci.link.empty &&
    !sessionOpen s && !readRunning s && s.bp.pieces.isEmpty && decide (s.ch.transport ≠ .loading) &&
    decide (s.ch.transport ≠ .unloading) && !s.ch.tape

/-- The reset cause record (R20, 12.2). Where a binding comes after RESET_LINE and before the state is decided, its transport state
reads EMPTY: the model's choice, log entry 35. -/
def resetCause (s : State) : List Byte :=
  padTo 16 [if s.ch.causeLine then 2 else 1, if s.ch.tapeAtStart then 1 else 0, byteOf s.ch.stateAtStart.code, byteOf s.ch.lastActivity.code]

/-- Adopt a layout (R74, R109, R139). Intake that stands in POSTING waits for slot 0 too, and its record, when it enters the queue,
no longer makes it read a slot: the model's choice, log entry 35. -/
def adoptLayout (l : Layout) (s : State) : State :=
  let s := { s with
    bp.layout := some l, ci.index := 0, ci.expected := 1, ci.state := .waiting, ci.returned := none, cq.p := 0, cq.c := 0, cq.lap := true,
    cq.writing := false, cq.service := false, bp.watch := false, bp.release := 0, bp.rl := 0, bp.spans := [],
    bp.pieces := [], bp.wpos := 0, bp.occupied := 0, re.entSup := 0, re.entTak := 0,
    bp.reqs := (s.bp.reqs.map (Req.forget .record)).map (Req.forget .slotRead),
    sm.slots := List.replicate l.s (freshSlot .free 0), sm.free := List.range l.s,
    sp.policy := reclampPolicy l.s s.sp.policy }
  let s := readHistory (clearMarkers (stopParity s))
  issueWrite .internal 224 (resetCause s) .plain s

/-- ANCHOR_READ_RETURN (R71 to R74): the checks in order, the adoption, the status word. -/
def execAnchorReadReturn (s : State) : Out :=
  .next (match s.bp.anchor with
    | none => s
    | some bs =>
      let l := layoutOf bs
      if anchorIntegrity bs = false then endBinding (statusWord 2 0 0) s
      else
        match firstBadRegion (regionsOf l) 0 (regionsOf l) with
        | some n => endBinding (statusWord 3 l.serial n) s
        | none =>
          if s.bp.layout.isSome = true ∧ adoptionAllowed s = false then endBinding (statusWord 4 l.serial 0) s
          else endBinding (statusWord 1 l.serial 0) (adoptLayout l s))

/-! ### The memory port (R82) -/

/-- What the grant of a request's last line leads to. -/
def requestDone (r : Req) (s : State) : State :=
  match r.what with
  | .plain => s
  | .frontRead m => { s with bp.lastRead := some { master := m, data := r.got } }
  | .anchor => { s with bp.anchor := some r.got }
  | .slotRead => { s with ci.returned := some r.got }
  | .stagingFetch => if s.ri.fetch.isSome then { s with ri.fetched := some r.got } else s
  | .chunkFetch => { s with ri.refetched := s.ri.refetched ++ r.got }
  | .parityRead => { s with sm.parityGot := some r.got }
  | .rebuildRead => { s with rd.rebuildGot := s.rd.rebuildGot ++ r.got }
  | .drainRead => settle (drainReturned r.got s)
  | .contextPop d => settle (contextPopped d r.got s)
  | .record => recordGranted s
  | .pieceHeader start => settle (headerGranted start s)
  | .txFrame => { s with wr.tx := s.wr.tx.map (fun t => { t with bytes := r.got }) }

/-- MEMORY_PORT_GRANT (R82). -/
def execMemoryPortGrant (s : State) : Out :=
  .next (let g := grantLine s
    match g.2 with
    | none => g.1
    | some r => requestDone r g.1)

/-! ### Command intake (R178 to R183) -/

/-- Advance past a taken slot (R180 steps 2 and 3). -/
def advanceIntake (s : State) : State :=
  let k := (s.bp.layout.map Layout.k).getD 1
  { s with ci.index := (s.ci.index + 1) % k, ci.expected := if s.ci.expected = 65535 then 1 else s.ci.expected + 1 }

/-- WRITE_ABORT and READ_ABORT act as they enter the pending place (R123, R159). -/
def enterPending (j : JobId) (c : FwCmd) (s : State) : State :=
  let s := s.setJob j { s.job j with pending := some c }
  match c.op with
  | .writeAbort => abortWaiting s
  | .readAbort =>
    match runningOp .read s with
    | some (.readRecords _) =>
      if s.ci.read.judged then
        let s := abortRead s
        if s.ch.transport = .active then endMotion false false { s with rd.aborted := true } else s
      else complete .read .aborted 0 (.position (leBytes 4 0) s.mo.lp) { s with rd.start := none }
    | _ => s
  | _ => s

/-- Take the slot and dispatch its command (R180, R181). The command's own row judges it once it is running. -/
def dispatchCommand (c : FwCmd) (s : State) : State :=
  let j := fwJob c.op
  let jb := s.job j
  match jb.running, jb.pending with
  | none, _ => readSlot .lookAhead (advanceIntake (s.setJob j { running := some (.cmd c), judged := false, finishing := false, pending := none }))
  | some _, none =>
    let s := readSlot .lookAhead (advanceIntake s)
    enterPending j c s
  | some _, some _ => { s with ci.state := .stalled j }

/-- A code of no command (R178): the slot is taken and REFUSED_OPERAND posted; with no place free, intake waits in POSTING. -/
def unknownCode (bs : List Byte) (s : State) : State :=
  let r : Record := { notice := false, status := Status.refusedOperand.code, sub := 0, rep := 0, code := field bs 0 2, present := 0,
                      tag := slotTag bs, body := padTo 20 Results.none.body }
  let s := noteStatus .refusedOperand (advanceIntake s)
  if cqOpen s then readSlot .lookAhead (cqPush r s)
  else { s with ci.state := .posting, cq.waiting := s.cq.waiting ++ [(.intake, r)] }

/-- SLOT_READ_RETURN (R178, R180, R183). -/
def execSlotReadReturn (s : State) : Out :=
  .next (match s.ci.state, s.ci.returned with
    | .reading k, some bs =>
      let s := { s with ci.returned := none, ci.state := .waiting }
      if slotSeq bs = s.ci.expected then
        match slotOp bs with
        | some op => settle (dispatchCommand { tag := slotTag bs, op := op } s)
        | none => unknownCode bs s
      else if k = .lookAhead then s else sequenceBreak (slotSeq bs) s
    | _, _ => s)

/-! ### Completion queue (R183 to R188) -/

/-- INTERNAL_QUEUE_ENTRY (R185): the oldest waiting record enters a free place. -/
def execInternalQueueEntry (s : State) : Out :=
  .next (match s.cq.waiting with
    | [] => s
    | (k, r) :: rest =>
      if s.cq.queue.length < 8 then
        let s := cqPush r { s with cq.waiting := rest }
        match k with
        | .job j => endRunning j s
        | .intake => if s.ci.state = .posting then readSlot .lookAhead s else s
        | _ => s
      else s)

/-- RING_RECORD_WRITE (R186): the head record's write is issued while the ring has room. -/
def execRingRecordWrite (s : State) : Out :=
  .next (match s.bp.layout, s.cq.queue with
    | some l, r :: rest =>
      if s.cq.writing = false ∧ ringCount l.n s.cq.p s.cq.c < l.n - 1 then
        issueWrite .internal (l.compBase + 32 * s.cq.p) (recordBytes s.cq.lap r) .record { s with cq.queue := rest, cq.writing := true }
      else s
    | _, _ => s)

/-! ### A command becomes running (R1, R181, R183) -/

/-- The command is running and is judged; one that must wait for a recovery to return is left to be judged then (R66). -/
def judgeRunning (c : FwCmd) (judge : FwOp → State → State) (s : State) : State :=
  let j := fwJob c.op
  if s.mo.mask && waitsForRecovery c.op then
    settle (({ s with ci.deferred := s.ci.deferred.filter (fun k => decide (k ≠ j)) ++ [j] }).setJob j
      { s.job j with running := some (.cmd c), judged := false })
  else settle (judge c.op (startRunning c s))

/-- The command enters the pending place; one that has become running at once (R123, R159) is judged in the same step. -/
def enterOrJudge (j : JobId) (c : FwCmd) (judge : FwOp → State → State) (s : State) : State :=
  let s := enterPending j c s
  let jb := s.job j
  if jb.running = some (.cmd c) ∧ jb.judged = false ∧ jb.pending = none then judgeRunning c judge s else settle s

/-- The step at which a firmware command reaches its job (R181, R183; log entry 6): the command waiting in the running place to
be judged is judged; a command meeting an empty running place becomes running; otherwise it enters the pending place. -/
def firmware (c : FwCmd) (judge : FwOp → State → State) (s : State) : Out :=
  .next (if s.bp.layout.isNone then s
    else
      let j := fwJob c.op
      let jb := s.job j
      match jb.running, jb.pending with
      | none, _ => judgeRunning c judge s
      | some (.cmd c'), p =>
        if jb.judged = false ∧ jb.finishing = false ∧ fwCode c'.op = fwCode c.op then judgeRunning c' judge s
        else if p.isNone then enterOrJudge j c judge s else s
      | some _, none => enterOrJudge j c judge s
      | some _, some _ => s)

end Sys2Proof.Machine
end

