-- ==== Sys2Proof/Machine/TapeRows.lean ====
section
/-! DEFINITION. The meanings of Chapter 1's and Chapter 2's commands, and the resets. -/

namespace Sys2Proof.Machine

/-! ### Resets (R20, R21, R42, R67, R68, R83, R107, R128, R141, R160, R177, R189, R198) -/

/-- The transport state that the sensors give (R21). -/
def sensedState (sn : Sensors) : Transport := if sn.tape then .unpositioned else if sn.seat then .seated else .empty

/-- The position input reports its movement count afresh: all 33 entries of the window take it (R26). -/
def positionInput (n : Int) (s : State) : State := { s with re.input := n, re.window := List.replicate 33 n }

/-- Sensor levels as a reset finds them. -/
def readSensors (sn : Sensors) (s : State) : State :=
  { s with ch.seat := sn.seat, ch.tape := sn.tape, ch.hub := sn.hub, ch.pin := sn.pin }

/-- The state is decided from the sensors; in SEATED and UNPOSITIONED the tab is sampled (R2, R21). -/
def decideState (sn : Sensors) (s : State) : State :=
  let t := sensedState sn
  let s := readSensors sn (positionInput sn.movement s)
  let u := setTransport t s
  -- the channels stay as the reset left them: zero duty, flags clear (R42); the window holds the count just read (R26)
  { u with re.window := s.re.window, re.sup := s.re.sup, re.tak := s.re.tak, re.armCh := s.re.armCh,
           ch.tab := if t = .empty then none else some sn.tab, ch.stateAtStart := t, ch.settlePending := false }

/-- The line after a reset: the part releases it where it was driving it, in an answer or a pulse; what another drives stays as it is
(R198; log entry 4). -/
def lineAfterReset (s : State) : Bool :=
  s.li.line && !s.li.pulsing && (match s.li.phase with
    | .answering _ => false
    | _ => true)

/-- Everything at its value after reset, but for memory, the front port and what the two resets keep (the chapters' reset rules).
Front-port requests and writes already taken are kept (R68, R82). The writes behind the held write are taken as after the reset; a
binding word among them starts a binding: the model's choice, log entry 35. -/
def resetAll (line : Bool) (sn : Sensors) (strap : BitVec 3) (s : State) : State :=
  let keep := s.bp.reqs.filter (fun r => decide (r.cls = .front))
  let held := match s.bp.held with
    | some w => w :: s.bp.behind
    | none => s.bp.behind
  let r := State.reset
  let s' : State := { r with mem := s.mem, pending := s.pending, li.strap := strap, bp.acks := s.bp.acks, bp.lastRead := s.bp.lastRead, bp.reqs := keep,
                             ch.causeLine := line, ch.tapeAtStart := sn.tape, ch.lastActivity := if line then s.ch.activity else .none,
                             ch.arm := s.ch.arm, li.line := lineAfterReset s }
  -- the held write is forwarded at once and the writes behind it are taken in order without any watch (R68)
  takeBehind held (positionInput sn.movement (readSensors sn s'))

/-- POWER_ON: the state is decided at once, the brake is released (R21, R25). -/
def execPowerOn (sn : Sensors) (strap : BitVec 3) (s : State) : Out := .next (decideState sn (resetAll false sn strap s))

/-- RESET_LINE: duties zeroed and the brake applied; the state is decided when movement has ended (R21, R25). Until then the
transport is held at EMPTY and a change of the seat only sets its sensor: the model's choice, log entry 35. -/
def execResetLine (sn : Sensors) (strap : BitVec 3) (s : State) : Out :=
  let s := resetAll true sn strap s
  .next { s with re.brake := true, ch.settlePending := true }

/-- RESET_SETTLE: no movement for 100 ms, or 3 s after the reset (R21). -/
def execResetSettle (sn : Sensors) (s : State) : Out :=
  .next (if s.ch.settlePending then decideState sn { s with re.brake := s.re.brake && sn.moving } else s)

/-! ### Seat and path (R2 to R4, R12, R25) -/

/-- The automatic load (R5): begins at once when the TRANSPORT place is empty, else waits. -/
def startAutoLoad (s : State) : State :=
  if s.ci.transport.running.isNone then
    beginLoad { s with ci.transport := { running := some .autoLoad, judged := true, finishing := false, pending := s.ci.transport.pending } }
  else { s with ch.autoWaiting := true }

/-- SEAT_CLOSE (R2, R37). -/
def execSeatClose (tab : Tab) (s : State) : Out :=
  let s := { s with ch.seat := true }
  .next (if s.ch.transport = .empty ∧ s.ch.settlePending = false then
    let s := setTransport .seated { s with ch.tab := some tab, ch.recordHeld := false }
    let s := if s.pw.seatN then postNotice .cartridgeSeated [] s else s
    if s.pw.seatW then startAutoLoad s else s
  else s)

/-- SEAT_OPEN (R3, R12, R18). -/
def execSeatOpen (s : State) : Out :=
  let s := { s with ch.seat := false }
  .next (match s.ch.transport with
    | .empty => s
    | .seated =>
      if s.ch.step = some .eject then finishEject s
      else postNotice .cartridgeRemoved [] (setTransport .empty { s with ch.tab := none })
    | .loading => if s.ch.step = some .eject then finishEject s else settle (loadSeatLoss s)
    | .unloading =>
      match s.ch.step with
      | some .eject => finishEject s
      | some .hubRelease | some .tagWrite => s
      | some .rewind => enterFaulted .motionFault s
      | _ => enterFaulted .threadFailed s
    | .ready | .parked | .active | .unpositioned =>
      let st := match s.ci.transport.running with
        | some (.cmd c) => match c.op with
          | .locate _ _ | .recalibrate => Status.motionFault
          | _ => .threadFailed
        | _ => .threadFailed
      enterFaulted st s
    -- a tally left open by a load whose TAG_WRITE never came stays open (log entry 42)
    | .faulted => if s.ch.tape then s else postNotice .cartridgeRemoved [] (setTransport .empty { s with ch.tab := none, he.cleanDist := none }))

/-- Tape leaves the path in a step that it does not fail: both reels are at zero duty, and a tension that is being taken down is
taken down no further from where it stood (Law 12 of R4). -/
def lostTape (s : State) : State := zeroReels { s with re.downDt := 0, re.downDs := 0 }

/-- TAPE_IN_PATH_LOSS (R4, R8, R18, R174). -/
def execTapeInPathLoss (s : State) : Out :=
  let s := { s with ch.tape := false }
  .next (match s.ch.transport with
    | .ready | .parked | .active | .unpositioned =>
      let st := match s.ci.transport.running with
        | some (.cmd { op := .load, .. }) | some .autoLoad => if s.mo.mode = some .cleanRun ∨ s.he.clean = .cleaning then Status.motionFault else .threadFailed
        | _ => .motionFault
      enterFaulted st (zeroReels s)
    | .loading =>
      match s.ch.step with
      | some .threadPull | some .tensionUp | some .servoAcquire => loadStepFails (zeroReels s)
      | _ => lostTape s
    | .unloading => if s.ch.step = some .rewind then unloadFails (zeroReels s) else lostTape s
    | _ => s)

/-- BRAKE_RELEASE: the position input has shown no movement for 100 ms, and the window's entries take its count (R25, R26). -/
def execBrakeRelease (s : State) : Out :=
  .next (if s.re.brake = true ∧ s.ch.step ≠ some .tensionDown ∧ s.ch.step ≠ some .backTension then
    fillWindow { s with re.brake := false }
  else s)

/-! ### Load and unload (R5 to R13, R17 to R19) -/

/-- LOAD judged (R1, R5). -/
def judgeLoad (s : State) : State :=
  match s.ch.transport with
  | .seated => if s.ch.step = some .eject then refuse .transport .notLoaded s else beginLoad s
  | t => refuse .transport (loadSub t) s

def execLoad (tag : Word) (s : State) : Out := firmware { tag := tag, op := .load } (fun _ => judgeLoad) s

/-- AUTOMATIC_LOAD: the waiting automatic load begins when the place is free, if the transport is still SEATED (R5). -/
def execAutomaticLoad (s : State) : Out :=
  .next (if s.ch.autoWaiting = true ∧ s.ci.transport.running.isNone = true then
    let s := { s with ch.autoWaiting := false }
    if s.ch.transport = .seated then startAutoLoad s else s
  else s)

def execTagReadComplete (image : List Byte) (s : State) : Out := .next (settle (tagReadEnds (some image) s))
def execTagReadLimit (s : State) : Out := .next (settle (tagReadEnds none s))

/-- HUB_ENGAGED (R8). -/
def execHubEngaged (s : State) : Out :=
  let s := { s with ch.hub := true }
  .next (if s.ch.step = some .hubEngage then startPinCapture s else s)

/-- PIN_CAPTURED (R8, R30). -/
def execPinCaptured (s : State) : Out :=
  let s := { s with ch.pin := true }
  .next (if s.ch.step = some .pinCapture then startThreadPull (stopArm s) else s)

/-- ARM_MOVE_DONE (R8, R10, R18, R30): the arm code has reached the pull end or home; PATH_CHECK follows THREAD_PULL. -/
def execArmMoveDone (code : Nat) (tape : Bool) (s : State) : Out :=
  let s := { s with ch.arm := code }
  .next (match s.ch.step with
    | some .threadPull =>
      if 3800 ≤ code then
        let s := { stopArm s with ch.tape := tape }
        if tape then setStep .tensionUp s else loadStepFails s
      else s
    | some .armHomeForCapture =>
      if code ≤ 200 then (if s.ch.giveUp then startBackHub (stopArm s) else startPinCapture (stopArm s)) else s
    | some .backArm => if code ≤ 200 then startBackHub (stopArm s) else s
    | some .threadReturn => if code ≤ 200 then startPinRelease (stopArm s) else s
    | _ => s)

/-- LOAD_STEP_LIMIT (R7 to R11). An arm that is not home after the third missed PIN_CAPTURE does not keep the hub from its release nor
the cartridge from its EJECT: the model's choice, log entry 35. -/
def execLoadStepLimit (s : State) : Out :=
  .next (if s.ch.transport = .loading then
    match s.ch.step with
    | some .hubEngage | some .pinCapture | some .threadPull | some .tensionUp | some .servoAcquire => loadStepFails s
    | some .armHomeForCapture => if s.ch.giveUp then startBackHub (stopArm s) else loadStepFails (stopArm s)
    | some .backArm | some .backHub => enterFaulted .threadFailed (stopArm s)
    | some .eject => enterFaulted .threadFailed s
    | _ => s
  else s)

/-- Tension has settled (R31). -/
def tensionSettled (s : State) : Bool := decide (16 ≤ s.re.settle) && decide (s.re.tstar = tStar s)

/-- TENSION_SETTLED (R8, R31, R60, R172). -/
def execTensionSettled (s : State) : Out :=
  .next (if tensionSettled s = false then s
    else if s.ch.transport = .loading ∧ s.ch.step = some .tensionUp then
      if s.ch.tagUnreadable = false ∧ s.cart.cleaning = true then beginCleanRun s
      else setStep .servoAcquire { s with mo.dir := .forward }
    else if s.ch.transport = .active ∧ s.mo.wait = .retension then
      procedureReturns (noteTarget { s with mo.recT := Config.tStream })
    else s)

/-- OPEN_FLAG_WRITE_END (R16). -/
def execOpenFlagWriteEnd (ok : Bool) (s : State) : Out :=
  .next (if s.wr.openBusy then
    let s := { s with wr.openBusy := false }
    if ok then s else postNotice .tagWriteFailed [] s
  else s)

/-- The read is ended as READ_ABORT ends it, and a splice as R103 gives, for an unload (R17). -/
def endReadForUnload (s : State) : State :=
  let s := match runningOp .read s with
    | some (.readRecords _) => if s.ci.read.judged then abortRead s else s
    | _ => s
  match runningOp .write s with
  | some (.writeOpen _ _) => if s.ci.write.judged then spliceEnds .aborted s else s
  | _ => s

/-- The unload goes on from where the session and the read have been ended (R17, R38, R66). -/
def unloadFrom (s : State) : State :=
  match s.ch.transport with
  | .parked => let s := wake s
    { s with pw.waiters := s.pw.waiters ++ [.transport] }
  | .ready => if s.pw.settling then { s with pw.waiters := s.pw.waiters ++ [.transport] } else beginUnload s
  | .active => endMotion true true s
  | _ => beginUnload s

/-- UNLOAD judged (R17). -/
def judgeUnload (force : Bool) (s : State) : State :=
  match s.ch.transport with
  | .empty => refuse .transport .noCartridge s
  | .loading | .unloading => refuse .transport .busyTransport s
  | .seated => startEject s
  | _ =>
    if sessionOpen s = true ∧ force = false then refuse .transport .sessionOpen s
    else
      let s := if sessionOpen s then abortSession (abortWaiting s) else s
      unloadFrom (endReadForUnload s)

def execUnload (tag : Word) (force : Bool) (s : State) : Out :=
  firmware { tag := tag, op := .unload force } (fun o => match o with | .unload f => judgeUnload f | _ => id) s

/-- TENSION_DOWN_DONE: 16 scans done (R18, R31). -/
def execTensionDownDone (s : State) : Out :=
  .next (if 16 ≤ s.re.downK then
    let done := fun (s : State) => fillWindow { s with re.brake := false, re.downK := 0 }
    match s.ch.step with
    | some .tensionDown => startThreadReturn (done s)
    | some .backTension => startBackArm (done s)
    | _ => s
  else s)

/-- PIN_RELEASED (R18). -/
def execPinReleased (s : State) : Out :=
  let s := { s with ch.pin := false }
  .next (if s.ch.step = some .pinRelease then startHubRelease s else s)

/-- HUB_RELEASED (R10, R18). -/
def execHubReleased (s : State) : Out :=
  let s := { s with ch.hub := false }
  .next (match s.ch.step with
    | some .hubRelease => startTagWrite s
    | some .backHub => afterBackHub s
    | _ => s)

/-- UNLOAD_STEP_LIMIT (R18). -/
def execUnloadStepLimit (s : State) : Out :=
  .next (match s.ch.step with
    | some .eject => enterFaulted .threadFailed s
    | some .threadReturn | some .pinRelease | some .hubRelease => unloadFails (stopArm s)
    | some .tagWrite => startEject (postNotice .tagWriteFailed [] s)
    | some .rewind => unloadFails s
    | _ => s)

/-- TAG_WRITE_END (R19). -/
def execTagWriteEnd (ok : Bool) (s : State) : Out :=
  .next (if s.ch.step = some .tagWrite then startEject (if ok then s else postNotice .tagWriteFailed [] s) else s)

end Sys2Proof.Machine
end

