-- ==== Sys2Proof/Machine/ReelRows.lean ====
section
/-! DEFINITION. The meanings of the period and scan commands (Chapter 2), with what a scan does to the position (R43), to the
speed under way (R45), to END_APPROACH and EARLY_WARNING (R55, R57) and to the cleaning distance (R172). -/

namespace Sys2Proof.Machine

/-! ### PERIOD_START (R23, R24, R26) -/

/-- Copy the staged pair where the update flag is set. -/
def Channel.apply (c : Channel) : Channel := if c.flag then { c with rise := c.sRise, fall := c.sFall, flag := false } else c

/-- A scan falls due by the scan mode (R26). -/
def markScan (s : State) : State :=
  match powerOf s.ch.transport with
  | .sleep => { s with re.scanDue := false }
  | .parkPower => { s with re.scanDue := decide (s.re.sparse = 0), re.sparse := (s.re.sparse + 1) % 64 }
  | .holdPower | .full => { s with re.scanDue := true }

def execPeriodStart (s : State) : Out :=
  .next (markScan { s with re.sup := s.re.sup.apply, re.tak := s.re.tak.apply, re.armCh := s.re.armCh.apply,
                           re.supDir := if s.re.sup.flag then s.re.supDirS else s.re.supDir,
                           re.armDir := if s.re.armCh.flag then s.re.armDirS else s.re.armDir })

/-! ### The loops (R28, R29, R31) -/

/-- v, signed positive in the direction in which the supply channel is set, and in FORWARD when no motion is commanded (R26). -/
def signedV (s : State) : Int := if vStar s = 0 ∨ s.re.supDir = .forward then windowDistance s else -windowDistance s

/-- Dt' (R28). -/
def stepDt (dt tStar_ t : Nat) : Nat := clampInt ((dt : Int) + (((tStar_ : Int) - t) * 3).fdiv 16) 16 1000

/-- Ds' (R29). -/
def stepDs (ds vStar_ : Nat) (v : Int) : Nat := clampInt ((ds : Int) + (((vStar_ : Int) - v) * 5).fdiv 32) 0 1000

/-- What a loop stages: half of the integrator while the reel is DEGRADED (R28, R29, R32). -/
def stagedDuty (degraded : Bool) (d : Nat) : Nat := if degraded then d / 2 else d

/-- Stage the take-up pair: the pulse begins each period (R28). -/
def stageTake (s : State) : State := { s with re.tak := s.re.tak.stage 0 (stagedDuty s.re.degTak s.re.dt) }

/-- Stage the supply pair: the pulse ends each period (R29). -/
def stageSupply (s : State) : State :=
  { s with re.sup := s.re.sup.stage (1024 - stagedDuty s.re.degSup s.re.ds) 1024, re.supDirS := supplyDir s }

/-- The arm pulls tape in THREAD_PULL (R8, R27). -/
def pulling (s : State) : Bool := decide (s.ch.transport = .loading) && decide (s.ch.step = some .threadPull)

/-- The loop of a reel runs at a scan whose tape-in-path sensor reads `tape` (R27): in THREAD_PULL the take-up loop alone, where there is
tape; elsewhere both. -/
def loopOf (r : Reel) (tape : Bool) (s : State) : Bool :=
  loopsRun s && (!pulling s || match r with
    | .supply => false
    | .takeUp => tape)

/-- The two loop steps of a scan (R27 to R29): in THREAD_PULL the take-up loop alone, where tape is in the path. -/
def loopStep (x : ScanSample) (s : State) : State :=
  if pulling s then
    if x.tape then stageTake { s with re.dt := stepDt s.re.dt (tStar s) x.tension, re.sup := s.re.sup.stage 0 0 }
    else { s with re.sup := s.re.sup.stage 0 0, re.tak := s.re.tak.stage 0 0 }
  else
    let s := stageTake { s with re.dt := stepDt s.re.dt (tStar s) x.tension }
    stageSupply { s with re.ds := stepDs s.re.ds (vStar s) (signedV s) }

/-- One scan of TENSION_DOWN (R31). -/
def tensionDownStep (s : State) : State :=
  if s.re.downK < 16 then
    let k := s.re.downK + 1
    let s := { s with re.downK := k, re.tak := s.re.tak.stage 0 (s.re.downDt * (16 - k) / 16),
                      re.sup := s.re.sup.stage (1024 - s.re.downDs * (16 - k) / 16) 1024 }
    if k = 16 then { s with re.dt := 0, re.ds := 0 } else s
  else s

/-- Distance between two codes. -/
def codeGap (a b : Nat) : Nat := if a ≤ b then b - a else a - b

/-! ### Detectors (R31 to R34) -/

/-- The settle counter (R31). -/
def countSettle (t : Nat) (s : State) : State :=
  { s with re.settle := if codeGap t s.re.tstar ≤ 200 then min (s.re.settle + 1) 65535 else 0 }

/-- One reel's current-limit count: up to 8 while NORMAL, up to 1,024 while DEGRADED (R32). A count at its trigger waits there
for its own row. -/
def limitCount (degraded : Bool) (n current : Nat) : Nat :=
  if degraded then (if n = 1024 then n else if current ≤ 3600 then n + 1 else 0)
  else (if n = 8 then n else if 3600 < current then n + 1 else 0)

/-- One of the scans that follow a change of T* (R33). -/
def countHold (s : State) : State := { s with re.excHold := s.re.excHold - 1 }

/-- The excursion count (R33); `held`: the scan is one of the 64 that follow a change of T*. -/
def countExcursion (held : Bool) (t : Nat) (s : State) : State :=
  if s.ch.transport ≠ .active then { s with re.exc := 0, re.excDue := false }
  else if held then { s with re.exc := 0 }
  else if 600 < codeGap t s.re.tstar then
    if s.re.exc = 4 then s else { s with re.exc := s.re.exc + 1, re.excDue := decide (s.re.exc + 1 = 4) || s.re.excDue }
  else { s with re.exc := 0 }

/-- The stall count (R34). -/
def countStall (s : State) : State :=
  if (windowDistance s).natAbs < 2 ∧ 26 ≤ vStar s ∧ 960 ≤ s.re.ds then
    if s.re.stall = 64 then s else { s with re.stall := s.re.stall + 1, re.stallDue := decide (s.re.stall + 1 = 64) || s.re.stallDue }
  else { s with re.stall := 0 }

/-- The three detectors (Section 2.4). -/
def detect (held : Bool) (x : ScanSample) (s : State) : State :=
  let s := { s with re.limSup := limitCount s.re.degSup s.re.limSup x.supplyCurrent, re.limTak := limitCount s.re.degTak s.re.limTak x.takeUpCurrent }
  countStall (countExcursion held x.tension s)

/-! ### Position (R26, R43, R172) -/

/-- The movement since the last report in quarter counts, and the window after the scan (R26). -/
def newWindow (x : ScanSample) (s : State) : Int × List Int :=
  (x.movement - s.re.input, (x.movement :: s.re.window).take 33)

/-- Carry an estimated count forward in the direction commanded (R43). -/
def carryCount (moved : Nat) (s : State) : State :=
  let q := s.mo.quarter + moved
  let c := if s.mo.dir = .forward then min Config.tapeEnd (s.mo.count + q / 4) else s.mo.count - q / 4
  { s with mo.count := c, mo.quarter := q % 4 }

/-- The position after the scan (R43). -/
def trackPosition (x : ScanSample) (moved : Nat) (s : State) : State :=
  match s.mo.quality with
  | .locked => { s with mo.pass := x.servoPass, mo.count := x.servoCount, mo.quarter := 0 }
  | .estimated => carryCount moved s
  | .unknown => s

/-- METER's sum, the cleaning distance and its use count, the run without a frame (R15, R43, R49, R172). -/
def trackMovement (delta : Int) (s : State) : State :=
  let moved := delta.natAbs
  let s := carryMovement delta s
  let s := { s with rd.blank := if s.mo.mode = some .readStream then s.rd.blank + moved else s.rd.blank }
  if s.ch.transport = .active ∧ s.mo.mode = some .cleanRun ∧ 0 < delta ∧ s.he.useCounted = false then
    let c := s.cart
    putCart { c with uses := min (c.uses + 1) 50 } { s with he.useCounted := true }
  else s

/-! ### Speed under way (R45) -/

/-- One step of v* toward its destination. -/
def stepToward (v dest : Nat) : Nat := if v < dest then v + 1 else if dest < v then v - 1 else v

/-- The Motion Controller steps v* in RAMP, TURN, BACKHITCH and RECOVERY, and as a rewind stops (R45). -/
def stepSpeed (s : State) : State :=
  let steps := (decide (s.ch.transport = .active) && (decide (s.mo.mode = some .ramp) || decide (s.mo.mode = some .turn) ||
      decide (s.mo.mode = some .backhitch) || decide (s.mo.mode = some .recovery))) ||
    (decide (s.ch.transport = .unloading) && s.mo.stopping)
  let s := if steps then { s with mo.v := stepToward s.mo.v s.mo.dest } else s
  checkStop s

/-- The cleaning rewind begins its stop where the cleaning distance comes back to 0 (R173). -/
def checkCleanRewind (s : State) : State :=
  match s.he.cleanDist with
  | some d =>
    if s.ch.transport = .unloading ∧ s.ch.step = some .rewind ∧ s.mo.goal = .rewind ∧ s.mo.legs = [] ∧ s.mo.stopping = false ∧
       d * 64 ≤ ((s.mo.v * (s.mo.v + 1) : Nat) : Int) then { s with mo.dest := 0, mo.stopping := true }
    else s
  | none => s

/-! ### What the position leads to (R49, R55, R57, R148) -/

/-- A streaming mode (R57). -/
def streaming (s : State) : Bool :=
  decide (s.mo.mode = some .writeStream) || decide (s.mo.mode = some .runout) || decide (s.mo.mode = some .readStream)

/-- The segment being written: that of the frame in transmission, else of the frame sent last, else the highest ON_TAPE. -/
def segmentWritten (s : State) : Nat :=
  match s.wr.tx, s.wr.verifyQ.getLast?, (slotsIn isOnTape s).getLast? with
  | some t, _, _ => (slotAt s t.slot).seg
  | none, some v, _ => v.id.seg
  | none, none, some k => (slotAt s k).seg
  | none, none, none => eodSeg s

/-- EARLY_WARNING (R55, 12.4): the segment being written and the position, 4 bytes each. -/
def earlyWarning (s : State) : State :=
  if (s.mo.mode = some .writeStream ∨ s.mo.mode = some .runout) ∧ s.mo.pass = 47 ∧ s.mo.count ≤ 60000 ∧ s.mo.warned = false then
    postNotice .earlyWarning (leBytes 4 (segmentWritten s) ++ leBytes 4 s.mo.count) { s with mo.warned := true }
  else s

/-- The position has reached the EOD position on the EOD pass, in a read that EOD bounds (R148). -/
def eodReached (s : State) : Bool :=
  match s.cart.eod with
  | some e => decide (s.rd.user ≠ some .confirm) && decide (s.mo.pass = e.pos.pass) && reached e.pos.pass s.mo.count e.pos.count
  | none => false

/-- The last segment of the pass that the pass table names, of a pass before the one EOD lies on, has been met (R51). -/
def passLastMet (s : State) : Bool :=
  match s.cart.passes.getD s.mo.pass none with
  | some e => decide (e.last + 1 < eodSeg s) && (decide (e.last < s.rd.x) || (readSlots s).any (fun k => decide ((slotAt s k).seg = e.last)))
  | none => false

/-- A reading stream turns at the region end without a pass table to follow (R49, R51), and behind the last segment of the pass where
frames of it were missed (R48, R51; that it is known to be past at the region end is the model's choice, log entry 36). -/
def turnsAtEnd (s : State) : Bool :=
  decide (s.mo.pass < 47) && (s.cart.eod.isNone || decide (s.rd.user = some .confirm) || passLastMet s) &&
    reached s.mo.pass s.mo.count (regionEnd s.mo.pass)

/-- What the position of the scan leads to in a stream. -/
def watchPosition (s : State) : State :=
  if s.ch.transport ≠ .active ∨ streaming s = false ∨ s.mo.quality = .unknown then s
  else
    let s := earlyWarning s
    let s := if s.mo.mode = some .readStream then consultBounds s else s
    if s.mo.mode = some .readStream ∧ s.rd.state = .streaming ∧ s.rd.dataEnd = false ∧ eodReached s = true then endOfStream s
    else if s.mo.mode = some .readStream ∧ turnsAtEnd s = true then beginReadTurn s
    else if beyondEnd s then raiseFault .endApproach s
    else s

/-- SERVO_ACQUIRE completes at a scan at which the servo has lock and its position is BOT (R8). -/
def watchBot (x : ScanSample) (s : State) : State :=
  if s.ch.transport = .loading ∧ s.ch.step = some .servoAcquire ∧ s.mo.locked = true ∧ x.servoPass = 0 ∧ x.servoCount = Config.regionLow then
    settle (loadComplete s)
  else s

/-- What a scan does to the loops, the detectors and the speed under way (Sections 2.3 and 2.4, R45). -/
def scanLoops (x : ScanSample) (s : State) : State :=
  let s := noteTarget s
  let held := decide (0 < s.re.excHold)
  let s := countHold (countSettle x.tension s)
  let s :=
    -- the detectors act where a loop runs (Section 2.4)
    if loopsRun s then (if loopOf .takeUp x.tape s then detect held x (loopStep x s) else loopStep x s)
    else if s.ch.step = some .tensionDown ∨ s.ch.step = some .backTension then tensionDownStep s
    else holdIdle s
  checkCleanRewind (stepSpeed s)

/-- The search of R56 ends at a scan at which the servo has lock, be it reported before the search began: the position becomes the
servo's, and the tape stops. -/
def watchSearch (x : ScanSample) (s : State) : State :=
  if s.mo.recal = true ∧ s.mo.goal = .recalSearch ∧ s.mo.locked = true ∧ (s.ch.transport = .active ∨ s.ch.transport = .unloading) then
    searchLocked (takePosition x.servoPass x.servoCount s)
  else s

/-- What a scan brings of the sensors, the movement and the position (R26, R43). -/
def scanReads (x : ScanSample) (s : State) : State :=
  let w := newWindow x s
  let s := { s with re.scanDue := false, re.window := w.2, re.input := x.movement, ch.arm := x.arm, ch.tape := s.ch.tape || x.tape }
  trackMovement w.1 (trackPosition x w.1.natAbs s)

/-- SCAN_COMPLETE (R26 and the rules it names). -/
def scanDone (x : ScanSample) (s : State) : State :=
  watchBot x (settle (watchPosition (passReached (scanLoops x (watchSearch x (scanReads x s))))))

def execScanComplete (x : ScanSample) (s : State) : Out := .next (if s.re.scanDue then scanDone x s else s)

/-! ### REEL_DEGRADE, REEL_RETURN_NORMAL (R32)

The duty is staged again after the loop step of the same scan completion, so only where that reel's loop runs (R27). -/

def execReelDegrade (r : Reel) (s : State) : Out :=
  .next (match r with
    | .supply =>
      if s.re.degSup = false ∧ 8 ≤ s.re.limSup then
        let s := { s with re.degSup := true, re.limSup := 0, re.entSup := satInc16 s.re.entSup }
        if loopOf .supply s.ch.tape s then stageSupply s else s
      else s
    | .takeUp =>
      if s.re.degTak = false ∧ 8 ≤ s.re.limTak then
        let s := { s with re.degTak := true, re.limTak := 0, re.entTak := satInc16 s.re.entTak }
        if loopOf .takeUp s.ch.tape s then stageTake s else s
      else s)

def execReelReturnNormal (r : Reel) (s : State) : Out :=
  .next (match r with
    | .supply => if s.re.degSup = true ∧ 1024 ≤ s.re.limSup then { s with re.degSup := false, re.limSup := 0 } else s
    | .takeUp => if s.re.degTak = true ∧ 1024 ≤ s.re.limTak then { s with re.degTak := false, re.limTak := 0 } else s)

/-! ### TENSION_EXCURSION, REEL_STALL (R33, R34) -/

def execTensionExcursion (s : State) : Out :=
  .next (if s.re.excDue then
    let s := { s with re.excDue := false }
    if s.ch.transport = .active then settle (raiseFault .tensionExcursion s) else s
  else s)

def execReelStall (s : State) : Out :=
  .next (if s.re.stallDue then
    let s := { s with re.stallDue := false }
    match s.ch.transport with
    | .active => settle (raiseFault .reelStall s)
    | .loading => if s.ch.step = some .servoAcquire then loadStepFails s else s
    | .unloading => if s.ch.step = some .rewind then unloadFails s else s
    | _ => s
  else s)

end Sys2Proof.Machine
end

