-- ==== Sys2Proof/Machine/MotionRows.lean ====
section
/-! DEFINITION. The meanings of Chapter 3's commands, with SERVO_LOCK: locates and RECALIBRATE, lock and its loss, METER, the
cleaning distance, the limits of a recovery, and the ends of ramps and moves. -/

namespace Sys2Proof.Machine

/-! ### LOCATE and RECALIBRATE (R46, R56) -/

/-- A command that needs motion, judged where motion may begin (R36, R38): PARKED is woken and the command waits; READY that
settles makes it wait; READY lets it begin. -/
def whenSettled (j : JobId) (begin_ : State → State) (s : State) : State :=
  match s.ch.transport with
  | .parked => let s := wake s
    { s with pw.waiters := s.pw.waiters ++ [j] }
  | _ => if s.pw.settling then { s with pw.waiters := s.pw.waiters ++ [j] } else begin_ s

/-- LOCATE judged (R46): the target code first, RECORD 0, EOD 1 or BOT 2 (12.3), then the transport state. -/
def judgeLocate (target r : Nat) (s : State) : State :=
  if 2 < target then completeWith .transport .refusedOperand s
  else
    match s.ch.transport with
    | .ready | .parked => whenSettled .transport (beginLocate target r) s
    | t => refuse .transport (transportSub t) s

def execLocate (tag : Word) (target r : Nat) (s : State) : Out :=
  firmware { tag := tag, op := .locate target r } (fun o => match o with | .locate t n => judgeLocate t n | _ => id) s

/-- RECALIBRATE judged (R56): taken in UNPOSITIONED; the record is adopted first where it is not held. -/
def judgeRecalibrate (s : State) : State :=
  match s.ch.transport with
  | .unpositioned => if s.ch.recordHeld then beginRecalibrate s else startAdopt s
  | t => refuse .transport (transportSub t) s

def execRecalibrate (tag : Word) (s : State) : Out :=
  firmware { tag := tag, op := .recalibrate } (fun _ => judgeRecalibrate) s

/-- RECALIBRATE, or the search that serves as an unload's rewind, fails (R18, R56). -/
def recalibrateFails (s : State) : State :=
  match s.ch.transport with
  | .active => enterFaulted .motionFault s
  | .unloading => unloadFails s
  | _ => s

/-- RECALIBRATE_LOCK_TIMEOUT (R56): 30 s of search without lock. -/
def execRecalibrateLockTimeout (s : State) : Out :=
  .next (if s.mo.recal = true ∧ s.mo.goal = .recalSearch ∧ s.mo.locked = false then recalibrateFails s else s)

/-- RECALIBRATE_NO_MOVEMENT (R56): no movement for 1 s while v* is not 0. -/
def execRecalibrateNoMovement (s : State) : Out :=
  .next (if s.mo.recal = true ∧ vStar s ≠ 0 then recalibrateFails s else s)

/-! ### Lock (R36, R43, R56, R57, R60) -/

/-- The regained lock agrees with the position held: the same pass, at most 24 counts away (R36, R57). -/
def inPlace (pass count : Nat) (s : State) : Bool := decide (pass = s.mo.pass) && decide (gapOf count s.mo.count ≤ 24)

/-- The transport loses its position at rest: UNPOSITIONED; a waiting command completes MOTION_FAULT and an open session ends
(R36, R57). -/
def losePlace (s : State) : State :=
  let waits := s.pw.waiters.contains .transport
  let s := setTransport .unpositioned s
  let s := if waits then endTransport .motionFault s else s
  settle (loseOperations s)

/-- Lock in ACTIVE: the search of RECALIBRATE, the forward move of SERVO_LOSS's procedure, or a plain return of lock. -/
def activeLock (pass count : Nat) (s : State) : State :=
  if s.mo.mode = some .cleanRun ∨ s.mo.quality = .unknown ∧ s.mo.recal = false then s
  else
    let s := takePosition pass count s
    if s.mo.recal = true ∧ s.mo.goal = .recalSearch then searchLocked s
    else if s.mo.wait = .forwardMove then settle (procedureReturns s)
    else settle (watchPosition (passReached s))

/-- SERVO_LOCK (R43): the servo reports lock at a pass and count. -/
def execServoLock (pass count : Nat) (s : State) : Out :=
  .next (match s.ch.transport with
    | .loading =>
      if s.ch.step = some .servoAcquire then
        if pass = 0 ∧ count = Config.regionLow then settle (loadComplete s) else { s with mo.locked := true }
      else s
    | .ready =>
      if s.pw.settling || s.mo.reacquire then
        if inPlace pass count s then takePosition pass count { s with mo.reacquire := false } else losePlace s
      else takePosition pass count s
    | .active => activeLock pass count s
    | .unloading =>
      if s.mo.recal = true ∧ s.mo.goal = .recalSearch then searchLocked (takePosition pass count s)
      else if s.mo.quality = .unknown then { s with mo.locked := true } else passReached (takePosition pass count s)
    | .unpositioned => { s with mo.locked := true }
    | .empty | .seated | .parked | .faulted => s)

/-- LOSS_OF_LOCK (R43, R57): ESTIMATED; SERVO_LOSS in ACTIVE, a reacquire in READY. -/
def execLossOfLock (s : State) : Out :=
  let was := s.mo.locked
  let s := { s with mo.locked := false, mo.quality := if s.mo.quality = .locked then .estimated else s.mo.quality }
  .next (if was then
    match s.ch.transport with
    | .active =>
      -- the cleaning run does not ask the servo to lock (R172)
      if s.mo.mode = some .cleanRun ∨ s.he.cleanDist.isSome = true then s else settle (raiseFault .servoLoss s)
    | .ready => if s.pw.settling then s else { s with mo.reacquire := true }
    | _ => s
  else s)

/-- REACQUIRE_TIMEOUT (R57). -/
def execReacquireTimeout (s : State) : Out := .next (if s.mo.reacquire then losePlace s else s)

/-! ### METER, the cleaning distance (R43, R173) -/

/-- METER: 4,000 counts moved, the remainder carried forward. -/
def execMeter (s : State) : Out :=
  .next (if 16000 ≤ s.mo.meter then meterEvent { s with mo.meter := s.mo.meter - 16000 } else s)

/-- CLEANING_DISTANCE_REACHED: 240,000 counts; the tape ramps to rest. -/
def execCleaningDistanceReached (s : State) : Out :=
  .next (match s.he.cleanDist with
    | some d =>
      if s.ch.transport = .active ∧ s.mo.mode = some .cleanRun ∧ 960000 ≤ d then stopThen .cleanStop s else s
    | none => s)

/-! ### Limits of a recovery (R60, R65) -/

/-- RETENSION_TIMEOUT (R60): the recovery fails, into FAULTED. -/
def execRetensionTimeout (s : State) : Out :=
  .next (if s.ch.transport = .active ∧ s.mo.wait = .retension ∧ tensionSettled s = false then settle (failRecovery true s) else s)

/-- RECOVERY_LOCK_TIMEOUT (R60). -/
def execRecoveryLockTimeout (s : State) : Out :=
  .next (if s.ch.transport = .active ∧ s.mo.wait = .forwardMove then settle (failRecovery (stallInvolved .servoLoss s) s) else s)

/-- STOP_TIMEOUT (R65): the tape of a failed recovery is not at rest 1 s after its stop began. -/
def execStopTimeout (s : State) : Out :=
  .next (if s.ch.transport = .active ∧ s.mo.wait = .failing ∧ atRest s = false then failureStands true s else s)

/-! ### Ramps and moves (R45) -/

/-- RAMP_COMPLETE: v* has reached the destination of a ramp that leads into a mode. -/
def execRampComplete (s : State) : Out :=
  .next (match s.mo.into with
    | none => s
    | some m =>
      if s.ch.transport = .active ∧ (s.mo.mode = some .ramp ∨ s.mo.mode = some .turn) ∧ s.mo.v = s.mo.dest then
        let s := noteTarget { s with mo.mode := some m, mo.into := none }
        -- a seek's scan stands in STREAMING from here until it has found its target (log entry 42)
        if m = .readStream then { s with rd.state := .streaming } else s
      else s)

/-- MOVE_ARRIVED: the tape has come to rest at the named point of a move. -/
def execMoveArrived (s : State) : Out := .next (arrive s)

end Sys2Proof.Machine
end

