-- ==== Sys2Proof/Machine/WriteRows.lean ====
section
/-! DEFINITION. The meanings of Chapter 5's and Chapter 6's commands: frame slots and their results, blank detection, the
write session's commands, the steps of intake and parity; and SET_STREAM_POLICY (R139). -/

namespace Sys2Proof.Machine

/-! ### Frames on the write stream (R50, R112 to R115) -/

/-- FRAME_SLOT (R50, R112): the writer answers the slot; a frame that starts off its planned start raises FRAME_SLIP. -/
def execFrameSlot (s : State) : Out :=
  .next (if slotDue s then
    let t := frameSlot s
    settle (if slipped s t then raiseFault .frameSlip t else t)
  else s)

/-- FRAME_TRANSMISSION_COMPLETE (R114, R117). -/
def execFrameTransmissionComplete (s : State) : Out := .next (settle (transmissionComplete s))

/-- VERIFY_RESULT (R115): a result of the read-status stream while a session is open or frames still await theirs. -/
def execVerifyResult (id : FrameId) (st : FrameStatus) (s : State) : Out :=
  .next (if sessionOpen s || !s.wr.verifyQ.isEmpty then settle (verifyResult id st s) else s)

/-! ### Blank detection (R15, R49) -/

/-- EOD behind the last segment that a read of a TAG_UNREADABLE cartridge has met (R49, R148). Its first record number is that
of the segment's entries where frame 27 is held, a free value until the segment is whole otherwise (log entry 31). -/
def readBlankEod (s : State) : State :=
  match (slotsIn isFetching s).getLast? with
  | some k =>
    let x := slotAt s k
    let known := x.held.getD 27 false
    let n := if known then segmentNextRec s k else freeNow s % two32
    let e : Eod := { seg := x.seg + 1, firstRec := n, pos := x.frameEnd.getD (here s) }
    putCart { s.cart with eod := some e } { (if known then consultLast k s else usedFree s) with ch.eodConfirmed := true }
  | none => { s with ch.eodConfirmed := true }

/-- BLANK_DETECTION (R15, R49, R148): 12,288 counts without the start of a frame, in quarter counts of the scans, where EOD is
absent or being confirmed. -/
def execBlankDetection (s : State) : Out :=
  .next (if s.ch.transport = .active ∧ s.mo.mode = some .readStream ∧ s.rd.state = .streaming ∧ blankMet s = true ∧
      (s.cart.eod = none ∨ s.rd.user = some .confirm) then
    let s := consultHead s
    settle (endOfStream (if s.rd.user = some .records then readBlankEod s else s))
  else s)

/-! ### WRITE_OPEN (R85, R86, R101) -/

/-- The kinds of start (R86). -/
inductive Start where
  | append (e : Eod)
  | fromBot
  | splice
deriving DecidableEq, Repr

/-- The kind of start at logical position p (R86). -/
def startKind (c : Cart) (p : Nat) : Start :=
  match c.eod with
  | none => .fromBot
  | some e => if p = e.firstRec then .append e else if p = 0 then .fromBot else .splice

/-- In READY the session opens into WAIT_DATA; PARKED stays PARKED (R86). -/
def afterOpen (s : State) : State := if s.ch.transport = .ready then enterWaitData s else s

/-- A BOT start empties the directory of a cartridge that holds data (R86). -/
def emptyDirectory (s : State) : State :=
  let c := s.cart
  if c.eod = none ∧ c.marks = [] ∧ c.passes.all Option.isNone = true then s
  else putCart { c with eod := none, passes := List.replicate 48 none, marks := [] } s

/-- The splice's read begins at the segment LOCATE has found, or behind a scan for it (R101). -/
def beginSplice (p : Nat) (s : State) : State :=
  let s := { s with rd.spliceRec := p, mo.entry := 0 }
  match s.rd.start with
  | some sp => if sp.located then beginSpliceRead sp s else beginScan .scanSplice (some p) s
  | none => beginScan .scanSplice (some p) s

/-- WRITE_OPEN proceeds (R86). -/
def beginWriteOpen (offset : Nat) (compress : Bool) (p : Nat) (s : State) : State :=
  let s := consultCart s
  match startKind s.cart p with
  | .append e => afterOpen (openSession offset compress e.seg p (eodResume e) s)
  | .fromBot => afterOpen (openSession offset compress 0 0 bot (emptyDirectory s))
  | .splice => beginSplice p s

/-- The last checks of R85, for which the cartridge record is read; WRITE_OPEN waits where the transport settles, and a splice wakes
PARKED. -/
def judgeWritable (offset : Nat) (compress : Bool) (s : State) : State :=
  if writable s = false then refuse .write .writeProtected s
  else
    match s.mo.lp with
    | none => refuse .write .notPositioned s
    | some p =>
      if s.ch.transport = .parked ∧ startKind s.cart p ≠ .splice then beginWriteOpen offset compress p s
      else whenSettled .write (beginWriteOpen offset compress p) s

/-- WRITE_OPEN judged: the checks of R85 in order. -/
def judgeWriteOpen (offset : Nat) (compress : Bool) (s : State) : State :=
  if offset % 16 ≠ 0 ∨ ringZ s ≤ offset then completeWith .write .refusedOperand s
  else if s.ch.transport ≠ .ready ∧ s.ch.transport ≠ .parked then refuse .write (transportSub s.ch.transport) s
  else if sessionOpen s then refuse .write .sessionOpen s
  else if readRunning s then refuse .write .readActive s
  else judgeWritable offset compress (consultHead s)

def execWriteOpen (tag : Word) (offset : Nat) (compress : Bool) (s : State) : Out :=
  firmware { tag := tag, op := .writeOpen offset compress } (fun o => match o with | .writeOpen a b => judgeWriteOpen a b | _ => id) s

/-- SESSION_COUNT_WRITE_END (R86): the writer may send frames; a failed write posts TAG_WRITE_FAILED. -/
def execSessionCountWriteEnd (ok : Bool) (s : State) : Out :=
  .next (if s.wr.countBusy then
    let s := { s with wr.countBusy := false }
    if ok then s else postNotice .tagWriteFailed [] s
  else s)

/-! ### The steps of intake (R90, R96 to R99, R104, R105) -/

/-- STAGING_FETCH_RETURN (R90): the bytes are consumed when they are the next at the cursor. -/
def execStagingFetchReturn (s : State) : Out :=
  .next (match s.ri.fetch, s.ri.fetched with
    | some off, some bs =>
      let s := { s with ri.fetch := none, ri.fetched := none }
      settle (if off = s.ri.cursor ∧ takesBytes s = true then consume (bs.length + 1) bs s else s)
    | _, _ => s)

/-- The seal that FLUSH asked for while a chunk waited in PLACING, with the flush target it leaves (R100, R124). -/
def answerSeal (s : State) : State :=
  if s.ri.sealReq then
    let s := sealSlot { s with ri.sealReq := false, ri.history := [] }
    { s with wr.flush := s.wr.flush.map (fun _ => some (flushTarget s)) }
  else s

/-- CHUNK_PLACED (R97): the last write of a chunk that fits has been issued; a RAW body has come from staging before. -/
def execChunkPlaced (s : State) : Out :=
  .next (match s.ri.st, s.ri.item, s.ri.filling, s.ri.cur with
    | .placing, some (.chunk raw body comp), some k, some c =>
      if 0 < body ∧ (waitingBody comp s).length = body ∧ chunkFits s.ri.u s.ri.e (4 + body) s.ri.frag.isNone = true then
        settle (sealWhenIdle (answerSeal (placeChunk k c raw comp s)))
      else s
    | _, _, _, _ => s)

/-- The chunk fetched again has been compressed afresh from the empty history (R99 step 6); one that a seal had cut short goes on
in DATA (R100). -/
def recompressed (got : List Byte) (s : State) : State :=
  let s := { s with ri.refetched := [] }
  if s.ri.cur.any (fun c => decide (got.length < chunkLen c)) then { s with ri.st := .data, ri.raw := got, ri.item := none, ri.history := [] }
  else
    let b := chunkBody s.ri.compress [] got
    tryPlace { s with ri.item := some (.chunk got.length b.1.length b.2), ri.chunkBuf := if b.2 then b.1 else [], ri.history := lastBytes got, ri.st := .placing }

/-- RECOMPRESS_DONE (R99): the raw bytes have been fetched from staging and compressed afresh. -/
def execRecompressDone (s : State) : Out :=
  .next (match s.ri.st, s.ri.item with
    | .recompress, some (.chunk raw _ _) => if s.ri.refetched.length = raw then settle (recompressed s.ri.refetched s) else s
    | _, _ => s)

/-- SLOT_EXHAUSTION_END (R96, R105): a slot is free again for what waits. -/
def execSlotExhaustionEnd (s : State) : Out :=
  .next (if intakeWaits s = true ∧ s.sm.free.isEmpty = false then
    match s.ri.st, s.ri.marker with
    | .stopping, some n =>
      match takeSlot s with
      | some s => settle (finishStop (placeMarker n s))
      | none => s
    | _, _ => settle (sealWhenIdle (tryPlace s))
  else s)

/-! ### Parity (R110) -/

/-- The four parity frames formed from the bytes of frames 0 to 27 (R110). -/
def parityFrames (bs : List Byte) : List Byte :=
  [28, 29, 30, 31].flatMap (fun w => solveFrame [28, 29, 30, 31] (List.range 28) w (framesOf 28 bs))

/-- The slot whose parity is done is SEALED; one left over from a session that has been closed is freed (R110, R125). -/
def parityEnds (k : Nat) (s : State) : State :=
  if s.sm.orphans.contains k then freeSlot k { s with sm.orphans := s.sm.orphans.filter (fun j => decide (j ≠ k)) }
  else setSlot k { slotAt s k with st := .sealed } s

/-- PARITY_DONE (R110): frames 0 to 27 of the slot served have been read, and the last parity line write has been issued. -/
def execParityDone (s : State) : Out :=
  .next (match s.sm.parity, s.sm.parityGot with
    | k :: rest, some bs =>
      let s := issueWrite .internal (slotBase s k + 28 * Config.frameBytes) (parityFrames bs) .plain s
      settle (serveParity (parityEnds k { s with sm.parity := rest, sm.parityGot := none }))
    | _, _ => s)

/-! ### The session's commands (R100, R104, R123 to R126) -/

def execFlush (tag : Word) (s : State) : Out := firmware { tag := tag, op := .flush } (fun _ => judgeFlush) s

def execWriteClose (tag : Word) (s : State) : Out := firmware { tag := tag, op := .writeClose } (fun _ => judgeWriteClose) s

/-- WRITE_ABORT judged (R123, R126). -/
def judgeWriteAbort (s : State) : State :=
  if sessionOpen s then completeWith .write .ok (endMotion true false (abortSession s)) else refuse .write .noSession s

def execWriteAbort (tag : Word) (s : State) : Out := firmware { tag := tag, op := .writeAbort } (fun _ => judgeWriteAbort) s

/-! ### SET_STREAM_POLICY (R139, R140) -/

def execSetStreamPolicy (tag : Word) (p : StreamOperands) (s : State) : Out :=
  firmware { tag := tag, op := .setStreamPolicy p } (fun o => match o with | .setStreamPolicy q => judgeSetStreamPolicy q | _ => id) s

end Sys2Proof.Machine
end

