-- ==== Sys2Proof/Machine/ReadRows.lean ====
section
/-! DEFINITION. The meanings of Chapter 8's commands: READ_RECORDS, READ_ABORT, the frames of a read, resume, rebuild and
delivery. -/

namespace Sys2Proof.Machine

/-! ### READ_RECORDS and READ_ABORT (R143, R144, R159) -/

/-- READ_RECORDS begins from the logical position (R144). -/
def beginReadRecords (s : State) : State :=
  let s := consultCart { s with rd.discardPt := s.mo.lp, rd.delivered := 0, rd.aborted := false }
  match s.rd.start with
  | some sp => beginRead sp s
  | none => beginScan .scanSeek s.mo.lp s

/-- READ_RECORDS judged: the checks of R143 in order. -/
def judgeReadRecords (n : Nat) (s : State) : State :=
  if n = 0 then completeWith .read .refusedOperand s
  else if s.ch.transport ≠ .ready ∧ s.ch.transport ≠ .parked then refuse .read (transportSub s.ch.transport) s
  else if sessionOpen s then refuse .read .sessionOpen s
  else
    match s.mo.lp with
    | none => refuse .read .notPositioned s
    | some p =>
      let s := consultHead s
      let atEnd := match s.cart.eod with
        | some e => decide (e.firstRec ≤ p)
        | none => !s.ch.tagUnreadable
      let s := { s with rd.wanted := n, rd.delivered := 0 }
      if atEnd then complete .read .endOfData 0 (.position (leBytes 4 0) s.mo.lp) s
      else whenSettled .read beginReadRecords s

def execReadRecords (tag : Word) (n : Nat) (s : State) : Out :=
  firmware { tag := tag, op := .readRecords n } (fun o => match o with | .readRecords k => judgeReadRecords k | _ => id) s

/-- READ_ABORT judged (R159): after the read it has ended, it completes OK with the tape at rest. -/
def judgeReadAbort (s : State) : State :=
  if s.rd.aborted then
    let s := { s with rd.aborted := false }
    match s.ch.transport with
    | .active => s
    | .faulted => refuse .read .transportFaulted s
    | _ => completeWith .read .ok s
  else if s.ch.transport = .active then refuse .read .noRead s
  else refuse .read (transportSub s.ch.transport) s

def execReadAbort (tag : Word) (s : State) : Out := firmware { tag := tag, op := .readAbort } (fun _ => judgeReadAbort) s

/-! ### Frames (R51, R145 to R149) -/

/-- A frame stream is being read (R142). -/
def frameStream (s : State) : Bool :=
  decide (s.ch.transport = .active) && decide (s.mo.mode = some .readStream) && decide (s.rd.state = .streaming)

/-- The last segment of the pass that the pass table names is held whole: the stream turns (R51). -/
def passRead (m : Nat) (s : State) : Bool :=
  match s.cart.passes.getD s.mo.pass none, fetchSlot s m with
  | some e, some k =>
    decide (e.last = m) && decide (m + 1 < eodSeg s) && decide (s.mo.pass < 47) && decide (s.rd.user ≠ some .confirm) &&
      (missingFrames (slotAt s k)).isEmpty
  | _, _ => false

/-- FRAME_RECEIVED (R145 to R148). -/
def execFrameReceived (id : FrameId) (st : FrameStatus) (start : Nat) (data : List Byte) (s : State) : Out :=
  .next (if frameStream s then
    let s := takeFrame id st start data s
    settle (drain (if frameStream s && passRead id.seg s then beginReadTurn s else s))
  else s)

/-- READ_RESUME (R147): a paused read at rest may take a slot again. -/
def execReadResume (s : State) : Out :=
  .next (if s.ch.transport = .active ∧ s.rd.state = .paused ∧ s.mo.legs = [] ∧ s.mo.mask = false ∧ atRest s = true ∧ mayOpen s = true then
    rampRead { s with rd.state := .starting }
  else s)

/-- The frames 0 to 27 of a slot that are MISSING are formed from the bytes of its 28 lowest HELD frames and written (R149). -/
def rebuildFrames (k : Nat) (bs : List Byte) (s : State) : State :=
  let missing := missingFrames (slotAt s k)
  let known := knownFrames (slotAt s k)
  let unknown := (List.range 32).filter (fun i => !known.contains i)
  (missing.filter (fun w => decide (w < 28))).foldl
    (fun t w => issueWrite .internal (slotBase s k + w * Config.frameBytes)
      (solveFrame unknown known w (framesOf 28 bs)) .plain t) s

/-- After a slot has been rebuilt: the drain goes on, or the end of the data is met by what is now whole (R148, R153). -/
def afterRebuild (s : State) : State :=
  if s.rd.user = some .records then drain (restIfDone s)
  else if s.rd.dataEnd = true ∧ s.rd.state = .drainingOnly ∧ (readSlots s).isEmpty = true then dataEnded s
  else s

/-- REBUILD_DONE (R149): the 28 frames of the slot served have been read, and the last rebuilt line write has been issued. -/
def execRebuildDone (s : State) : Out :=
  .next (match s.rd.rebuildQ with
    | [] => s
    | k :: rest =>
      if s.rd.rebuildGot.length = 28 * Config.frameBytes then
        let s := { rebuildFrames k s.rd.rebuildGot s with rd.rebuildQ := rest, rd.rebuildGot := [] }
        let r := slotDecoded k (serveRebuild s)
        settle (if r.2 then r.1 else afterRebuild r.1)
      else s)

/-! ### Delivery (R80, R153, R154) -/

/-- DELIVERY_ROOM_GRANTED (R80, R154). -/
def execDeliveryRoomGranted (s : State) : Out := .next (settle (grantRoom s))

/-- SLOT_DRAINED (R153). -/
def execSlotDrained (s : State) : Out := .next (settle (slotDrained s))

end Sys2Proof.Machine
end

