-- ==== Sys2Proof/Machine/PowerRows.lean ====
section
/-! DEFINITION. The meanings of the power commands (R36, R39 to R41), and of the HEALTH job's commands (Chapter 9). -/

namespace Sys2Proof.Machine

/-! ### SET_POWER_POLICY and PARK (R40, R41) -/

def execSetPowerPolicy (tag : Word) (enables dwell : Nat) (s : State) : Out :=
  firmware { tag := tag, op := .setPowerPolicy enables dwell }
    (fun o => match o with | .setPowerPolicy e d => judgeSetPowerPolicy e d | _ => id) s

/-- PARK judged (R40). -/
def judgePark (s : State) : State :=
  match s.ch.transport with
  | .ready => completeWith .transport .ok (park s)
  | .parked => completeWith .transport .ok s
  | t => refuse .transport (transportSub t) s

def execPark (tag : Word) (s : State) : Out := firmware { tag := tag, op := .park } (fun _ => judgePark) s

/-- PARK_DWELL_EXPIRY (R39): READY with settling ended, or WAIT_DATA, enters PARKED. -/
def execParkDwellExpiry (s : State) : Out := .next (if s.pw.dwell then settle (park s) else s)

/-! ### Unpark (R36) -/

/-- The command that waited longest begins its motion. -/
def beginWaiter (j : JobId) (s : State) : State :=
  match j with
  | .transport =>
    match s.ci.transport.running with
    | some (.cmd c) => match c.op with
      | .locate t r => beginLocate t r s
      | .unload _ => beginUnload s
      | _ => s
    | some (.autoUnload _) => beginUnload s
    | _ => s
  | .write =>
    match runningOp .write s, s.mo.lp with
    | some (.writeOpen off comp), some p => beginWriteOpen off comp p s
    | _, _ => s
  | .read =>
    match runningOp .read s with
    | some (.readRecords _) => beginReadRecords s
    | _ => s
  | .health | .link => s

/-- A further command that waited is judged afresh. -/
def judgeAgain (j : JobId) (s : State) : State :=
  match j with
  | .transport =>
    match s.ci.transport.running with
    | some (.cmd c) => match c.op with
      | .locate t r => judgeLocate t r s
      | .unload f => judgeUnload f s
      | _ => s
    | some (.autoUnload _) => unloadFrom (endReadForUnload s)
    | _ => s
  | .write =>
    match runningOp .write s with
    | some (.writeOpen off comp) => judgeWriteOpen off comp s
    | _ => s
  | .read =>
    match runningOp .read s with
    | some (.readRecords n) => judgeReadRecords n s
    | _ => s
  | .health | .link => s

/-- Judge several in order. -/
def judgeAllAgain : List JobId → State → State
  | [], s => s
  | j :: js, s => judgeAllAgain js (judgeAgain j s)

/-- Settling ends: the dwell is armed, the commands that waited go on, or an open session enters WAIT_DATA. -/
def settlingEnds (s : State) : State :=
  let ws := s.pw.waiters
  let s := { s with pw.settling := false, pw.dwell := true, pw.waiters := [] }
  match ws with
  | [] => if sessionOpen s then enterWaitData s else s
  | j :: js => judgeAllAgain js (beginWaiter j s)

/-- UNPARK_SETTLED: tension settled, and the servo locked with the tape stationary. -/
def execUnparkSettled (s : State) : Out :=
  .next (if s.ch.transport = .ready ∧ s.pw.settling = true ∧ tensionSettled s = true ∧ s.mo.locked = true ∧ stands s = true then
    settle (settlingEnds s)
  else s)

/-- UNPARK_TENSION_TIMEOUT: tension has not settled 1 s after the wake. -/
def execUnparkTensionTimeout (s : State) : Out :=
  .next (if s.pw.settling = true ∧ tensionSettled s = false then
    let s := { s with pw.settling := false }
    enterFaulted .motionFault s
  else s)

/-- UNPARK_SERVO_TIMEOUT: the servo has not locked in place 2 s after the wake. -/
def execUnparkServoTimeout (s : State) : Out := .next (if s.pw.settling = true ∧ s.mo.locked = false then losePlace s else s)

/-! ### HEALTH job (R164, R175, R176) -/

def execSetMonitor (tag : Word) (m : MonitorOperands) (s : State) : Out :=
  firmware { tag := tag, op := .setMonitor m } (fun o => match o with | .setMonitor x => judgeSetMonitor x | _ => id) s

def execHealthSnapshot (tag : Word) (s : State) : Out := firmware { tag := tag, op := .healthSnapshot } (fun _ => judgeHealthSnapshot) s

def execSetCleanLimits (tag : Word) (l : CleanOperands) (s : State) : Out :=
  firmware { tag := tag, op := .setCleanLimits l } (fun o => match o with | .setCleanLimits x => judgeSetCleanLimits x | _ => id) s

end Sys2Proof.Machine
end

