-- ==== Sys2Proof/Machine/LinkRows.lean ====
section
/-! DEFINITION. The Library Link Responder (Chapter 11): headers and payloads, answers, the autonomous unload, staged replies,
transmit compare and the drive attention. -/

namespace Sys2Proof.Machine

/-! ### The line (R190) -/

/-- A change of the line's level: ACTIVE, and the idle timer afresh. -/
def lineMoves (s : State) : State := { s with li.active := true, li.idleTimer := true }

/-- The line goes to a level; a falling edge, which makes it active, keeps the activity state it met, and that alone is judged when
the active period turns out to be an attention (R190). It is kept over the release, since the attention may be told after it, and
forgotten once it is judged or the released line has grown idle. -/
def setLine (active : Bool) (s : State) : State :=
  if s.li.line = active then s
  else lineMoves { s with li.line := active, li.idleAtFall := if active then some (!s.li.active) else s.li.idleAtFall }

/-- LINE_LEVEL_CHANGE (R190). -/
def execLineLevelChange (active : Bool) (s : State) : Out := .next (setLine active s)

/-- LINK_IDLE_EXPIRY (R190). -/
def execLinkIdleExpiry (s : State) : Out :=
  .next (if s.li.idleTimer then
    { s with li.idleTimer := false, li.active := false, li.idleAtFall := if s.li.line then s.li.idleAtFall else none }
  else s)

/-- The transaction has ended for the responder. -/
def endTransaction (s : State) : State :=
  { s with li.phase := .awaitAttention, li.bitTime := none, li.tx := [], li.copied := false }

/-- LIBRARY_ATTENTION (R191): an active period of `micros` microseconds. The state at its falling edge decides LINK_WAKE (R190); a
row whose edges had no rows of their own has its falling edge in the state it meets (log entry 28). -/
def execLibraryAttention (micros : Nat) (s : State) : Out :=
  .next (if s.li.phase = .awaitAttention ∧ 250 ≤ micros ∧ s.li.pulsing = false then
    let idle := s.li.idleAtFall.getD (!s.li.active)
    let s := lineMoves { s with li.phase := .awaitHeader, li.bitTime := none, li.idleAtFall := none }
    if idle then offerLinkWake s else s
  else s)

/-- LINK_BYTE_TIMEOUT (R191): an expected byte does not start in time. -/
def execLinkByteTimeout (s : State) : Out :=
  .next (if s.li.phase = .awaitHeader ∨ s.li.phase = .awaitPayload then endTransaction s else s)

/-! ### Headers (R191) -/

/-- The rate byte passes: 2,400 to 57,600 bit/s, five bit times between its falling edges (R191 step 2). -/
def rateGood (h : LinkHeader) : Bool :=
  !h.rateFraming && !h.rateLate && decide (2400 * h.fallInterval ≤ 5000000000) && decide (5000000000 ≤ 57600 * h.fallInterval)

/-- The number of 1 bits of the low `n` bits of a byte. -/
def onesIn : Nat → Nat → Nat
  | 0, _ => 0
  | n + 1, b => b % 2 + onesIn n (b / 2)

/-- The address byte passes: no framing error, in time, even parity (R191 step 3). -/
def addrGood (h : LinkHeader) : Bool := !h.addrFraming && !h.addrLate && decide (onesIn 8 h.addr.toNat % 2 = 0)

/-- The drive address and the query code of an address byte (R191). -/
def driveOf (b : Byte) : Nat := b.toNat / 32
def queryOf (b : Byte) : Nat := b.toNat / 2 % 16

/-- A header passes steps 2 to 4 of R191. -/
def headerGood (h : LinkHeader) (s : State) : Bool := rateGood h && addrGood h && decide (driveOf h.addr = s.li.strap.toNat)

/-- A header that passes steps 1 to 4 satisfies a drive attention in progress (R197). -/
def satisfyAttention (s : State) : State :=
  if s.li.attn = .window ∨ s.li.attn = .gap then { s with li.attn := .none } else s

/-- The check byte: FFh minus the sum of the address byte and the payload, modulo 256 (R191). -/
def checkByte (addr : Byte) (bs : List Byte) : Byte := bs.foldl (· - ·) (255 - addr)

/-! ### Answers (R193, R195) -/

/-- The payload of STATUS (R193, 12.9). -/
def statusPayload (s : State) : List Byte :=
  [byteOf s.ch.transport.code, byteOf s.he.clean.code, byteOf (busyFlags s), byteOf s.li.lastErr.code]

/-- The payload of CART_ID (R193). -/
def cartIdPayload (s : State) : List Byte := if s.ch.recordHeld then padTo 8 s.cart.serial else List.replicate 8 0

/-- The payload of CLEAN_INFO (R193, 12.9). -/
def cleanInfoPayload (s : State) : List Byte :=
  [byteOf s.he.clean.code] ++ leBytes 2 (min (s.he.meters / 1000) 65535) ++
    [if s.ch.recordHeld && s.cart.cleaning then byteOf (50 - s.cart.uses) else 255]

/-- An answer is sent: the payload held now and its check byte (R193). -/
def answer (h : LinkHeader) (bs : List Byte) (s : State) : State :=
  lineMoves { s with li.phase := .answering (queryOf h.addr), li.bitTime := some (h.fallInterval / 5), li.tx := bs ++ [checkByte h.addr bs] }

/-- PASS_OUT (R195): the staged reply, or silence and LINK_LATE. -/
def passOutAnswer (h : LinkHeader) (s : State) : State :=
  match s.li.staged with
  | some bs => { answer h bs s with li.copied := true }
  | none => postNotice .linkLate [byteOf (queryOf h.addr)] (endTransaction s)

/-! ### Payloads (R192, R194) -/

/-- The payload length of each query (R191). -/
def payloadLen (q : Nat) : Nat := if q = 6 then 8 else 2

/-- A payload is good (R192). -/
def payloadGood (h : LinkHeader) (p : LinkPayload) : Bool :=
  !p.framing && !p.late && decide (p.bytes.length = payloadLen (queryOf h.addr)) && decide (p.check = checkByte h.addr p.bytes)

/-- Notice LINK_REQUEST (R192, R194). -/
def linkRequest (q : Nat) (content : List Byte) (s : State) : State := postNotice .linkRequest (byteOf q :: content) s

/-- Why an UNLOAD_REQ is refused, none when it is accepted (R194). READY that still settles is refused for a reason that has no
code of its own: a free value (log entry 31). -/
inductive Refused where
  | code (n : Nat)
  | unstated
deriving DecidableEq, Repr

def unloadReqReason (s : State) : Option Refused :=
  if s.ci.transport.running.isSome || s.ci.transport.pending.isSome then some (.code 1)
  else if sessionOpen s then some (.code 2)
  else if readRunning s then some (.code 3)
  else if s.ch.transport ≠ .ready ∧ s.ch.transport ≠ .parked then some (.code 4)
  else if s.ch.transport = .ready ∧ s.pw.settling = true then some .unstated
  else none

/-- A good UNLOAD_REQ (R194). -/
def unloadRequest (bs : List Byte) (s : State) : State :=
  match unloadReqReason s with
  | some (.code n) => linkRequest 4 (bs ++ [byteOf n]) { s with li.unloadRefused := true }
  | some .unstated =>
    let r := byteOf (freeNow s)
    linkRequest 4 (bs ++ [r]) (usedFree { s with li.unloadRefused := true })
  | none =>
    let s := { s with li.unloadRefused := false,
                      ci.transport := { running := some (.autoUnload bs), judged := true, finishing := false, pending := none } }
    settle (unloadFrom (endReadForUnload s))

/-- A payload has arrived to its check byte (R192). -/
def takePayload (h : LinkHeader) (p : LinkPayload) (s : State) : State :=
  let s := endTransaction s
  if payloadGood h p then
    if queryOf h.addr = 4 then unloadRequest p.bytes s else linkRequest (queryOf h.addr) p.bytes s
  else s

/-- A header is judged and its query handled (R191 to R195). `p` is the payload that follows it, where one has come. -/
def linkHeader (h : LinkHeader) (p : Option LinkPayload) (s : State) : State :=
  if s.li.phase ≠ .awaitHeader then s
  else if headerGood h s then
    let s := satisfyAttention s
    match queryOf h.addr with
    | 0 => answer h (statusPayload s) s
    | 1 => answer h (cartIdPayload s) s
    | 2 => answer h (cleanInfoPayload s) s
    | 5 => passOutAnswer h s
    | 3 | 4 | 6 =>
      match p with
      | some x => takePayload h x s
      | none => { s with li.phase := .awaitPayload, li.bitTime := some (h.fallInterval / 5) }
    | _ => endTransaction s
  else endTransaction s

def execStatus (h : LinkHeader) (s : State) : Out := .next (linkHeader h none s)
def execCartId (h : LinkHeader) (s : State) : Out := .next (linkHeader h none s)
def execCleanInfo (h : LinkHeader) (s : State) : Out := .next (linkHeader h none s)
def execLoadHint (h : LinkHeader) (p : LinkPayload) (s : State) : Out := .next (linkHeader h (some p) s)
def execUnloadReq (h : LinkHeader) (p : LinkPayload) (s : State) : Out := .next (linkHeader h (some p) s)
def execPassOut (h : LinkHeader) (s : State) : Out := .next (linkHeader h none s)
def execPassIn (h : LinkHeader) (p : LinkPayload) (s : State) : Out := .next (linkHeader h (some p) s)
def execLinkHeaderOther (h : LinkHeader) (s : State) : Out := .next (linkHeader h none s)

/-! ### The end of an answer (R193, R195, R196) -/

/-- ANSWER_SENT: the check byte has been sent without mismatch. -/
def execAnswerSent (s : State) : Out :=
  .next (match s.li.phase with
    | .answering q =>
      let s := if q = 0 then { s with li.attnClean := false, li.attnFirmware := false, li.attnUnloaded := false } else s
      let s := if q = 5 ∧ s.li.copied = true then { s with li.staged := none } else s
      lineMoves (endTransaction s)
    | _ => s)

/-- TRANSMIT_MISMATCH (R196): the answer is abandoned; a line still active is a possible attention from now on. -/
def execTransmitMismatch (lineActive : Bool) (s : State) : Out :=
  .next (match s.li.phase with
    | .answering _ =>
      lineMoves (endTransaction { s with li.collisions := satAdd32 s.li.collisions 1, li.line := lineActive, li.idleAtFall := if lineActive then some false else none })
    | _ => s)

/-! ### LINK job (R195, R197) -/

/-- LINK_REPLY judged (R195). -/
def judgeLinkReply (bs : List Byte) (s : State) : State :=
  completeWith .link .ok { s with li.staged := some (padTo 8 bs), li.copied := false }

def execLinkReply (tag : Word) (bs : List Byte) (s : State) : Out :=
  firmware { tag := tag, op := .linkReply bs } (fun o => match o with | .linkReply x => judgeLinkReply x | _ => id) s

/-- LINK_ATTENTION judged (R197). -/
def judgeLinkAttention (s : State) : State := completeWith .link .ok (startAttention { s with li.attnFirmware := true })

def execLinkAttention (tag : Word) (s : State) : Out := firmware { tag := tag, op := .linkAttention } (fun _ => judgeLinkAttention) s

/-! ### Drive attention (R197) -/

/-- ATTENTION_PULSE_START: a due pulse begins with the line released and no transaction in progress. -/
def execAttentionPulseStart (s : State) : Out :=
  .next (if s.li.attn = .pulseDue ∧ s.li.pulsing = false ∧ s.li.line = false ∧ s.li.phase = .awaitAttention then
    setLine true { s with li.pulsing := true }
  else s)

/-- ATTENTION_PULSE_END: the part releases the line after 1 ms; a line still active is measured from the release. -/
def execAttentionPulseEnd (lineActive : Bool) (s : State) : Out :=
  .next (if s.li.pulsing then
    lineMoves { s with li.pulsing := false, li.line := lineActive, li.idleAtFall := if lineActive then some false else none, li.pulses := min 3 (s.li.pulses + 1), li.attn := .window }
  else s)

/-- The cause set as bits, in the places STATUS gives the flags (12.9). -/
def causeBits (s : State) : Nat :=
  (if s.li.attnClean then 16 else 0) + (if s.li.attnFirmware then 32 else 0) + (if s.li.attnUnloaded then 64 else 0)

/-- ATTENTION_WINDOW_EXPIRY: GAP, or LINK_NO_ANSWER after the third pulse. -/
def execAttentionWindowExpiry (s : State) : Out :=
  .next (if s.li.attn = .window then
    if s.li.pulses < 3 then { s with li.attn := .gap }
    else postNotice .linkNoAnswer [byteOf (causeBits s)] { s with li.attn := .none }
  else s)

/-- ATTENTION_GAP_EXPIRY: the next pulse is due. -/
def execAttentionGapExpiry (s : State) : Out := .next (if s.li.attn = .gap then { s with li.attn := .pulseDue } else s)

end Sys2Proof.Machine
end

