-- ==== Sys2Proof/Machine/Dispatch.lean ====
section
/-! DEFINITION. One arm per command of the part, each the direct call of its meaning. -/

namespace Sys2Proof.Machine

def exec (i : Instr) (s : State) : Host.Outcome State Fault Refusal :=
  match i with
  | .frontPortWrite m addr data => Sys2Proof.Machine.execFrontPortWrite m addr data s
  | .frontPortRead m addr len => Sys2Proof.Machine.execFrontPortRead m addr len s
  | .bindingWordWrite m addr data => Sys2Proof.Machine.execBindingWordWrite m addr data s
  | .anchorReadReturn => Sys2Proof.Machine.execAnchorReadReturn s
  | .stagingWrite m addr data => Sys2Proof.Machine.execStagingWrite m addr data s
  | .holdTimerExpiry => Sys2Proof.Machine.execHoldTimerExpiry s
  | .deliveryTailRead m addr len => Sys2Proof.Machine.execDeliveryTailRead m addr len s
  | .memoryPortGrant => Sys2Proof.Machine.execMemoryPortGrant s
  | .sequenceWordWrite m addr data => Sys2Proof.Machine.execSequenceWordWrite m addr data s
  | .slotReadReturn => Sys2Proof.Machine.execSlotReadReturn s
  | .consumerWordWrite m addr data => Sys2Proof.Machine.execConsumerWordWrite m addr data s
  | .internalQueueEntry => Sys2Proof.Machine.execInternalQueueEntry s
  | .ringRecordWrite => Sys2Proof.Machine.execRingRecordWrite s
  | .powerOn sn strap => Sys2Proof.Machine.execPowerOn sn strap s
  | .resetLine sn strap => Sys2Proof.Machine.execResetLine sn strap s
  | .resetSettle sn => Sys2Proof.Machine.execResetSettle sn s
  | .seatClose tab => Sys2Proof.Machine.execSeatClose tab s
  | .seatOpen => Sys2Proof.Machine.execSeatOpen s
  | .tapeInPathLoss => Sys2Proof.Machine.execTapeInPathLoss s
  | .brakeRelease => Sys2Proof.Machine.execBrakeRelease s
  | .load tag => Sys2Proof.Machine.execLoad tag s
  | .automaticLoad => Sys2Proof.Machine.execAutomaticLoad s
  | .tagReadComplete image => Sys2Proof.Machine.execTagReadComplete image s
  | .tagReadLimit => Sys2Proof.Machine.execTagReadLimit s
  | .hubEngaged => Sys2Proof.Machine.execHubEngaged s
  | .pinCaptured => Sys2Proof.Machine.execPinCaptured s
  | .armMoveDone code tape => Sys2Proof.Machine.execArmMoveDone code tape s
  | .loadStepLimit => Sys2Proof.Machine.execLoadStepLimit s
  | .tensionSettled => Sys2Proof.Machine.execTensionSettled s
  | .servoLock pass count => Sys2Proof.Machine.execServoLock pass count s
  | .openFlagWriteEnd ok => Sys2Proof.Machine.execOpenFlagWriteEnd ok s
  | .unload tag force => Sys2Proof.Machine.execUnload tag force s
  | .tensionDownDone => Sys2Proof.Machine.execTensionDownDone s
  | .pinReleased => Sys2Proof.Machine.execPinReleased s
  | .hubReleased => Sys2Proof.Machine.execHubReleased s
  | .unloadStepLimit => Sys2Proof.Machine.execUnloadStepLimit s
  | .tagWriteEnd ok => Sys2Proof.Machine.execTagWriteEnd ok s
  | .periodStart => Sys2Proof.Machine.execPeriodStart s
  | .scanComplete x => Sys2Proof.Machine.execScanComplete x s
  | .reelDegrade r => Sys2Proof.Machine.execReelDegrade r s
  | .reelReturnNormal r => Sys2Proof.Machine.execReelReturnNormal r s
  | .tensionExcursion => Sys2Proof.Machine.execTensionExcursion s
  | .reelStall => Sys2Proof.Machine.execReelStall s
  | .setPowerPolicy tag enables dwell => Sys2Proof.Machine.execSetPowerPolicy tag enables dwell s
  | .park tag => Sys2Proof.Machine.execPark tag s
  | .parkDwellExpiry => Sys2Proof.Machine.execParkDwellExpiry s
  | .unparkSettled => Sys2Proof.Machine.execUnparkSettled s
  | .unparkTensionTimeout => Sys2Proof.Machine.execUnparkTensionTimeout s
  | .unparkServoTimeout => Sys2Proof.Machine.execUnparkServoTimeout s
  | .locate tag target r => Sys2Proof.Machine.execLocate tag target r s
  | .recalibrate tag => Sys2Proof.Machine.execRecalibrate tag s
  | .recalibrateLockTimeout => Sys2Proof.Machine.execRecalibrateLockTimeout s
  | .recalibrateNoMovement => Sys2Proof.Machine.execRecalibrateNoMovement s
  | .lossOfLock => Sys2Proof.Machine.execLossOfLock s
  | .reacquireTimeout => Sys2Proof.Machine.execReacquireTimeout s
  | .meter => Sys2Proof.Machine.execMeter s
  | .cleaningDistanceReached => Sys2Proof.Machine.execCleaningDistanceReached s
  | .retensionTimeout => Sys2Proof.Machine.execRetensionTimeout s
  | .recoveryLockTimeout => Sys2Proof.Machine.execRecoveryLockTimeout s
  | .stopTimeout => Sys2Proof.Machine.execStopTimeout s
  | .rampComplete => Sys2Proof.Machine.execRampComplete s
  | .moveArrived => Sys2Proof.Machine.execMoveArrived s
  | .frameSlot => Sys2Proof.Machine.execFrameSlot s
  | .frameTransmissionComplete => Sys2Proof.Machine.execFrameTransmissionComplete s
  | .verifyResult id st => Sys2Proof.Machine.execVerifyResult id st s
  | .blankDetection => Sys2Proof.Machine.execBlankDetection s
  | .writeOpen tag offset compress => Sys2Proof.Machine.execWriteOpen tag offset compress s
  | .sessionCountWriteEnd ok => Sys2Proof.Machine.execSessionCountWriteEnd ok s
  | .stagingFetchReturn => Sys2Proof.Machine.execStagingFetchReturn s
  | .chunkPlaced => Sys2Proof.Machine.execChunkPlaced s
  | .recompressDone => Sys2Proof.Machine.execRecompressDone s
  | .slotExhaustionEnd => Sys2Proof.Machine.execSlotExhaustionEnd s
  | .parityDone => Sys2Proof.Machine.execParityDone s
  | .flush tag => Sys2Proof.Machine.execFlush tag s
  | .writeClose tag => Sys2Proof.Machine.execWriteClose tag s
  | .writeAbort tag => Sys2Proof.Machine.execWriteAbort tag s
  | .setStreamPolicy tag p => Sys2Proof.Machine.execSetStreamPolicy tag p s
  | .intervalExpiry => Sys2Proof.Machine.execIntervalExpiry s
  | .readRecords tag n => Sys2Proof.Machine.execReadRecords tag n s
  | .readAbort tag => Sys2Proof.Machine.execReadAbort tag s
  | .frameReceived id st start data => Sys2Proof.Machine.execFrameReceived id st start data s
  | .readResume => Sys2Proof.Machine.execReadResume s
  | .rebuildDone => Sys2Proof.Machine.execRebuildDone s
  | .deliveryRoomGranted => Sys2Proof.Machine.execDeliveryRoomGranted s
  | .slotDrained => Sys2Proof.Machine.execSlotDrained s
  | .healthTick => Sys2Proof.Machine.execHealthTick s
  | .setMonitor tag m => Sys2Proof.Machine.execSetMonitor tag m s
  | .healthSnapshot tag => Sys2Proof.Machine.execHealthSnapshot tag s
  | .setCleanLimits tag l => Sys2Proof.Machine.execSetCleanLimits tag l s
  | .status h => Sys2Proof.Machine.execStatus h s
  | .cartId h => Sys2Proof.Machine.execCartId h s
  | .cleanInfo h => Sys2Proof.Machine.execCleanInfo h s
  | .loadHint h p => Sys2Proof.Machine.execLoadHint h p s
  | .unloadReq h p => Sys2Proof.Machine.execUnloadReq h p s
  | .passOut h => Sys2Proof.Machine.execPassOut h s
  | .passIn h p => Sys2Proof.Machine.execPassIn h p s
  | .linkHeaderOther h => Sys2Proof.Machine.execLinkHeaderOther h s
  | .linkByteTimeout => Sys2Proof.Machine.execLinkByteTimeout s
  | .linkIdleExpiry => Sys2Proof.Machine.execLinkIdleExpiry s
  | .answerSent => Sys2Proof.Machine.execAnswerSent s
  | .transmitMismatch lineActive => Sys2Proof.Machine.execTransmitMismatch lineActive s
  | .linkReply tag bytes => Sys2Proof.Machine.execLinkReply tag bytes s
  | .linkAttention tag => Sys2Proof.Machine.execLinkAttention tag s
  | .attentionPulseStart => Sys2Proof.Machine.execAttentionPulseStart s
  | .attentionPulseEnd lineActive => Sys2Proof.Machine.execAttentionPulseEnd lineActive s
  | .attentionWindowExpiry => Sys2Proof.Machine.execAttentionWindowExpiry s
  | .attentionGapExpiry => Sys2Proof.Machine.execAttentionGapExpiry s
  | .libraryAttention micros => Sys2Proof.Machine.execLibraryAttention micros s
  | .lineLevelChange active => Sys2Proof.Machine.execLineLevelChange active s

end Sys2Proof.Machine
end

