-- ==== Sys2Proof/Safety.lean ====
section
/-! DEFINITION. The terms in which the statements speak: what a safe state is (its memory in canonical form, its bands legal),
and the plain circumstances in which a command completes with its own effect and nothing else follows from it. -/

namespace Sys2Proof.Machine

/-- The bands of Law 7 (R136): applied band and the one a ramp leads to, decided band, the highest target of a dwell, and the bounds and read band of the
stream policy all lie in 0 to 7. -/
def bandsLegal (s : State) : Bool :=
  [s.mo.band, s.mo.bandTo.getD 0, s.sp.c, s.sp.dwellHigh, s.sp.policy.bandMin, s.sp.policy.bandMax, s.sp.policy.readBand].all (· ≤ 7)

/-- Law 1 (R108): the free list holds each FREE slot once and no other; at most one slot is FILLING and at most two are ON_TAPE. -/
def slotsLawful (slots : List Slot) (free : List Nat) : Bool :=
  decide free.Nodup && free.all (· < slots.length) &&
    (List.range slots.length).all (fun k => decide (k ∈ free ↔ (slots.getD k (freshSlot .free 0)).st = .free)) &&
    decide ((slots.filter (fun x => isFilling x.st)).length ≤ 1) && decide ((slots.filter (fun x => isOnTape x.st)).length ≤ 2)

/-- Runs given by their ends, each of which begins beyond the end of the one before it, the first beyond `lo`, and none of which ends
beyond `hi`. -/
def apart (hi : Nat) : Nat → List (Nat × Nat) → Bool
  | _, [] => true
  | lo, (a, b) :: rest => decide (lo < a) && decide (a ≤ b) && decide (b ≤ hi) && apart hi b rest

/-- The staging watch (R75, R77): Rl is at most Z; at most 8 spans, in ring order ahead of the frontier, which touch neither it nor each
other and end at or before the release point. -/
def watchLawful (s : State) : Bool :=
  decide (s.bp.rl ≤ ringZ s) && decide (s.bp.spans.length ≤ 8) &&
    apart (ringZ s - s.bp.rl) 0 (s.bp.spans.map (spanFrom (ringZ s) (frontier s)))

/-- What the spec holds of every state but its memory and its bands: Law 1 (R108), the span table (R75, R77), at most 8 records in the internal
completion queue (R185), and a starvation count of at most 8 (R82). -/
def lawful (s : State) : Bool :=
  slotsLawful s.sm.slots s.sm.free && watchLawful s && decide (s.cq.queue.length ≤ 8) && decide (s.bp.starve ≤ 8)

/-- A safe state: the memory in canonical form, legal bands (Law 7), and the laws of the slots, the span table and the queues. -/
def safe (s : State) : Bool := Memory.wf s.mem && bandsLegal s && lawful s

/-- T* is the one that the settle and excursion counts were last started for (R31, R33), and the current activity was set at the last change
of transport state or motion mode (R20). -/
def noted (s : State) : Bool := decide (s.re.tstar = tStar s) && decide (s.ch.activityAt = (s.ch.transport, s.mo.mode))

/-- No command waits for a recovery to return (R66); T* and the current activity are noted. -/
def steady (s : State) : Bool := s.ci.deferred.isEmpty && noted s

/-- No write session, no staging watch and no held write: nothing waits to be settled after a step (R75, R84, R122). -/
def quiet (s : State) : Bool :=
  steady s && decide (s.ri.session = .closed) && decide (s.ri.st = .idle) && !s.bp.watch && s.bp.held.isNone && s.wr.flush.isNone && !s.wr.close

/-- A staging fetch would be issued (R90). -/
def fetchDue (s : State) : Bool :=
  s.bp.watch && takesBytes s && s.ri.fetch.isNone && s.ri.fetched.isNone && decide (0 < available s)

/-- A session may be open, but no held write, waiting command, staging fetch, restart or wake can follow from a step (R78, R90,
R96, R122). -/
def calm (s : State) : Bool :=
  steady s && s.bp.held.isNone && s.wr.flush.isNone && !s.wr.close && !fetchDue s && decide (s.ch.transport ≠ .parked) &&
    !(decide (s.ch.transport = .active) && decide (s.mo.mode = some .waitData))

/-- No monitor counter counts the event (R163). -/
def unmonitored (e : Ev) (s : State) : Bool :=
  decide (s.he.counters.length = 4) && s.he.counters.all (fun c => decide (c.source ≠ .event e.code))

/-- A park dwell that runs, runs where it may, no command has cancelled it, and PARK_REJECTED is counted by no monitor counter: the
command that cancels it arms it again when it completes at once (R39, R163). -/
def dwellSteady (s : State) : Bool :=
  !s.pw.dwell || (s.pw.cancelled.isNone && dwellPlace s && unmonitored .parkRejected s)

/-- A job can take a command and post its completion at once: BOUND, both places empty, room in the internal completion queue,
no dwell that this job's completion would arm again (R39, R181, R185). -/
def placeOpen (j : JobId) (s : State) : Bool :=
  s.bp.layout.isSome && decide (s.job j = Job.clear) && cqOpen s && decide (s.pw.cancelled ≠ some j)

/-- The TRANSPORT, WRITE and READ jobs are empty, no reader holds the merge and no segment is on tape: no operation is lost with the
motion (R4, R65). -/
def noOperations (s : State) : Bool :=
  decide (s.ci.transport = Job.clear) && decide (s.ci.write = Job.clear) && decide (s.ci.read = Job.clear) && s.rd.user.isNone &&
    decide (s.he.clean ≠ .cleaning) && (slotsIn isOnTape s).isEmpty

/-- A write is handed to no block (R69): it enables no byte of the binding word, no whole sequence field and not the whole consumer
word, and does not fall to the active staging watch. -/
def unwatchedWrite (w : FrontWrite) (s : State) : Bool :=
  (List.range 8).all (fun i => !w.enables (248 + i)) &&
    match s.bp.layout with
    | none => true
    | some l =>
      !(s.bp.watch && insideRegion l.stBase l.z w.addr) &&
        (if insideRegion l.cmdBase (64 * l.k) w.addr then !w.enablesAll (l.cmdBase + 64 * ((w.addr - l.cmdBase) / 64) + 56) 2
         else !w.enablesAll l.consumer 4)

/-- A read at `a` is handed to no block (R69): it lies outside the delivery ring. -/
def unwatchedRead (a : Nat) (s : State) : Bool :=
  match s.bp.layout with
  | none => true
  | some l => !insideRegion l.dlBase l.zd a

/-- The request of a forwarded write (R68). -/
def writeOf (a : Nat) (bs : List (Option Byte)) : Req :=
  { cls := .front, isWrite := true, addr := a, len := bs.length, data := bs, got := [], what := .plain }

/-- A read issued by the part itself (R82). -/
def readOf (a n : Nat) (what : Purpose) : Req :=
  { cls := .internal, isWrite := false, addr := a, len := n, data := [], got := [], what := what }

/-- A write issued by the part itself (R82). -/
def partWrite (a : Nat) (bs : List Byte) (what : Purpose) : Req :=
  { cls := .internal, isWrite := true, addr := a, len := bs.length, data := bs.map some, got := [], what := what }

/-- A job on which a command runs that its own row has judged, with nothing pending (R181, R183). -/
abbrev runningNow (c : FwCmd) : Job := { running := some (.cmd c), judged := true, finishing := false, pending := none }

/-- The tape at rest with its threading undone: no loop runs, no brake, no tension being taken down. -/
def unthreaded (s : State) : Bool := !s.re.brake && decide (s.ch.step = none)

/-- Both reels staged at zero duty (R24). -/
def State.reelsZero (s : State) : State := { s with re.sup := s.re.sup.stage 0 0, re.tak := s.re.tak.stage 0 0 }

/-- What every change of transport state ends or sets: the park dwell, settling, reacquire and the wait for the servo's pass end; the
health tick runs in the states of R162. -/
def State.moved (t : Transport) (s : State) : State :=
  { s with ch.transport := t, pw.dwell := false, pw.settling := false, mo.reacquire := false, mo.passWait := false, he.tick := tickRuns t }

/-- What leaving ACTIVE takes from the motion (R33, R57, R59). -/
def State.unmoved (s : State) : State :=
  { s with mo.mode := none, mo.into := none, mo.stopping := false, mo.passWait := false, mo.legs := [], mo.goal := .none, mo.bandTo := none,
           mo.v := 0, mo.dest := 0, mo.pend := [], mo.mask := false, mo.wait := .none, mo.savedLegs := [], mo.savedGoal := .none,
           mo.redirect := false, mo.skipResume := false, mo.recT := Config.tStream, re.exc := 0, re.excDue := false }

/-- A command of the job cancels the park dwell where it runs (R39); for a monitor that counts no PARK_REJECTED. -/
def State.dwellCut (j : JobId) (s : State) : State :=
  { s with pw.dwell := false, pw.cancelled := if s.pw.dwell then some j else s.pw.cancelled }

/-- The front-port writes that wait when a reset comes: the held one and those behind it, in order (R68). -/
def waitingWrites (s : State) : List FrontWrite := s.bp.held.toList ++ s.bp.behind

/-- The part after a reset whose sensors read `sn`, before the transport state is decided: every register as after reset but for
what stands outside the part's own registers (the model's choice, log entries 1 and 4); the link line is released where the part drove it
(R198). Writes that waited have been forwarded in order without any watch (R68). -/
def State.afterReset (line : Bool) (sn : Sensors) (strap : BitVec 3) (s : State) : State :=
  { State.reset with
    mem := s.mem, pending := s.pending, li.strap := strap, li.line := lineAfterReset s,
    bp.lastRead := s.bp.lastRead, bp.acks := (waitingWrites s).foldl (fun n w => n.add w.master) s.bp.acks,
    bp.reqs := s.bp.reqs.filter (fun r => decide (r.cls = .front)) ++ (waitingWrites s).map (fun w => writeOf w.addr w.data),
    ch.causeLine := line, ch.tapeAtStart := sn.tape, ch.lastActivity := if line then s.ch.activity else .none, ch.arm := s.ch.arm,
    ch.seat := sn.seat, ch.tape := sn.tape, ch.hub := sn.hub, ch.pin := sn.pin,
    re.input := sn.movement, re.window := List.replicate 33 sn.movement }

/-- A frame sent at the planned start (R114): its write count and verify entry, the read of its bytes, the next planned start, and one
frame written in the tally. A frame 0 sets the entry count to 0 (R65); the first frame 0 of a placement sets the frame 0 position and
applies the band it was fixed for (R113, R136). -/
def State.frameSent (k i : Nat) (s : State) : State :=
  let x := slotAt s k
  let place : Pos := { pass := s.mo.pass, count := s.mo.planned }
  let ident : FrameId := { seg := x.seg, idx := i, placement := x.placement, stamp := s.wr.stamp }
  let first := decide (i = 0 ∧ (frameAt s k i).st = .unwritten)
  { s with
    sm.slots := s.sm.slots.set k { x with
      st := .onTape, frames := x.frames.set i { st := .inVerify, count := (frameAt s k i).count + 1 },
      f0 := if first then some place else x.f0 },
    wr.tx := some { slot := k, idx := i, start := place, bytes := [] }, wr.discard := false, mo.mode := some .writeStream,
    wr.verifyQ := s.wr.verifyQ ++ [{ slot := k, idx := i, id := ident, isVoid := false }],
    wr.heldF0 := if first then none else s.wr.heldF0,
    wr.skipStart := if first then none else s.wr.skipStart, mo.entry := if i = 0 then 0 else s.mo.entry,
    mo.band := if first then s.mo.bandTo.getD s.mo.band else s.mo.band, mo.bandTo := if first then none else s.mo.bandTo,
    bp.reqs := s.bp.reqs ++
      [{ cls := .tape, isWrite := false, addr := slotBase s k + i * 32768, len := 32768, data := [], got := [], what := .txFrame }],
    mo.planned := ahead s.mo.pass s.mo.planned 48,
    he.tally := { s.he.tally with frames := min (s.he.tally.frames + 1) 4294967295 } }

/-- What opening a write session sets, under a layout, at a staging offset and for the first segment, next record and resume point of
R86's table (R75, R86, R111, R129, R141). The order of the internal requests is the model's choice, log entry 12. -/
def State.sessionOpened (l : Layout) (offset : Nat) (compress : Bool) (seg rec_ : Nat) (resume : Pos) (s : State) : State :=
  let n := min (s.cart.session + 1) 4294967295
  let c : Cart := { s.cart with session := n }
  { s with
    bp.reqs := (s.bp.reqs ++ [readOf l.cartBase 16384 .plain]).map (Req.forget .stagingFetch) ++ [partWrite l.cartBase (cartImage c) .plain],
    bp.watch := true, bp.release := offset, bp.rl := 0, bp.spans := [],
    ri := { s.ri with
      fetch := none, session := .opened, err := none, lastComplete := (rec_ + 4294967295) % 4294967296, cursor := offset, st := .header,
      nextRec := rec_, nextSeg := seg, compress := compress, history := [], hdr := [], raw := [], chunkBuf := [], cur := none,
      item := none, frag := none, sealReq := false, padOwed := 0, fetched := none, marker := none, refetched := [] },
    mo.skipResume := false, mo.resume := some resume, mo.lastEnd := { resume with count := back resume.pass resume.count 48 },
    wr.stamp := n, wr.countBusy := true, wr.eot := false, wr.discard := false, wr.pendingEnd := .none, wr.turnWait := false,
    wr.heldF0 := none, wr.skipStart := none, wr.abandon := none, ch.tagOut := tagBlock c s.ch.tagRest,
    sp.hist := List.replicate 8 0, sp.sum := 0, sp.c := if s.he.clean = .required then 0 else s.sp.policy.bandMin, sp.promo := 0,
    sp.dwellOn := false, sp.dwellCount := 0, sp.timer := true }

/-- The session waits for data where the tape stands: ACTIVE in WAIT_DATA with the park dwell armed (R39, R86). -/
def State.waitsForData (s : State) : State :=
  { s.moved .active with
    mo.mode := some .waitData, mo.legs := [], mo.goal := .none, mo.into := none, mo.stopping := false, mo.v := 0, mo.dest := 0,
    mo.dir := passDir s.mo.pass, pw.dwell := true }

/-- The lead-in of a restart from the standing point of the resume point p: the applied band becomes the decided one, and the tape ramps in
the pass direction into the write stream, whose first slot is offered at p (R54, R122, R136). -/
def State.leadsIn (p : Pos) (s : State) : State :=
  { s with
    pw.dwell := false, mo.band := s.sp.c, mo.planned := p.count, mo.stands := none, rd.start := none, mo.mode := some .ramp,
    mo.into := some .writeStream, mo.legs := [], mo.goal := .none, mo.stopping := false, mo.passWait := false, mo.bandTo := none,
    mo.named := s.mo.pass, mo.dest := bandSpeed s.sp.c, mo.dir := passDir s.mo.pass }

/-- What the seal of the filling slot k issues: zeros up to the entries, the open fragment's entry, the trailer, for which the entries are
read (R100; that they are read as the trailer is made is log entry 8's reading). -/
def sealWrites (k : Nat) (s : State) : List Req :=
  let zeros := 917440 - 16 * s.ri.e - s.ri.u
  let ahead_ := (if zeros = 0 then [] else [partWrite (slotBase s k + s.ri.u) (List.replicate zeros 0) .plain]) ++
    (match s.ri.frag with
     | none => []
     | some f => [partWrite (slotBase s k + entryAt (s.ri.e - 1)) (fragmentBytes f false false) .plain])
  let t : State := { s with bp.reqs := s.bp.reqs ++ ahead_ }
  ahead_ ++ [readOf (slotBase s k + entryAt (s.ri.e - 1)) (16 * s.ri.e) .plain, partWrite (slotBase s k + 917440) (trailerBytes (slotAt s k).seg (slotEntry t k 0).num s.ri.e s.ri.u (filemarksIn t k s.ri.e)) .plain]

/-- The filling slot k is sealed: it is SEALING and joins the parity work, which reads frames 0 to 27 of the slot it serves (R100,
R110). -/
def State.slotSealed (k : Nat) (s : State) : State :=
  { s with
    bp.reqs := s.bp.reqs ++ sealWrites k s ++ (if s.sm.parity = [] then [readOf (slotBase s k) 917504 .parityRead] else []),
    sm.slots := s.sm.slots.set k { slotAt s k with st := .sealing }, sm.parity := s.sm.parity ++ [k],
    sm.parityGot := if s.sm.parity = [] then none else s.sm.parityGot,
    ri.filling := none, ri.u := 0, ri.e := 0, ri.frag := none }

/-- Intake stopped: it stands in IDLE with nothing in hand, and what it had asked for is awaited no more (R106). -/
def State.intakeStopped (s : State) : State :=
  { s with
    bp.reqs := s.bp.reqs.map (Req.forget .chunkFetch), ri.st := .idle, ri.item := none, ri.raw := [], ri.hdr := [],
    ri.chunkBuf := [], ri.cur := none, ri.sealReq := false, ri.padOwed := 0, ri.fetched := none, ri.marker := none, ri.refetched := [] }

/-- The staging watch ended: the release point stands at the frontier (R75). -/
def State.watchEnded (s : State) : State := { s with bp.watch := false, bp.release := frontier s, bp.rl := 0, bp.spans := [] }

/-- Slot k, first of the rebuild, has been rebuilt: its MISSING data frames are written, the reads for the slot served next go out, and
its trailer is read (R149). -/
def State.rebuilt (k : Nat) (rest : List Nat) (s : State) : State :=
  let missing := missingFrames (slotAt s k)
  let known := ((List.range 32).filter (fun i => !missing.contains i)).take 28
  let others := (List.range 32).filter (fun i => !known.contains i)
  let writes := (missing.filter (fun w => decide (w < 28))).map (fun w =>
    partWrite (slotBase s k + w * 32768) (solveFrame others known w (framesOf 28 s.rd.rebuildGot)) .plain)
  let next := match rest with
    | [] => []
    | j :: _ => (knownFrames (slotAt s j)).map (fun i => readOf (slotBase s j + i * 32768) 32768 .rebuildRead)
  { s with rd.rebuildQ := rest, rd.rebuildGot := [], bp.reqs := s.bp.reqs ++ writes ++ next ++ [readOf (slotBase s k + 917440) 64 .plain] }

/-- The drain has nothing to go on with: a piece is asked for or on its way, a read is awaited, or no slot is DECODED (R153). -/
def drainStands (s : State) : Bool :=
  s.rd.ask.isSome || s.rd.out.isSome ||
    match s.rd.drain with
    | some d => decide (d.read ≠ .nothing)
    | none => s.rd.bad.isNone && s.sm.slots.all (fun x => decide (x.st ≠ .decoded))

/-- The reader has stopped: what it asked for is awaited no more and every slot it holds is freed (R158 steps 1 and 2). -/
def State.readStopped (s : State) : State :=
  { s with
    bp.reqs := (s.bp.reqs.map (Req.forget .drainRead)).map (Req.forget .rebuildRead), rd.drain := none, rd.ask := none, rd.rebuildQ := [],
    rd.rebuildGot := [], sm := (freeSlots (readSlots s) s).sm }

/-- The reader stands in IDLE (R142). -/
def State.readerAtIdle (s : State) : State :=
  { s with
    rd.state := .idle, rd.user := none, rd.discardPt := none, rd.resume := none, rd.lastEnd := none, rd.lowEnd := none, rd.rebuildQ := [],
    rd.rebuildGot := [], rd.drain := none, rd.dhist := [], rd.ask := none, rd.fill := none, rd.out := none, rd.partly := none, rd.ended := none, rd.bad := none,
    rd.after := none, rd.past := none, rd.dataEnd := false, rd.scan := none, rd.blank := 0, rd.endLead := none }

/-- The position, the logical position and the standing point are unknown and the start point invalid (R43, R44, R144). -/
def State.lost (s : State) : State := { s with mo.quality := .unknown, mo.lp := none, mo.stands := none, rd.start := none }

/-- The state after a command's completion has entered the internal queue and its place is free again (R183 to R185). -/
def posted (tag : Word) (op : FwOp) (st : Status) (sub : Nat) (r : Results) (s : State) : State :=
  cqPush (completionRecord { tag := tag, op := op } st sub r) (noteStatus st s)

end Sys2Proof.Machine
end

