-- ==== Sys2Proof/WellFormed.lean ====
section
/-! DEFINITION. When a command is one the part can meet: front-port requests of 1 to 64 bytes within one aligned line of the
buffer memory (00_scope.md 0.2), operands within the widths of 12.3, samples within 12 bits (R26), passes and counts within
R43, frames within R111 and R114, library bytes within R191. -/

namespace Sys2Proof

/-- Every value lies below the bound beside it. -/
def fits (vs : List (Nat × Nat)) : Bool := vs.all fun v => v.1 < v.2

/-- A front-port request exists on the port. -/
def requestWf (addr len : Nat) : Bool :=
  len != 0 && fits [(addr % Config.lineBytes + len, Config.lineBytes + 1), (addr + len, Config.memBytes + 1)]

/-- A sample of the converter is a 12-bit code (R26). -/
def codeWf (n : Nat) : Bool := fits [(n, 4096)]

/-- A pass and a count (R43). -/
def positionWf (pass count : Nat) : Bool := fits [(pass, 48), (count, Config.tapeEnd + 1)]

/-- A frame identity (R111): segment and stamp of 32 bits, index below 32, placement 1 or 2. -/
def FrameId.wf (f : FrameId) : Bool :=
  f.placement != 0 && fits [(f.placement, 3), (f.idx, 32), (f.seg, two32), (f.stamp, two32)]

/-- The operands of SET_STREAM_POLICY fit their fields (12.3): a byte, or a halfword. -/
def StreamOperands.wf (p : StreamOperands) : Bool :=
  fits ([p.bandMin, p.bandMax, p.readBand, p.heavy, p.dwell].map (·, 256) ++ [p.restart, p.highMark, p.readAhead].map (·, 65536))

/-- The operands of SET_MONITOR fit their fields (12.3). -/
def MonitorOperands.wf (m : MonitorOperands) : Bool :=
  fits [(m.counter, 256), (m.mode, 4), (m.source, 65536), (m.threshold, 65536), (m.limit, two32)]

/-- The operands of SET_CLEAN_LIMITS fit their fields (12.3). -/
def CleanOperands.wf (l : CleanOperands) : Bool :=
  fits [(l.soft, 65536), (l.hard, 65536), (l.escalation, 256), (l.usage, two32)]

/-- A command is well formed. -/
def Instr.wf : Instr → Bool
  | .frontPortWrite _ a bs | .bindingWordWrite _ a bs | .stagingWrite _ a bs | .sequenceWordWrite _ a bs | .consumerWordWrite _ a bs =>
    requestWf a bs.length
  | .frontPortRead _ a n | .deliveryTailRead _ a n => requestWf a n
  | .tagReadComplete img => fits [(img.length, Config.cartBytes + 1)]
  | .armMoveDone code _ => codeWf code
  | .servoLock p c => positionWf p c
  | .scanComplete x =>
    [x.tension, x.supplyCurrent, x.takeUpCurrent, x.arm].all codeWf && positionWf x.servoPass x.servoCount
  | .setPowerPolicy _ e d => fits [(e, 256), (d, 65536)]
  | .locate _ t r => fits [(t, 256), (r, two32)]
  | .verifyResult f _ => f.wf
  | .frameReceived f _ c bs => f.wf && fits [(c, Config.tapeEnd + 1), (bs.length, Config.frameBytes + 1)]
  | .writeOpen _ o _ => fits [(o, two32)]
  | .setStreamPolicy _ p => p.wf
  | .readRecords _ n => fits [(n, 65536)]
  | .setMonitor _ m => m.wf
  | .setCleanLimits _ l => l.wf
  | .linkReply _ bs => bs.length == 8
  | .loadHint _ p | .unloadReq _ p => fits [(p.bytes.length, 3)]
  | .passIn _ p => fits [(p.bytes.length, 9)]
  | .anchorReadReturn | .holdTimerExpiry | .memoryPortGrant | .slotReadReturn | .internalQueueEntry | .ringRecordWrite
  | .powerOn _ _ | .resetLine _ _ | .resetSettle _ | .seatClose _ | .seatOpen | .tapeInPathLoss | .brakeRelease | .load _
  | .automaticLoad | .tagReadLimit | .hubEngaged | .pinCaptured | .loadStepLimit | .tensionSettled | .openFlagWriteEnd _
  | .unload _ _ | .tensionDownDone | .pinReleased | .hubReleased | .unloadStepLimit | .tagWriteEnd _ | .periodStart
  | .reelDegrade _ | .reelReturnNormal _ | .tensionExcursion | .reelStall | .park _ | .parkDwellExpiry | .unparkSettled
  | .unparkTensionTimeout | .unparkServoTimeout | .recalibrate _ | .recalibrateLockTimeout | .recalibrateNoMovement | .lossOfLock
  | .reacquireTimeout | .meter | .cleaningDistanceReached | .retensionTimeout | .recoveryLockTimeout | .stopTimeout | .rampComplete
  | .moveArrived | .frameSlot | .frameTransmissionComplete | .blankDetection | .sessionCountWriteEnd _ | .stagingFetchReturn
  | .chunkPlaced | .recompressDone | .slotExhaustionEnd | .parityDone | .flush _ | .writeClose _ | .writeAbort _ | .intervalExpiry
  | .readAbort _ | .readResume | .rebuildDone | .deliveryRoomGranted | .slotDrained | .healthTick | .healthSnapshot _
  | .status _ | .cartId _ | .cleanInfo _ | .passOut _ | .linkHeaderOther _ | .linkByteTimeout | .linkIdleExpiry | .answerSent
  | .transmitMismatch _ | .linkAttention _ | .attentionPulseStart | .attentionPulseEnd _ | .attentionWindowExpiry
  | .attentionGapExpiry | .libraryAttention _ | .lineLevelChange _ => true

end Sys2Proof
end

