-- ==== Sys2Proof/Certificates/Slice0/Obligations.lean ====
section
/-! DEFINITION. The statements about the part: what each command does, from which state, and what the whole part keeps. -/

open Sys2Proof Sys2Proof.Machine

/-! ### The whole part -/

/-- The command at the front of the queue is carried out on everything but the queue's rest; an empty queue idles (the model's
choice, log entry 2). -/
def Obligations.StepTakesFront : Prop :=
  (∀ (c : Instr) (rest : List Instr) (s : State), s.pending = c :: rest → step s = exec c { s with pending := rest }) ∧
  ∀ s : State, s.pending = [] → step s = .next s

/-- Every command that the part can meet completes, whatever the state; in a state in which its row cannot occur it does so by
changing at most its sensor (the model's choice, log entry 28). A front-port request of a shape that the port does not have stops by
name and changes nothing (the model's choice, log entry 5). -/
def Obligations.WellFormedCommandsComplete : Prop :=
  (∀ (c : Instr) (s : State), c.wf = true → ∃ t, exec c s = .next t) ∧
  (∀ (m : Master) (a n : Nat) (bs : List (Option Byte)) (s : State),
    (bs.length = 0 ∨ 64 < a % 64 + bs.length →
      exec (.frontPortWrite m a bs) s = .fault (.malformedRequest a bs.length) ∧
      exec (.bindingWordWrite m a bs) s = .fault (.malformedRequest a bs.length) ∧
      exec (.stagingWrite m a bs) s = .fault (.malformedRequest a bs.length) ∧
      exec (.sequenceWordWrite m a bs) s = .fault (.malformedRequest a bs.length) ∧
      exec (.consumerWordWrite m a bs) s = .fault (.malformedRequest a bs.length)) ∧
    (n = 0 ∨ 64 < a % 64 + n →
      exec (.frontPortRead m a n) s = .fault (.malformedRequest a n) ∧
      exec (.deliveryTailRead m a n) s = .fault (.malformedRequest a n)) ∧
    (n ≠ 0 → a % 64 + n ≤ 64 → 536870912 < a + n →
      exec (.frontPortRead m a n) s = .fault (.outsideMemory a n) ∧
      exec (.deliveryTailRead m a n) s = .fault (.outsideMemory a n)) ∧
    (bs ≠ [] → a % 64 + bs.length ≤ 64 → 536870912 < a + bs.length →
      exec (.frontPortWrite m a bs) s = .fault (.outsideMemory a bs.length) ∧
      exec (.bindingWordWrite m a bs) s = .fault (.outsideMemory a bs.length) ∧
      exec (.stagingWrite m a bs) s = .fault (.outsideMemory a bs.length) ∧
      exec (.sequenceWordWrite m a bs) s = .fault (.outsideMemory a bs.length) ∧
      exec (.consumerWordWrite m a bs) s = .fault (.outsideMemory a bs.length)))

/-- What every command leaves alone: the queue of the commands that wait; buffer memory, which changes at a grant of the memory
port and by nothing else (R68, R82); the strap address, which is read at either reset and at no other time (R191, R198). That memory
is kept over the resets too is the model's choice, log entry 1. -/
def Obligations.EveryCommandKeeps : Prop :=
  ∀ (c : Instr) (s t : State), exec c s = .next t →
    t.pending = s.pending ∧ (c ≠ .memoryPortGrant → t.mem = s.mem) ∧
    ((∀ sn b, c ≠ .powerOn sn b) → (∀ sn b, c ≠ .resetLine sn b) → t.li.strap = s.li.strap)

/-- Every step keeps the memory in its canonical form (the model's representation, log entry 1). Law 7 (R136): the applied band and
the one a ramp leads to, the decided band, the highest target of a dwell and the policy's bands lie in 0 to 7, and every step keeps
them there. Law 1 (R108): the free list holds each FREE slot once and no other, at most one slot is FILLING and at most two are ON_TAPE.
The span table holds at most 8 spans, in ring order, which touch neither the frontier nor each other and end at or before the release point
(R75, R77); the internal completion queue holds at most 8 records (R185); the starvation count is at most 8 (R82). Every step keeps all of
them. -/
def Obligations.StepKeepsInvariants : Prop :=
  ∀ s t : State, step s = .next t →
    (Memory.wf s.mem = true → Memory.wf t.mem = true) ∧ (bandsLegal s = true → bandsLegal t = true) ∧
    (lawful s = true → lawful t = true)

/-- Every step leaves T* noted: the settle and excursion counts stand at the T* now in force, so that a change of T* and back is
never missed (R31, R33); and the current activity is the one set at the last change of transport state or motion mode (R20). This is the
invariant that `steady`, `quiet` and `calm` take as their premise in the statements below. -/
def Obligations.StepKeepsTargetNoted : Prop :=
  ∀ s t : State, noted s = true → step s = .next t → noted t = true

/-- The machine after reset has its memory in canonical form, legal bands (Law 7, R136), the laws of the slots, the span table and the queues
(R75, R77, R82, R108, R185), and T* noted at HOLD (R42). -/
def Obligations.ResetMeetsInvariants : Prop := safe State.reset = true ∧ noted State.reset = true

/-- A byte written is the byte read, and every other byte reads as before. A read issued by the part after a write returns the
write's bytes where the write covers them, and elsewhere what it would have returned before; memory itself is unchanged until
the grant (R68, the same-line order of R82). -/
def Obligations.MemoryReadAfterWrite : Prop :=
  (∀ (m : List Host.Cell) (a k : Nat) (b : Byte), Memory.wf m = true →
    memRead (memWrite m a b) k = if k = a then b else memRead m k) ∧
  (∀ (cls : ReqClass) (a k : Nat) (bs : List Byte) (what : Purpose) (s : State),
    (issueWrite cls a bs what s).mem = s.mem ∧
    throughByte s.mem (issueWrite cls a bs what s).bp.reqs k =
      if a ≤ k ∧ k < a + bs.length then bs.getD (k - a) 0 else throughByte s.mem s.bp.reqs k)


/-! ### Chapter 1: cartridge handling -/

/-- The seat closes in EMPTY: the transport is SEATED, the tab is held, the record is no longer held, and CARTRIDGE_SEATED is posted
when SEAT's notice is enabled; it closes elsewhere: only the sensor changes (R2). The seat opens in SEATED, and in FAULTED with no
tape in the path: EMPTY, the tab discarded, CARTRIDGE_REMOVED posted; in EMPTY, and in FAULTED with tape in the path, only the
sensor changes (R3). It opens in a load's step with no tape in the path: the duties are zeroed, the hub is released, CARTRIDGE_REMOVED
is posted and the load ends THREAD_FAILED in EMPTY (R12; that the release is made at once is the model's choice, log entry 35). That
every change of transport state starts T*'s counts afresh where T* changes is written `noteTarget` (R31, R33). -/
def Obligations.SeatSensor : Prop :=
  ∀ (tag : Word) (tab : Tab) (s : State),
    let seated : State := { (s.moved .seated).lost.reelsZero with
      ch.seat := true, ch.tab := some tab, ch.recordHeld := false, mo.locked := false }
    let emptied : State := { (s.moved .empty).lost.reelsZero with
      ch.seat := false, ch.tab := none, mo.locked := false, li.unloadRefused := false,
      cq.queue := s.cq.queue ++ [noticeRecord .cartridgeRemoved []] }
    (s.ch.transport = .empty → s.ch.settlePending = false → unthreaded s = true → s.pw.seatW = false → s.pw.seatN = false →
      exec (.seatClose tab) s = .next (noteTarget seated)) ∧
    (s.ch.transport = .empty → s.ch.settlePending = false → unthreaded s = true → s.pw.seatW = false → s.pw.seatN = true →
      cqOpen s = true →
      exec (.seatClose tab) s = .next (noteTarget { seated with cq.queue := s.cq.queue ++ [noticeRecord .cartridgeSeated []] })) ∧
    (s.ch.transport ≠ .empty → exec (.seatClose tab) s = .next { s with ch.seat := true }) ∧
    (s.ch.transport = .seated → unthreaded s = true → cqOpen s = true → exec .seatOpen s = .next (noteTarget emptied)) ∧
    (s.ch.transport = .faulted → s.ch.tape = false → s.ch.step = none → s.re.limSup = 0 → s.re.limTak = 0 → s.re.exc = 0 →
      s.re.excDue = false → s.re.stall = 0 → s.re.stallDue = false → cqOpen s = true →
      exec .seatOpen s = .next (noteTarget { emptied with he.cleanDist := none })) ∧
    (s.ch.transport = .empty ∨ (s.ch.transport = .faulted ∧ s.ch.tape = true) → exec .seatOpen s = .next { s with ch.seat := false }) ∧
    (s.ch.transport = .loading → s.ch.tape = false → s.ch.step ≠ some .eject → quiet s = true → s.he.clean ≠ .cleaning →
      s.ci.transport = runningNow { tag := tag, op := .load } → s.pw.cancelled ≠ some .transport → s.cq.waiting = [] → s.cq.queue.length < 7 →
      exec .seatOpen s = .next (noteTarget (posted tag .load .threadFailed 0 .none { emptied with
        ch.step := none, ch.hub := false, re.sup := Channel.forced, re.tak := Channel.forced, re.armCh := Channel.forced,
        re.brake := s.re.brake || inputMoves s, re.degSup := false, re.degTak := false, re.limSup := 0, re.limTak := 0, re.exc := 0,
        re.excDue := false, re.stall := 0, re.stallDue := false, re.settle := 0, ci.transport := Job.clear })))

/-- The tape-in-path sensor, or the seat sensor, is lost in a threaded state with no operation under way: FAULTED, every duty zero
in the active and staged thresholds, the brake applied, the servo released, the position unknown, the power policy's waits and
the recovery emptied; the session, the buffers and the record held are kept, and nothing is posted (R3, R4, Law 12). -/
def Obligations.LossEntersFaulted : Prop :=
  ∀ s : State, s.ch.transport = .ready ∨ s.ch.transport = .parked ∨ s.ch.transport = .unpositioned → noOperations s = true →
    quiet s = true → s.mo.stack = [] → s.ch.step = none →
    let faulted : State := { (s.moved .faulted).lost with
      re.sup := Channel.forced, re.tak := Channel.forced, re.armCh := Channel.forced, re.brake := true, re.degSup := false,
      re.degTak := false, re.limSup := 0, re.limTak := 0, re.exc := 0, re.excDue := false, re.stall := 0, re.stallDue := false,
      re.settle := 0, mo.locked := false, mo.pend := [], mo.mask := false, mo.wait := .none, mo.savedLegs := [],
      mo.savedGoal := .none, mo.redirect := false, mo.skipResume := false, mo.recT := Config.tStream, mo.recal := false, pw.waiters := [],
      rd.aborted := false }
    exec .tapeInPathLoss s = .next (noteTarget { faulted with ch.tape := false }) ∧
    exec .seatOpen s = .next (noteTarget { faulted with ch.seat := false })

/-- LOAD in SEATED, the waiting automatic load, and a seat that closes with SEAT's wake enable set begin the load: LOADING, attempt
1, the TAG_READ step; LOAD in any other state is refused with the sub-code of R1 (R1, R2, R5). The change of state sets the current activity
(R20), which `noteTarget` writes. -/
def Obligations.LoadBegins : Prop :=
  ∀ (tag : Word) (tab : Tab) (s : State), quiet s = true → s.re.brake = false →
    let loading : State := { (s.moved .loading).lost.reelsZero with
      ch.step := some (.tagRead false), ch.attempt := 1, ch.giveUp := false, mo.meter := 0, he.cleanDist := none,
      he.useCounted := false, mo.locked := false, re.window := [], re.scanDue := false }
    let autoJob : Job := { running := some .autoLoad, judged := true, finishing := false, pending := s.ci.transport.pending }
    (s.ch.transport = .seated → s.ch.step = none → s.pw.dwell = false → s.bp.layout.isSome = true → s.ci.transport = Job.clear →
      exec (.load tag) s = .next (noteTarget { loading with ci.transport := runningNow { tag := tag, op := .load } })) ∧
    (s.ch.transport = .seated → s.ch.step = none → s.ch.autoWaiting = true → s.ci.transport.running = none →
      exec .automaticLoad s = .next (noteTarget { loading with ch.autoWaiting := false, ci.transport := autoJob })) ∧
    (s.ch.transport = .empty → s.ch.step = none → s.ch.settlePending = false → s.pw.seatW = true → s.pw.seatN = false →
      s.ci.transport.running = none →
      exec (.seatClose tab) s =
        .next (noteTarget { loading with ch.seat := true, ch.tab := some tab, ch.recordHeld := false, ci.transport := autoJob })) ∧
    (s.ch.transport ≠ .seated → dwellSteady s = true → placeOpen .transport s = true →
      exec (.load tag) s = .next (posted tag .load .refusedState (loadSub s.ch.transport).code .none s))

/-- TAG_READ ends: the image goes into the cartridge record area whether it passes or not; a good one becomes the cartridge record
and its open flag decides whether EOD is confirmed; a DATA cartridge of generation 3 or 2 goes on to HUB_ENGAGE, another generation
and an expired cleaning cartridge are ejected unthreaded. A failed read is retried once; after the retry the blank record is taken
and the cartridge is TAG_UNREADABLE (R6, R7). -/
def Obligations.TagReadJudged : Prop :=
  ∀ (image : List Byte) (l : Layout) (s : State), s.bp.layout = some l → s.ch.transport = .loading → s.re.brake = false →
    s.ch.hub = false → s.ch.seat = true → calm s = true → image ≠ [] → (bitAt image 13 1 = false ∨ field image 14 1 ≤ 50) →
    let taken : State := { s.reelsZero with
      bp.reqs := s.bp.reqs ++ [partWrite l.cartBase image .plain], ch.tagUnreadable := false,
      ch.tagRest := tagRestOf image, ch.eodConfirmed := decide (field image 12 1 = 0) }
    let kind := field image 8 1
    let gen := field image 9 1
    let atRead := s.ch.step = some (.tagRead false) ∨ s.ch.step = some (.tagRead true)
    (atRead → tagGood image = true → kind = 1 → gen = 3 ∨ gen = 2 →
      exec (.tagReadComplete image) s = .next { taken with ch.step := some .hubEngage }) ∧
    (atRead → tagGood image = true → kind = 1 → gen ≠ 3 → gen ≠ 2 →
      exec (.tagReadComplete image) s = .next { taken with ch.step := some .eject, ch.ejectStatus := .unsupportedMedia }) ∧
    (atRead → tagGood image = true → kind = 2 → bitAt image 13 1 = true → field image 14 1 = 50 →
      exec (.tagReadComplete image) s = .next { taken with ch.step := some .eject, ch.ejectStatus := .cleanCartExpired }) ∧
    (s.ch.step = some (.tagRead false) → tagGood image = false →
      exec (.tagReadComplete image) s = .next { s.reelsZero with
        bp.reqs := s.bp.reqs ++ [partWrite l.cartBase (image.take Config.cartBytes) .plain], ch.step := some (.tagRead true) } ∧
      exec .tagReadLimit s = .next { s.reelsZero with ch.step := some (.tagRead true) }) ∧
    (s.ch.step = some (.tagRead true) → tagGood image = false →
      let blank (before : List Req) : State := { s.reelsZero with
        bp.reqs := s.bp.reqs ++ before ++ [partWrite l.cartBase (cartImage blankCart) .plain], ch.tagUnreadable := true,
        ch.eodConfirmed := false, ch.step := some .hubEngage }
      exec (.tagReadComplete image) s = .next (blank [partWrite l.cartBase (image.take Config.cartBytes) .plain]) ∧
      exec .tagReadLimit s = .next (blank []))

/-- The thread steps go on at their completing conditions: hub engaged, pin captured, the arm at the pull end with tape in the path,
tension settled. An arm that finds no tape in the path (PATH_CHECK) goes home again, and the attempt is counted. Each row in another
step only records its sensor (R8, R9, R30, R31; for a row out of its step that is the model's choice, log entry 28). -/
def Obligations.ThreadingAdvances : Prop :=
  ∀ (code : Nat) (s : State), s.ch.transport = .loading → s.re.brake = false →
    (s.ch.step = some .hubEngage → s.ch.pin = false →
      exec .hubEngaged s = .next (noteTarget { s.reelsZero with
        ch.hub := true, ch.step := some .pinCapture, re.armCh := s.re.armCh.stage 0 600, re.armDirS := .towardPull })) ∧
    (s.ch.step = some .pinCapture →
      exec .pinCaptured s = .next (noteTarget { s with
        ch.pin := true, ch.step := some .threadPull, re.armCh := s.re.armCh.stage 0 600, re.armDirS := .towardPull })) ∧
    (s.ch.step = some .threadPull → 3800 ≤ code →
      exec (.armMoveDone code true) s = .next (noteTarget { s with
        ch.arm := code, ch.tape := true, ch.step := some .tensionUp, re.armCh := s.re.armCh.stage 0 0 })) ∧
    (s.ch.step = some .threadPull → 3800 ≤ code → s.ch.attempt < 3 →
      exec (.armMoveDone code false) s = .next (noteTarget { s.reelsZero with
        ch.arm := code, ch.tape := false, ch.step := some .backArm, ch.attempt := s.ch.attempt + 1, ch.giveUp := false,
        re.armCh := s.re.armCh.stage 0 600, re.armDirS := .towardHome })) ∧
    (s.ch.step = some .threadPull → code < 3800 → exec (.armMoveDone code true) s = .next { s with ch.arm := code }) ∧
    (s.ch.step = some .tensionUp → 16 ≤ s.re.settle → noted s = true → s.ch.tagUnreadable = false → s.cart.cleaning = false →
      exec .tensionSettled s = .next { s with ch.step := some .servoAcquire, mo.dir := .forward }) ∧
    (s.ch.step = some .tensionUp → s.re.settle < 16 → exec .tensionSettled s = .next s) ∧
    (s.ch.step ≠ some .hubEngage → exec .hubEngaged s = .next { s with ch.hub := true }) ∧
    (s.ch.step ≠ some .pinCapture → exec .pinCaptured s = .next { s with ch.pin := true })

/-- A thread step that passes its limit ends the attempt: before the pin is captured it is retried in place; after it the tension
is taken down and the arm driven home; a third failure gives up, and the load ejects. The return of the arm after a missed capture
counts as PIN_CAPTURE's own attempt; a return or an EJECT that passes its limit enters FAULTED (R7 to R11; the arm's return as part of
PIN_CAPTURE, the FAULTED end of the returns, and the hub's release behind an arm that is not home after the third attempt are the
model's choices, log entries 11 and 35). An unload step that passes its limit ends the unload FAULTED, but for the tag write, whose
failure is posted and whose step goes on to EJECT (R18, R19). -/
def Obligations.StepLimitsJudged : Prop :=
  (∀ s : State, s.ch.transport = .loading → s.re.brake = false → noted s = true → s.ch.giveUp = false → s.ch.seat = true → 1 ≤ s.ch.attempt →
     s.he.clean ≠ .cleaning →
     let next : State := { s with ch.attempt := s.ch.attempt + 1 }
     let last : State := { s with ch.giveUp := true, ch.attempt := 3 }
     (s.ch.step = some .hubEngage → s.ch.attempt < 3 → exec .loadStepLimit s = .next next.reelsZero) ∧
     (s.ch.step = some .hubEngage → s.ch.attempt = 3 →
       exec .loadStepLimit s = .next { last.reelsZero with ch.step := some .eject, ch.ejectStatus := .threadFailed }) ∧
     (s.ch.step = some .pinCapture → s.ch.attempt < 3 →
       exec .loadStepLimit s = .next { next.reelsZero with
         ch.step := some .armHomeForCapture, re.armCh := s.re.armCh.stage 0 600, re.armDirS := .towardHome }) ∧
     (s.ch.step = some .armHomeForCapture → s.ch.attempt < 3 →
       exec .loadStepLimit s = .next { next.reelsZero with
         ch.step := some .armHomeForCapture, re.armCh := s.re.armCh.stage 0 600, re.armDirS := .towardHome }) ∧
     (s.ch.step = some .pinCapture ∨ s.ch.step = some .armHomeForCapture → s.ch.attempt = 3 →
       exec .loadStepLimit s = .next { last.reelsZero with
         ch.step := some .armHomeForCapture, re.armCh := s.re.armCh.stage 0 600, re.armDirS := .towardHome }) ∧
     (s.ch.step = some .threadPull → s.ch.attempt < 3 →
       exec .loadStepLimit s = .next (noteTarget { next.reelsZero with
         ch.step := some .backArm, re.armCh := s.re.armCh.stage 0 600, re.armDirS := .towardHome })) ∧
     (s.ch.step = some .threadPull → s.ch.attempt = 3 →
       exec .loadStepLimit s = .next (noteTarget { last.reelsZero with
         ch.step := some .backArm, re.armCh := s.re.armCh.stage 0 600, re.armDirS := .towardHome })) ∧
     (s.ch.step = some .tensionUp ∨ s.ch.step = some .servoAcquire → s.ch.attempt < 3 →
       exec .loadStepLimit s = .next { next with
         ch.step := some .backTension, re.brake := true, re.downK := 0, re.downDt := s.re.tak.fall - s.re.tak.rise,
         re.downDs := s.re.sup.fall - s.re.sup.rise, re.limSup := 0, re.limTak := 0, re.exc := 0, re.stall := 0,
         re.excDue := false, re.stallDue := false, mo.v := 0 }) ∧
     (s.ch.step = some .backArm ∨ s.ch.step = some .backHub ∨ s.ch.step = some .eject →
       ∃ t, exec .loadStepLimit s = .next t ∧ t.ch.transport = .faulted ∧ t.ch.step = none ∧ t.re.brake = true ∧ t.mem = s.mem)) ∧
  (∀ (tag : Word) (force : Bool) (s : State), s.ch.transport = .unloading → s.ch.seat = true → s.re.brake = false → cqOpen s = true →
     s.ci.transport = runningNow { tag := tag, op := .unload force } → s.ci.write = Job.clear → s.ci.read = Job.clear →
     quiet s = true → s.rd.user = none → s.pw.cancelled = none → s.he.clean ≠ .cleaning →
     (s.ch.step = some .tagWrite →
       exec .unloadStepLimit s = .next { s.reelsZero with
         ch.step := some .eject, cq.queue := s.cq.queue ++ [noticeRecord .tagWriteFailed []] }) ∧
     (s.ch.step = some .eject ∨ s.ch.step = some .threadReturn ∨ s.ch.step = some .pinRelease ∨ s.ch.step = some .hubRelease →
       ∃ t, exec .unloadStepLimit s = .next t ∧ t.ch.transport = .faulted ∧ t.ch.step = none ∧ t.re.brake = true ∧
         t.ci = { s.ci with transport := Job.clear } ∧ t.li.lastErr = .threadFailed ∧
         t.cq = { s.cq with queue := s.cq.queue ++ [completionRecord { tag := tag, op := .unload force } .threadFailed 0 .none] } ∧
         t.mem = s.mem ∧ t.ch.recordHeld = s.ch.recordHeld) ∧
     (s.ch.step = some .rewind →
       ∃ t, exec .unloadStepLimit s = .next t ∧ t.ch.transport = .faulted ∧ t.li.lastErr = .motionFault ∧
         t.cq = { s.cq with queue := s.cq.queue ++ [completionRecord { tag := tag, op := .unload force } .motionFault 0 .none] }))


/-- The servo locks at BOT in SERVO_ACQUIRE for a DATA cartridge whose open flag is clear: the load count rises in the record, the
record is held, the position is BOT, the transport is READY with the dwell armed, the tally is cleared and opened, and LOAD
completes OK (R13, R39, R44, R165; that the record is read before it is written is the model's reading, log entry 8). -/
def Obligations.LoadCompletes : Prop :=
  ∀ (tag : Word) (l : Layout) (s : State), s.bp.layout = some l → s.ch.transport = .loading → s.ch.step = some .servoAcquire →
    s.re.brake = false → s.ci.transport = runningNow { tag := tag, op := .load } → cqOpen s = true → s.pw.cancelled = none →
    s.cart.openFlag = false → s.he.clean = .ok → quiet s = true →
    exec (.servoLock 0 20000) s = .next
      (noteTarget { s.moved .ready with
        ch.step := none, ch.recordHeld := true, mo.pass := 0, mo.named := 0, mo.count := 20000, mo.quarter := 0, mo.quality := .locked,
        mo.locked := true, mo.lp := some 0, mo.warned := false, wr.openAsked := false, pw.dwell := true,
        rd.start := some { pos := bot, seg := 0 }, he.tally := Tally.clear, he.tallyOpen := true, he.mediaPosted := false,
        sp.resid := List.replicate 8 0, sp.backhitch := 0, ci.transport := Job.clear,
        bp.reqs := s.bp.reqs ++ [readOf l.cartBase 16384 .plain,
          partWrite l.cartBase (cartImage { s.cart with loads := min (s.cart.loads + 1) 65535 }) .plain],
        cq.queue := s.cq.queue ++ [completionRecord { tag := tag, op := .load } .ok 0 .none] })

/-- UNLOAD: refused without a cartridge, while a load or an unload runs, and while a session is open without FORCE; in SEATED it
ejects; from READY it begins the rewind to BOT at locate speed, and cancels the park dwell (R17, R18, R39). The tape of another pass
goes to BOT's count on that pass first, and the pass is changed there (R43); that, and the speed taken at once, are the model's choices,
log entries 14 and 36. -/
def Obligations.UnloadBegins : Prop :=
  ∀ (tag : Word) (force : Bool) (s : State), s.re.brake = false → s.ch.seat = true →
    let c : FwCmd := { tag := tag, op := .unload force }
    let toBot : Leg := { mode := .locate, pass := some 0, target := some 20000, speed := 307 }
    (s.ch.transport = .empty → quiet s = true → dwellSteady s = true → placeOpen .transport s = true →
      exec (.unload tag force) s = .next (posted tag (.unload force) .refusedState 1 .none s)) ∧
    (s.ch.transport = .loading ∨ s.ch.transport = .unloading → quiet s = true → dwellSteady s = true → placeOpen .transport s = true →
      exec (.unload tag force) s = .next (posted tag (.unload force) .refusedState 4 .none s)) ∧
    (s.ch.transport = .ready → force = false → sessionOpen s = true → calm s = true → dwellSteady s = true →
      placeOpen .transport s = true →
      exec (.unload tag force) s = .next (posted tag (.unload force) .refusedState 8 .none s)) ∧
    (s.ch.transport = .seated → s.ch.step = none → quiet s = true → s.pw.dwell = false → s.bp.layout.isSome = true →
      s.ci.transport = Job.clear →
      exec (.unload tag force) s = .next { s.reelsZero with ci.transport := runningNow c, ch.step := some .eject }) ∧
    (s.ch.transport = .ready → s.pw.settling = false → quiet s = true → dwellSteady s = true → s.bp.layout.isSome = true →
      s.ci.transport = Job.clear → s.ci.read = Job.clear → s.ci.write = Job.clear → s.mo.quality ≠ .unknown →
      s.he.cleanDist = none → 24000 ≤ s.mo.count →
      exec (.unload tag force) s = .next (noteTarget { (s.dwellCut .transport).moved .unloading with
        ci.transport := runningNow c, ch.step := some .rewind, mo.stands := none, rd.start := none, mo.goal := .rewind,
        mo.bandTo := none, mo.named := s.mo.pass, mo.stopping := false,
        mo.legs := if s.mo.pass = 0 then [toBot] else [{ toBot with pass := none }, toBot], mo.dest := 307, mo.v := 307,
        mo.into := none, mo.dir := .reverse }))

/-- The unload steps go on at their completing conditions, in the order of R18: the arm home, the pin and the hub released, the tag
write, the seat open, whose end is EMPTY with CARTRIDGE_REMOVED posted and UNLOAD completed OK (R18, R19, R30). Before the tag write
the load's summary goes into the drive's history and, but for a cleaning or an unreadable cartridge, its entry into the cartridge's
own; the history area is written; the record goes out to the tag with its open flag clear and those entries in it (R19, R170, R171,
R176; that the record is read before each write of it is the model's reading, log entry 8). -/
def Obligations.UnloadAdvances : Prop :=
  ∀ (code : Nat) (tape ok : Bool) (tag : Word) (force : Bool) (l : Layout) (s : State), s.ch.transport = .unloading →
    s.ch.seat = true → s.re.brake = false → s.bp.layout = some l →
    let removed := noticeRecord .cartridgeRemoved []
    let done := completionRecord { tag := tag, op := .unload force } .ok 0 .none
    let summary : DriveEntry := {
      serial := if s.ch.tagUnreadable then List.replicate 8 0 else s.cart.serial, unknown := s.ch.tagUnreadable, after := true,
      frames := s.he.tally.frames, rewrites := s.he.tally.rewrites, rate := loadRate s.he.tally, heavy := s.he.tally.heavy,
      retries := s.he.tally.readRetries }
    let summed : Health := { s.he with history := (s.he.history ++ [summary]).drop (s.he.history.length - 7), tallyOpen := false }
    let mine : TagLoad := { drive := l.driveId, frames := s.he.tally.frames, rewrites := s.he.tally.rewrites, rate := loadRate s.he.tally }
    let loaded : List Byte := cartImage { s.cart with hist := (s.cart.hist ++ [mine]).drop (s.cart.hist.length - 3) }
    let tagged (c : Cart) : List Byte := cartImage { c with openFlag := false }
    let recordRead := readOf l.cartBase 16384 .plain
    (s.ch.step = some .threadReturn → code ≤ 200 → s.ch.pin = true →
      exec (.armMoveDone code tape) s = .next (noteTarget { s.reelsZero with
        ch.arm := code, ch.step := some .pinRelease, re.armCh := s.re.armCh.stage 0 0 })) ∧
    (s.ch.step = some .pinRelease → s.ch.hub = true →
      exec .pinReleased s = .next (noteTarget { s.reelsZero with ch.pin := false, ch.step := some .hubRelease })) ∧
    (s.ch.step = some .hubRelease → s.ch.recordHeld = false → s.he.tallyOpen = false →
      exec .hubReleased s = .next (noteTarget { s.reelsZero with
        ch.hub := false, ch.step := some .eject,
        bp.reqs := s.bp.reqs ++ [partWrite l.histBase (persistentBytes s.he) .plain] })) ∧
    (s.ch.step = some .hubRelease → s.ch.recordHeld = true → s.ch.tagUnreadable = true → s.he.tallyOpen = true →
      s.he.tally.frames < 4096 →
      exec .hubReleased s = .next (noteTarget { s.reelsZero with
        ch.hub := false, ch.step := some .eject, he := summed,
        bp.reqs := s.bp.reqs ++ [partWrite l.histBase (persistentBytes summed) .plain] })) ∧
    (s.ch.step = some .hubRelease → s.ch.recordHeld = true → s.ch.tagUnreadable = false → s.he.tallyOpen = false →
      l.cartBase + 16384 ≤ l.histBase ∨ l.histBase + 512 ≤ l.cartBase →
      exec .hubReleased s = .next (noteTarget { s.reelsZero with
        ch.hub := false, ch.step := some .tagWrite, ch.tagOut := [(0, tagged s.cart)], ch.tagRest := tagRestOf (tagged s.cart),
        bp.reqs := s.bp.reqs ++
          [partWrite l.histBase (persistentBytes s.he) .plain, recordRead, partWrite l.cartBase (tagged s.cart) .plain] })) ∧
    (s.ch.step = some .hubRelease → s.ch.recordHeld = true → s.ch.tagUnreadable = false → s.he.tallyOpen = true →
      s.he.tally.frames < 4096 → s.cart.cleaning = false → l.cartBase + 16384 ≤ l.histBase ∨ l.histBase + 512 ≤ l.cartBase →
      exec .hubReleased s = .next (noteTarget { s.reelsZero with
        ch.hub := false, ch.step := some .tagWrite, he := summed, ch.tagOut := [(0, tagged (cartOf loaded))],
        ch.tagRest := tagRestOf (tagged (cartOf loaded)),
        bp.reqs := s.bp.reqs ++ [recordRead, partWrite l.cartBase loaded .plain, partWrite l.histBase (persistentBytes summed) .plain,
          recordRead, partWrite l.cartBase (tagged (cartOf loaded)) .plain] })) ∧
    (s.ch.step = some .tagWrite → cqOpen s = true →
      exec (.tagWriteEnd ok) s = .next (noteTarget { s.reelsZero with
        ch.step := some .eject, cq.queue := if ok then s.cq.queue else s.cq.queue ++ [noticeRecord .tagWriteFailed []] })) ∧
    (s.ch.step = some .eject → s.ci.transport = runningNow { tag := tag, op := .unload force } → s.cq.waiting = [] →
      s.cq.queue.length < 7 → s.pw.cancelled = none → s.re.degSup = false → s.re.degTak = false →
      ∃ t, exec .seatOpen s = .next t ∧ t.ch.transport = .empty ∧ t.ch.recordHeld = false ∧ t.ch.tab = none ∧ t.ch.step = none ∧
        t.ci = { s.ci with transport := Job.clear } ∧ t.cq = { s.cq with queue := s.cq.queue ++ [removed, done] } ∧
        t.re.sup = Channel.forced ∧ t.re.tak = Channel.forced ∧ t.mo.lp = none ∧ t.mo.quality = .unknown ∧
        t.mem = s.mem ∧ t.bp = s.bp ∧ t.ri = s.ri ∧ t.sm = s.sm ∧ t.wr = s.wr)

/-! ### Resets -/

/-- POWER_ON, in every state: each block stands as after reset; the writes that waited at the front port have been forwarded in order
without any watch, and the requests already taken there go on; the state is decided at once from the sensors, with the brake released
and the channels clear; the tab is sampled where there is a cartridge; movement counts start afresh (R20, R21, R26, R42, R67, R68,
R83, R107, R128, R141, R160, R177, R189, R198). That buffer memory, acknowledgements and the last read, the arm's code and the
line's level stay is the model's choice, log entries 1 and 4. -/
def Obligations.PowerOnDecides : Prop :=
  ∀ (sn : Sensors) (strap : BitVec 3) (s : State),
    (∀ w ∈ waitingWrites s, ∀ i < 8, w.enables (248 + i) = false) →
    let state : Transport := if sn.tape then .unpositioned else if sn.seat then .seated else .empty
    exec (.powerOn sn strap) s = .next { s.afterReset false sn strap with
      ch.transport := state, ch.activityAt := (state, none), ch.stateAtStart := state,
      ch.tab := if sn.tape || sn.seat then some sn.tab else none, he.tick := sn.tape }

/-- RESET_LINE keeps the last activity, zeroes the duties and applies the brake, with the state still to be decided (held at EMPTY
meanwhile, the model's choice, log entry 35; what it keeps besides is that of log entries 1 and 4); RESET_SETTLE decides it from the
sensors, and the brake stays on only where the position input still shows movement (R20, R21, R25; log entry 22). With no reset to
settle the row changes nothing (the model's choice, log entries 3 and 28). -/
def Obligations.ResetLineThenSettle : Prop :=
  ∀ (sn : Sensors) (strap : BitVec 3) (s : State),
    ((∀ w ∈ waitingWrites s, ∀ i < 8, w.enables (248 + i) = false) →
      exec (.resetLine sn strap) s = .next { s.afterReset true sn strap with re.brake := true, ch.settlePending := true }) ∧
    (s.ch.settlePending = true → s.ch.transport = .empty →
      ∃ t, exec (.resetSettle sn) s = .next t ∧ t.ch.settlePending = false ∧
        t.ch.transport = (if sn.tape then .unpositioned else if sn.seat then .seated else .empty) ∧
        t.ch.tab = (if sn.tape || sn.seat then some sn.tab else none) ∧ t.re.sup = s.re.sup ∧ t.re.tak = s.re.tak ∧
        t.re.armCh = s.re.armCh ∧ t.ch.seat = sn.seat ∧ t.ch.tape = sn.tape ∧ t.ch.hub = sn.hub ∧ t.ch.pin = sn.pin ∧
        t.ch.stateAtStart = t.ch.transport ∧ t.re.brake = (s.re.brake && sn.moving) ∧ t.ch.lastActivity = s.ch.lastActivity ∧
        t.ch.causeLine = s.ch.causeLine ∧ t.mem = s.mem ∧ t.bp = s.bp ∧ t.ci = s.ci ∧ t.cq = s.cq ∧ t.ri = s.ri ∧ t.sm = s.sm ∧
        t.wr = s.wr ∧ t.sp = s.sp ∧ t.mo.lp = none ∧ t.mo.quality = .unknown ∧ t.rd = { s.rd with start := none } ∧
        t.he = { s.he with tick := sn.tape }) ∧
    (s.ch.settlePending = false → exec (.resetSettle sn) s = .next s)

/-! ### Chapter 2: reel drive, tension and power -/

/-- At the start of a period each channel whose update flag is set takes its staged pair and direction, and the flag is cleared; a
scan falls due in every period at HOLD_POWER and FULL, in one of 64 at PARK_POWER, in none at SLEEP. Nothing else changes (R23, R24,
R26). The brake is released once the position input has shown no movement; every entry of the window then takes the count of the
newest scan (R25, R26; the model's choice, log entry 13, is that it is the count last read). In the steps that take tension down,
and with no brake on, that row changes nothing (the model's choice, log entry 22). Tension is taken down in 16 scans; then the brake
is released, the window's entries take the count likewise and the arm is driven home: in an unload the THREAD_RETURN step, in a load
the return of a failed attempt (R10, R18, R26, R30, R31); before the 16th scan the row changes nothing (the model's choice, log
entry 28). -/
def Obligations.PeriodStartAndBrake : Prop :=
  (∀ s : State,
     let take := fun c : Channel => if c.flag then { c with rise := c.sRise, fall := c.sFall, flag := false } else c
     let applied : State := { s with
       re.sup := take s.re.sup, re.tak := take s.re.tak, re.armCh := take s.re.armCh,
       re.supDir := if s.re.sup.flag then s.re.supDirS else s.re.supDir,
       re.armDir := if s.re.armCh.flag then s.re.armDirS else s.re.armDir }
     (powerOf s.ch.transport = .holdPower ∨ powerOf s.ch.transport = .full →
       exec .periodStart s = .next { applied with re.scanDue := true }) ∧
     (powerOf s.ch.transport = .parkPower →
       exec .periodStart s =
         .next { applied with re.scanDue := decide (s.re.sparse = 0), re.sparse := (s.re.sparse + 1) % 64 }) ∧
     (powerOf s.ch.transport = .sleep → exec .periodStart s = .next { applied with re.scanDue := false })) ∧
  (∀ s : State,
     (s.re.brake = true → s.ch.step ≠ some .tensionDown → s.ch.step ≠ some .backTension →
       exec .brakeRelease s = .next { s with re.brake := false, re.window := s.re.window.map (fun _ => s.re.input) }) ∧
     (s.re.brake = false ∨ s.ch.step = some .tensionDown ∨ s.ch.step = some .backTension →
       exec .brakeRelease s = .next s)) ∧
  (∀ s : State,
     let home (x : Step) : State := noteTarget { s.reelsZero with
       ch.step := some x, re.brake := false, re.window := s.re.window.map (fun _ => s.re.input), re.downK := 0,
       re.armCh := s.re.armCh.stage 0 600, re.armDirS := .towardHome }
     (s.ch.transport = .unloading → s.ch.step = some .tensionDown → 16 ≤ s.re.downK →
       exec .tensionDownDone s = .next (home .threadReturn)) ∧
     (s.ch.transport = .loading → s.ch.step = some .backTension → 16 ≤ s.re.downK →
       exec .tensionDownDone s = .next (home .backArm)) ∧
     (s.re.downK < 16 → exec .tensionDownDone s = .next s))

/-- A scan that is due. In READY: the sensors' values are taken; the movement window, METER's sum and the position (from the servo
while LOCKED, carried forward while ESTIMATED) follow the movement; the loops step toward HOLD at speed 0 and stage their pairs,
FORWARD; the settle counter counts a tension within 200 of the target, the limit counts follow the currents (R26 to R29, R31 to R34,
R43). In a LOCATE move that is not yet to stop: the same toward 2,048 and the move's speed, with v signed by the supply direction, and
the excursion and stall counts besides (R26 to R29, R31 to R34). A scan that is not due changes nothing (the model's choice, log
entry 13). A reel loop's integrators after a scan, for any target: the error times 3/16 or 5/32, rounded down, clamped (R28, R29). -/
def Obligations.ScanStepsLoops : Prop :=
  (∀ (x : ScanSample) (leg : Leg) (t : Nat) (s : State),
     let delta := x.movement - s.re.input
     let window := (x.movement :: s.re.window).take 33
     let d := window.headD 0 - window.getLastD 0
     let v := if s.re.supDir = .forward then d else -d
     let gap := if x.tension ≤ s.re.tstar then s.re.tstar - x.tension else x.tension - s.re.tstar
     let dt := stepDt s.re.dt s.re.tstar x.tension
     let ds := if s.ch.transport = .ready then stepDs s.re.ds 0 d else stepDs s.re.ds s.mo.v v
     let quarters := s.mo.quarter + delta.natAbs
     let scanned : State := { s with
       re.scanDue := false, re.window := window, re.input := x.movement, ch.arm := x.arm, mo.meter := s.mo.meter + delta.natAbs,
       re.dt := dt, re.tak := s.re.tak.stage 0 (if s.re.degTak then dt / 2 else dt),
       re.ds := ds, re.sup := s.re.sup.stage (1024 - (if s.re.degSup then ds / 2 else ds)) 1024,
       re.settle := if gap ≤ 200 then min (s.re.settle + 1) 65535 else 0, re.excHold := s.re.excHold - 1,
       re.limSup := limitCount s.re.degSup s.re.limSup x.supplyCurrent,
       re.limTak := limitCount s.re.degTak s.re.limTak x.takeUpCurrent }
     let standing : State := { scanned with re.supDirS := .forward, re.exc := 0, re.excDue := false, re.stall := 0 }
     (s.re.scanDue = false → exec (.scanComplete x) s = .next s) ∧
     (s.re.scanDue = true → s.re.brake = false → s.ch.tape = true → s.he.cleanDist = none → s.ch.step = none → quiet s = true →
       (s.ch.transport = .ready → s.mo.mode = none → s.mo.legs = [] → s.mo.quality = .locked → s.mo.passWait = false →
         exec (.scanComplete x) s =
           .next { standing with mo.pass := x.servoPass, mo.count := x.servoCount, mo.quarter := 0 }) ∧
       (s.ch.transport = .ready → s.mo.mode = none → s.mo.legs = [] → s.mo.quality = .estimated → s.mo.passWait = false →
         exec (.scanComplete x) s = .next { standing with
           mo.quarter := quarters % 4,
           mo.count := if s.mo.dir = .forward then min Config.tapeEnd (s.mo.count + quarters / 4) else s.mo.count - quarters / 4 }) ∧
       (s.ch.transport = .active → s.mo.mode = some .locate → s.mo.recal = false → s.mo.quality = .locked → s.mo.legs = [leg] →
         leg.target = some t → s.mo.stopping = false → s.mo.passWait = false → s.mo.v ≠ 0 →
         s.mo.v * (s.mo.v + 1) < (if s.mo.dir = .forward then t - x.servoCount else x.servoCount - t) * 256 →
         exec (.scanComplete x) s = .next { scanned with
           re.supDirS := s.mo.dir, mo.pass := x.servoPass, mo.count := x.servoCount, mo.quarter := 0,
           re.exc := if 0 < s.re.excHold ∨ gap ≤ 600 then 0 else if s.re.exc = 4 then 4 else s.re.exc + 1,
           re.excDue := s.re.excDue || (decide (s.re.excHold = 0) && decide (600 < gap) && decide (s.re.exc = 3)),
           re.stall := if d.natAbs < 2 ∧ 26 ≤ s.mo.v ∧ 960 ≤ ds then (if s.re.stall = 64 then 64 else s.re.stall + 1) else 0,
           re.stallDue := s.re.stallDue || (decide (d.natAbs < 2) && decide (26 ≤ s.mo.v) && decide (960 ≤ ds) &&
             decide (s.re.stall = 63)) }))) ∧
  (∀ (dt ds target t vStar : Nat) (v : Int), dt ≤ 1000 → ds ≤ 1000 →
     (stepDt dt target t : Int) = max 16 (min ((dt : Int) + (((target : Int) - t) * 3).fdiv 16) 1000) ∧
     (stepDs ds vStar v : Int) = max 0 (min ((ds : Int) + (((vStar : Int) - v) * 5).fdiv 32) 1000) ∧
     16 ≤ stepDt dt target t ∧ stepDt dt target t ≤ 1000 ∧ stepDs ds vStar v ≤ 1000)

/-- A reel whose limit count has reached 8 becomes DEGRADED: the count restarts, the entry is counted, and where its loop runs its duty is
staged again, halved (in THREAD_PULL the take-up loop alone runs, with tape in the path; R27); one whose count of scans below the limit has reached 1,024 returns to NORMAL (R32). A tension excursion and a reel stall that the scans
have raised join the pending set of a recovery under way whose cause outranks them, each once (R33, R34, R57, R61). Where its condition
does not hold, a row changes nothing (the model's choice, log entry 13). -/
def Obligations.ReelLimitsAndRaisedFaults : Prop :=
  (∀ s : State,
     let threading := s.ch.transport = .loading ∧ s.ch.step = some .threadPull
     let degraded (r : Reel) : State := match r with
       | .supply => { s with re.degSup := true, re.limSup := 0, re.entSup := min (s.re.entSup + 1) 65535 }
       | .takeUp => { s with re.degTak := true, re.limTak := 0, re.entTak := min (s.re.entTak + 1) 65535 }
     (s.re.degSup = false → 8 ≤ s.re.limSup → loopsRun s = true → ¬threading →
       exec (.reelDegrade .supply) s = .next { degraded .supply with
         re.sup := s.re.sup.stage (1024 - s.re.ds / 2) 1024, re.supDirS := supplyDir s }) ∧
     (s.re.degTak = false → 8 ≤ s.re.limTak → loopsRun s = true → ¬threading ∨ s.ch.tape = true →
       exec (.reelDegrade .takeUp) s = .next { degraded .takeUp with re.tak := s.re.tak.stage 0 (s.re.dt / 2) }) ∧
     (s.re.degSup = false → 8 ≤ s.re.limSup → loopsRun s = false ∨ threading →
       exec (.reelDegrade .supply) s = .next (degraded .supply)) ∧
     (s.re.degTak = false → 8 ≤ s.re.limTak → loopsRun s = false ∨ (threading ∧ s.ch.tape = false) →
       exec (.reelDegrade .takeUp) s = .next (degraded .takeUp)) ∧
     (s.re.degSup = true → 1024 ≤ s.re.limSup →
       exec (.reelReturnNormal .supply) s = .next { s with re.degSup := false, re.limSup := 0 }) ∧
     (s.re.degTak = true → 1024 ≤ s.re.limTak →
       exec (.reelReturnNormal .takeUp) s = .next { s with re.degTak := false, re.limTak := 0 }) ∧
     (s.re.limSup < 8 → exec (.reelDegrade .supply) s = .next s) ∧ (s.re.limTak < 8 → exec (.reelDegrade .takeUp) s = .next s) ∧
     (s.re.limSup < 1024 → exec (.reelReturnNormal .supply) s = .next s) ∧
     (s.re.limTak < 1024 → exec (.reelReturnNormal .takeUp) s = .next s)) ∧
  (∀ (x : Context) (s : State), s.ch.transport = .active → s.mo.stack = [x] → x.cause = .endApproach → s.mo.mask = true →
     s.mo.recal = false → s.mo.wait ≠ .failing → calm s = true →
     let joined := fun (c : Cause) => if s.mo.pend.contains c then s.mo.pend else s.mo.pend ++ [c]
     (s.re.excDue = true →
       exec .tensionExcursion s = .next { s with re.excDue := false, mo.pend := joined .tensionExcursion }) ∧
     (s.re.stallDue = true → exec .reelStall s = .next { s with re.stallDue := false, mo.pend := joined .reelStall }) ∧
     (s.re.excDue = false → exec .tensionExcursion s = .next s) ∧ (s.re.stallDue = false → exec .reelStall s = .next s))

/-- PARK and the park dwell's expiry: from READY, and at the expiry from WAIT_DATA too, the transport enters PARKED, the servo is
released and a locked position becomes estimated; a write session stays open; PARK in PARKED changes nothing, elsewhere it is
refused (R35, R39, R40); the expiry of a dwell that does not run changes nothing (the model's choice, log entry 3). SET_POWER_POLICY
sets the six enables and the dwell length clamped to 1 to 600 s; a dwell that runs, runs on, armed again, which a model without lengths
of time does not show (R37, R39, R41; log entry 3). A wake settles when tension has settled and the servo is locked with the tape
standing: the dwell is armed. Tension that does not settle ends in FAULTED, a servo that does not lock leaves the transport UNPOSITIONED
(R36, R39). Rows whose condition does not hold change nothing (the model's choice, log entries 3 and 28). -/
def Obligations.ParkAndPolicy : Prop :=
  (∀ (tag : Word) (s : State), s.re.brake = false → s.ch.step = none →
     let parked : State := { s.moved .parked with
       mo.locked := false, mo.quality := if s.mo.quality = .locked then .estimated else s.mo.quality, pw.dataOffered := false,
       re.sparse := 0 }
     (s.ch.transport = .ready → quiet s = true → placeOpen .transport s = true →
       exec (.park tag) s = .next (posted tag .park .ok 0 .none (noteTarget parked))) ∧
     (s.ch.transport = .ready → quiet s = true → s.pw.dwell = true → exec .parkDwellExpiry s = .next (noteTarget parked)) ∧
     (s.ch.transport = .active → s.mo.mode = some .waitData → s.pw.dwell = true → s.mo.stack = [] → s.ri.session = .opened →
       s.bp.held = none → s.wr.flush = none → s.wr.close = false → fetchDue s = false → intakeWaits s = false →
       s.ci.deferred = [] → exec .parkDwellExpiry s = .next (noteTarget parked.unmoved)) ∧
     (s.ch.transport = .parked → quiet s = true → placeOpen .transport s = true →
       exec (.park tag) s = .next (posted tag .park .ok 0 .none s)) ∧
     (s.ch.transport ≠ .ready → s.ch.transport ≠ .parked → quiet s = true → placeOpen .transport s = true →
       exec (.park tag) s = .next (posted tag .park .refusedState (transportSub s.ch.transport).code .none s)) ∧
     (s.pw.dwell = false → exec .parkDwellExpiry s = .next s)) ∧
  (∀ (tag : Word) (e d : Nat) (s : State), placeOpen .transport s = true → calm s = true ∨ quiet s = true → s.mo.mask = false →
     exec (.setPowerPolicy tag e d) s = .next (posted tag (.setPowerPolicy e d) .ok 0 .none
       { s with pw.seatW := e.testBit 0, pw.seatN := e.testBit 1, pw.linkW := e.testBit 2, pw.linkN := e.testBit 3,
                pw.dataW := e.testBit 4, pw.dataN := e.testBit 5, pw.dwellLen := max 1 (min d 600) })) ∧
  (∀ s : State, s.ch.transport = .ready → s.pw.settling = true → s.pw.waiters = [] → quiet s = true → noOperations s = true →
     s.re.brake = false → s.mo.stack = [] → s.ch.step = none →
     (16 ≤ s.re.settle → s.mo.locked = true → stands s = true →
       exec .unparkSettled s = .next { s with pw.settling := false, pw.dwell := true }) ∧
     (s.mo.locked = false → exec .unparkSettled s = .next s) ∧
     (s.re.settle < 16 →
       ∃ t, exec .unparkTensionTimeout s = .next t ∧ t.ch.transport = .faulted ∧ t.pw.settling = false ∧ t.re.brake = true ∧
         t.re.sup = Channel.forced ∧ t.re.tak = Channel.forced ∧ t.mo.quality = .unknown ∧ t.cq = s.cq ∧ t.ci = s.ci ∧ t.mem = s.mem) ∧
     (16 ≤ s.re.settle → exec .unparkTensionTimeout s = .next s) ∧
     (s.mo.locked = false →
       exec .unparkServoTimeout s = .next (noteTarget { (s.moved .unpositioned).lost with rd.aborted := false })) ∧
     (s.mo.locked = true → exec .unparkServoTimeout s = .next s))


/-! ### Chapter 3: motion -/

/-- LOCATE: a target code other than RECORD 0, EOD 1 and BOT 2 is REFUSED_OPERAND; a transport that is neither READY nor PARKED refuses
it; PARKED is woken, and the command waits. BOT where the tape already stands completes at once, with the dwell running on; BOT from
elsewhere cancels the dwell and begins a move at locate speed toward BOT's standing point, in ACTIVE; on another pass than 0 that pass
is named first, and the move waits for lock on it (R36, R38, R39, R43 to R46, 12.3; v* and the mode while it waits are the model's
choice, log entry 36). EOD, and a record at or behind it, which ends END_OF_DATA, go to the standing point of the EOD resume point, or of BOT
with EOD absent; another record, and a TAG_UNREADABLE cartridge whose EOD is absent, begin the trailer scan 3,072 counts before the last
mark below the record, or at BOT (R46 to R49). The read of the cartridge record is the model's reading, log entry 8. -/
def Obligations.LocateBegins : Prop :=
  ∀ (tag : Word) (target r : Nat) (s : State), quiet s = true →
    let c : FwCmd := { tag := tag, op := .locate 2 r }
    let toBot : State := { (s.dwellCut .transport).moved .active with
      ci.transport := runningNow c, rd.start := none, mo.entry := 0, mo.stands := none, mo.mode := some .ramp, mo.stopping := false,
      mo.named := 0, mo.bandTo := none, mo.legs := [{ mode := .locate, pass := some 0, target := some 18464, speed := 307 }],
      mo.goal := .locateAt .ok (some 0) (some { pos := bot, seg := 0 }) }
    (placeOpen .transport s = true → dwellSteady s = true →
      (2 < target → exec (.locate tag target r) s = .next (posted tag (.locate target r) .refusedOperand 0 .none s)) ∧
      (target ≤ 2 → s.ch.transport ≠ .ready → s.ch.transport ≠ .parked →
        exec (.locate tag target r) s =
          .next (posted tag (.locate target r) .refusedState (transportSub s.ch.transport).code .none s)) ∧
      (target = 2 → s.ch.transport = .ready → s.pw.settling = false → s.mo.stands = some { pass := 0, count := 18464 } →
        exec (.locate tag target r) s = .next (posted tag (.locate 2 r) .ok 0 (.position [] (some 0))
          { s with mo.lp := some 0, mo.entry := 0, rd.start := some { pos := bot, seg := 0 } }))) ∧
    (s.bp.layout.isSome = true → s.ci.transport = Job.clear → s.re.brake = false → s.ch.step = none → target ≤ 2 →
      s.ch.transport = .parked → s.pw.dwell = false →
      exec (.locate tag target r) s = .next (noteTarget { s.moved .ready with
        ci.transport := runningNow { tag := tag, op := .locate target r }, pw.settling := true,
        pw.waiters := s.pw.waiters ++ [.transport] })) ∧
    (s.bp.layout.isSome = true → s.ci.transport = Job.clear → dwellSteady s = true → s.ch.transport = .ready →
      s.pw.settling = false → s.re.brake = false → s.mo.mask = false → s.mo.stands ≠ some { pass := 0, count := 18464 } → s.mo.v = 0 →
      stands s = true →
      (s.mo.pass = 0 → 18464 < s.mo.count →
        exec (.locate tag 2 r) s =
          .next (noteTarget { toBot with mo.into := some .locate, mo.dest := 307, mo.dir := .reverse })) ∧
      (s.mo.pass ≠ 0 →
        exec (.locate tag 2 r) s = .next (noteTarget { toBot with mo.into := none, mo.dest := 0, mo.passWait := true }))) ∧
    (∀ (l : Layout) (e : Eod), s.bp.layout = some l → s.ci.transport = Job.clear → dwellSteady s = true → s.ch.transport = .ready →
      s.pw.settling = false → s.re.brake = false → s.mo.mask = false → s.mo.v = 0 → stands s = true →
      let read (n : Nat) : State := { (s.dwellCut .transport).moved .active with
        ci.transport := runningNow { tag := tag, op := .locate n r }, mo.entry := 0,
        bp.reqs := s.bp.reqs ++ [readOf l.cartBase 16384 .plain] }
      let toward (p : Pos) (g : Goal) (y : State) : State := noteTarget { y with
        mo.mode := some .ramp, rd.start := none, mo.stands := none, mo.stopping := false, mo.named := p.pass, mo.bandTo := none,
        mo.legs := [{ mode := .locate, pass := some p.pass, target := some p.count, speed := 307 }], mo.goal := g,
        mo.into := if p.pass = s.mo.pass then some .locate else none, mo.dest := if p.pass = s.mo.pass then 307 else 0,
        mo.passWait := decide (p.pass ≠ s.mo.pass),
        mo.dir := if p.pass ≠ s.mo.pass then s.mo.dir else if p.count < s.mo.count then .reverse else .forward }
      let scan (x : Nat) (place : Pos) (sought : Option Nat) (y : State) : State := toward place .scanGo { y with
        rd.state := .seeking, rd.user := some .scanLocate, rd.x := x, rd.next := x, rd.scan := some { target := sought, seen := [] },
        rd.blank := 0, rd.dataEnd := false, rd.lastEnd := none, rd.lowEnd := none }
      let behindEod := standing (eodResume e)
      let botPlace : Pos := { pass := 0, count := 18464 }
      let away (p : Pos) := s.mo.stands ≠ some p ∧ s.mo.count ≠ p.count
      let from_ := (s.cart.marks.filter (fun m => decide (m.firstRec < r))).getLast?
      (s.cart.eod = some e → away behindEod →
        exec (.locate tag 1 r) s = .next (toward behindEod (.locateAt .ok (some e.firstRec) none) (read 1))) ∧
      (s.cart.eod = some e → away behindEod → e.firstRec ≤ r →
        exec (.locate tag 0 r) s = .next (toward behindEod (.locateAt .endOfData (some e.firstRec) none) (read 0))) ∧
      (∀ m : Mark, s.cart.eod = some e → r < e.firstRec → from_ = some m → s.mo.count ≠ back m.pos.pass m.pos.count 3072 →
        exec (.locate tag 0 r) s =
          .next (scan m.seg { m.pos with count := back m.pos.pass m.pos.count 3072 } (some r) (read 0))) ∧
      (s.cart.eod = some e → r < e.firstRec → from_ = none → s.mo.count ≠ 18464 →
        exec (.locate tag 0 r) s = .next (scan 0 botPlace (some r) (read 0))) ∧
      (s.cart.eod = none → s.ch.tagUnreadable = true → s.mo.count ≠ 18464 →
        exec (.locate tag 0 r) s = .next (scan 0 botPlace (some r) (read 0)) ∧
        exec (.locate tag 1 r) s = .next (scan 0 botPlace none (read 1))) ∧
      (s.cart.eod = none → s.ch.tagUnreadable = false → away botPlace →
        exec (.locate tag 0 r) s = .next (toward botPlace (.locateAt .endOfData (some 0) none) (read 0)) ∧
        exec (.locate tag 1 r) s = .next (toward botPlace (.locateAt .ok (some 0) none) (read 1))))

/-- RECALIBRATE in UNPOSITIONED begins the search toward count 0 at thread speed, or first the record adoption where no record is
held; elsewhere it is refused. A lock, be it reported before the search, ends it at the next scan: the position is the servo's, and the
tape stops to be moved to BOT. No lock within the limit, or no movement under a speed, ends it FAULTED with MOTION_FAULT (R22, R56; the
speed taken at once is the model's choice, log entry 14); the limits change nothing when no search is under way (the model's choice,
log entries 3 and 28). -/
def Obligations.RecalibrateSearches : Prop :=
  ∀ (tag : Word) (x : ScanSample) (s : State), quiet s = true → s.re.brake = false →
    let c : FwCmd := { tag := tag, op := .recalibrate }
    (s.ch.transport = .unpositioned → s.mo.mode = none → s.pw.dwell = false → s.ch.recordHeld = true → s.bp.layout.isSome = true →
      s.ci.transport = Job.clear →
      exec (.recalibrate tag) s = .next (noteTarget { s.moved .active with
        ci.transport := runningNow c, rd.start := none, mo.stands := none, mo.mode := some .locate, mo.recal := true, mo.v := 26,
        mo.dest := 26, mo.dir := .reverse, mo.legs := [], mo.goal := .recalSearch, mo.stopping := false, mo.into := none })) ∧
    (s.ch.transport = .unpositioned → s.pw.dwell = false → s.ch.recordHeld = false → s.bp.layout.isSome = true →
      s.ci.transport = Job.clear →
      exec (.recalibrate tag) s = .next { s with ci.transport := runningNow c, ch.step := some (.adopt false) }) ∧
    (s.ch.transport ≠ .unpositioned → dwellSteady s = true → placeOpen .transport s = true →
      exec (.recalibrate tag) s =
        .next (posted tag .recalibrate .refusedState (transportSub s.ch.transport).code .none s)) ∧
    (s.ch.transport = .active → s.mo.recal = true → s.mo.goal = .recalSearch → s.mo.mode = some .locate → s.mo.v = 26 →
      s.ci.transport = runningNow c → cqOpen s = true → s.pw.cancelled = none → s.ci.write = Job.clear → s.ci.read = Job.clear →
      s.rd.user = none → s.he.clean ≠ .cleaning →
      let failed := fun (t : State) => t.ch.transport = .faulted ∧ t.mo.recal = false ∧ t.mo.mode = none ∧ t.re.brake = true ∧
        t.ci = { s.ci with transport := Job.clear } ∧ t.li.lastErr = .motionFault ∧
        t.cq = { s.cq with queue := s.cq.queue ++ [completionRecord c .motionFault 0 .none] } ∧ t.mem = s.mem
      (s.mo.locked = false → ∃ t, exec .recalibrateLockTimeout s = .next t ∧ failed t) ∧
      (∃ t, exec .recalibrateNoMovement s = .next t ∧ failed t)) ∧
    (s.mo.locked = true → exec .recalibrateLockTimeout s = .next s) ∧
    (s.ch.transport = .active → s.mo.recal = true → s.mo.goal = .recalSearch → s.mo.mode = some .locate → s.mo.v = 26 → s.mo.locked = true →
      s.re.scanDue = true → s.he.cleanDist = none → s.ch.step = none → s.mo.passWait = false →
      ∃ t, exec (.scanComplete x) s = .next t ∧ t.mo.pass = x.servoPass ∧ t.mo.count = x.servoCount ∧ t.mo.quality = .locked ∧
        t.mo.mode = some .ramp ∧ t.mo.stopping = true ∧ t.mo.dest = 0 ∧ t.mo.goal = .recalBot ∧
        t.mo.legs = [stopLeg .ramp, { mode := .locate, pass := some 0, target := some 20000, speed := 307 }] ∧
        t.ch.transport = .active ∧ t.ci = s.ci ∧ t.cq = s.cq ∧ t.mem = s.mem) ∧
    (s.mo.recal = false → exec .recalibrateLockTimeout s = .next s ∧ exec .recalibrateNoMovement s = .next s)

/-- Lock lost in READY leaves the position estimated and starts the reacquire; lock again within 24 counts ends it with the servo's
position; lock elsewhere, or none in time, leaves the transport UNPOSITIONED (R43, R57). Where no reacquire runs its limit changes
nothing, nor does a lock lost that was not held (the model's choice, log entries 3 and 28). -/
def Obligations.LockLostAtRest : Prop :=
  ∀ (pass count : Nat) (s : State), s.ch.transport = .ready → s.pw.settling = false → s.re.brake = false → s.ch.step = none →
    quiet s = true → noOperations s = true → s.pw.waiters = [] → s.mo.stack = [] →
    let unplaced : State := { (s.moved .unpositioned).lost with rd.aborted := false }
    (s.mo.locked = true → s.mo.quality = .locked →
      exec .lossOfLock s = .next { s with mo.locked := false, mo.quality := .estimated, mo.reacquire := true }) ∧
    (s.mo.locked = false → s.mo.quality ≠ .locked → exec .lossOfLock s = .next s) ∧
    (s.mo.reacquire = true → pass = s.mo.pass → gapOf count s.mo.count ≤ 24 →
      exec (.servoLock pass count) s = .next { s with
        mo.reacquire := false, mo.pass := pass, mo.count := count, mo.quarter := 0, mo.quality := .locked, mo.locked := true }) ∧
    (s.mo.reacquire = true → pass ≠ s.mo.pass ∨ 24 < gapOf count s.mo.count →
      exec (.servoLock pass count) s = .next (noteTarget unplaced)) ∧
    (s.mo.reacquire = true → exec .reacquireTimeout s = .next (noteTarget unplaced)) ∧
    (s.mo.reacquire = false → exec .reacquireTimeout s = .next s)

/-- METER takes 4,000 counts from the sum and counts one meter in the tally and since cleaning; below 4,000 counts it changes
nothing (R43, R161, R169; that the row acts on the sum is the model's choice, log entry 13). The cleaning run: with tension up for a
cleaning cartridge it begins: ACTIVE in CLEAN_RUN forward at thread speed, the load counted
in the record, the record held, the tally cleared, the cleaning distance 0 (R172); that the cartridge record is read as one line before
its write is log entry 8's reading. At 240,000 counts net it ramps to rest (R173; in a
recovery the stop waits for the return, the model's choice, log entry 39). At rest the cleaning has taken effect: CLEAN_OK is posted with
cause 4 and raises the attention, the meters and the escalation count are 0, every entry of the drive's history loses its after-cleaning
marker, and the rewind of the unload begins at locate speed (R168, R173, R197; the speed taken at once is the model's choice, log
entry 14). A distance not yet reached changes nothing (the model's choice, log entry 13). -/
def Obligations.MeterAndCleaningRun : Prop :=
  (∀ s : State,
    (16000 ≤ s.mo.meter → unmonitored .meter s = true → s.ch.tagUnreadable = true ∨ s.cart.cleaning = false →
      s.he.clean ≠ .ok ∨ s.he.meters + 1 < s.he.usage → s.he.meters < 4294967295 → s.he.tally.meters < 4294967295 →
      exec .meter s = .next { s with
        mo.meter := s.mo.meter - 16000, he.tally := { s.he.tally with meters := s.he.tally.meters + 1 },
        he.meters := s.he.meters + 1 }) ∧
    (16000 ≤ s.mo.meter → unmonitored .meter s = true → s.ch.tagUnreadable = false → s.cart.cleaning = true →
      s.he.tally.meters < 4294967295 →
      exec .meter s = .next { s with
        mo.meter := s.mo.meter - 16000, he.tally := { s.he.tally with meters := s.he.tally.meters + 1 } }) ∧
    (s.mo.meter < 16000 → exec .meter s = .next s)) ∧
  (∀ (d : Int) (l : Layout) (s : State), s.bp.layout = some l →
    (s.ch.transport = .loading → s.ch.step = some .tensionUp → s.re.brake = false → 16 ≤ s.re.settle → noted s = true →
      s.ch.tagUnreadable = false → s.cart.cleaning = true →
      exec .tensionSettled s = .next (noteTarget { s.moved .active with
        ch.step := none, ch.recordHeld := true, mo.mode := some .cleanRun, he.tally := Tally.clear, he.cleanDist := some 0,
        he.useCounted := false, mo.entry := 0, mo.dir := .forward, mo.v := 26, mo.dest := 26, mo.legs := [], mo.goal := .none,
        mo.stopping := false,
        bp.reqs := s.bp.reqs ++ [readOf l.cartBase 16384 .plain,
          partWrite l.cartBase (cartImage { s.cart with loads := min (s.cart.loads + 1) 65535 }) .plain] })) ∧
    (s.he.cleanDist = some d → 960000 ≤ d → s.ch.transport = .active → s.mo.mode = some .cleanRun → s.mo.mask = false →
      exec .cleaningDistanceReached s = .next (noteTarget { s with
        mo.mode := some .ramp, mo.legs := [{ mode := .ramp, pass := none, target := none, speed := 0 }], mo.goal := .cleanStop,
        mo.dest := 0, mo.stopping := true, mo.into := none, mo.stands := none, rd.start := none, mo.passWait := false,
        mo.bandTo := none, pw.dwell := false })) ∧
    (s.he.cleanDist = some d → d < 960000 → exec .cleaningDistanceReached s = .next s) ∧
    (s.he.cleanDist = none → exec .cleaningDistanceReached s = .next s) ∧
    (s.he.cleanDist = some d → s.ch.transport = .active → s.mo.stopping = true → atRest s = true → s.mo.legs = [stopLeg .ramp] →
      s.mo.goal = .cleanStop → s.mo.stack = [] → s.he.clean = .cleaning → s.cart.cleaning = true → s.re.brake = false →
      cqOpen s = true → quiet s = true →
      exec .moveArrived s = .next (noteTarget { (s.moved .unloading).unmoved with
        ch.step := some .rewind, he.clean := .ok, he.meters := 0, he.escCount := 0,
        he.history := s.he.history.map (fun e => { e with after := false }),
        cq.queue := s.cq.queue ++ [noticeRecord .cleanStateChanged ([3, 0, 4] ++ leBytes 4 s.he.meters ++ [255, 255])],
        li.attnClean := true, li.attn := if s.li.attn = .none then .pulseDue else s.li.attn,
        li.pulses := if s.li.attn = .none then 0 else s.li.pulses,
        mo.v := 307, mo.dest := 307, mo.dir := .reverse, mo.goal := .rewind, mo.stands := none, rd.start := none })))

/-- A recovery is entered, nested and left. Lock lost in the move of a LOCATE: the context is pushed and written with its marker set, the
entry counted, the cause's event sent, the mask set, the plan under way kept, and the procedure's stop begins; the fifth entry fails
(R57 to R59, R65). In a write stream REEL_STALL, the FRAME_SLIP of a frame that starts late and the END_APPROACH of a position beyond the
region end enter likewise: the context holds the last frame end, and the frames that await their results are handed over to be rewritten
(R57 to R59, R119). A cause that outranks the one under way nests: its context is pushed behind the first, with the pending set, and
its own procedure begins (R61). At rest TENSION_EXCURSION's procedure goes on to its retension at HOLD; tension settled, the tape
is brought to the standing point of the resume point (R60, R62, R63); REEL_STALL's goes on to its retension at PARK, and END_APPROACH's and
FRAME_SLIP's straight to that point (R60). The context read back, with nothing pending, the stack is empty, its
marker is written clear, the mask is cleared and the plan that was under way goes on (R59, R62, R63); END_APPROACH in a write returns with a
turn on a pass below 47, which makes a skip of what is on tape, and on pass 47 ends the session with END_OF_TAPE in READY (R64). That a pop
reads memory and resumes at the grant is the model's choice, log entry 19. -/
def Obligations.RecoveryEntered : Prop :=
  (∀ (l : Layout) (x : Context) (legs : List Leg) (g : Goal) (s : State), s.bp.layout = some l → s.ch.transport = .active →
    s.mo.recal = false → s.he.cleanDist = none → quiet s = true →
    let begun (y : State) : State := noteTarget { y with
      mo.mode := some .recovery, mo.legs := [{ mode := .recovery, pass := none, target := none, speed := 0 }], mo.goal := .recStop,
      mo.wait := .stop, mo.mask := true, mo.dest := 0, mo.stopping := true, mo.into := none, mo.recT := 2048, mo.stands := none,
      rd.start := none, mo.passWait := false, mo.bandTo := none, pw.dwell := false }
    let unlocked : State := { s with mo.locked := false, mo.quality := .estimated }
    let inMove := s.mo.locked = true ∧ s.mo.quality = .locked ∧ s.mo.mask = false ∧ s.mo.stack = [] ∧ s.mo.pend = [] ∧
      s.mo.wait = .none ∧ s.mo.mode = some .locate ∧ s.mo.legs = legs ∧ legs ≠ [] ∧ s.mo.goal = g ∧ s.rd.scan = none ∧ s.wr.verifyQ = [] ∧
      s.mo.passWait = false
    let moved : Context := {
      cause := .servoLoss, op := .locate, pos := { pass := s.mo.pass, count := s.mo.count }, dir := s.mo.dir, band := s.mo.band,
      slot := none, frame := none, pending := [], phase := .move }
    (inMove → s.mo.entry < 4 → unmonitored .servoLoss s = true →
      exec .lossOfLock s = .next (begun { unlocked with
        mo.stack := [moved], mo.entry := s.mo.entry + 1, mo.savedLegs := legs, mo.savedGoal := g,
        he.tally := tallyEvent .servoLoss s.he.tally,
        bp.reqs := s.bp.reqs ++ [partWrite l.ctxBase (contextBytes moved) .plain] })) ∧
    (inMove → s.mo.entry = 4 → atRest s = false →
      exec .lossOfLock s = .next { begun unlocked with
        mo.pend := [.servoLoss], mo.goal := .failStop false, mo.wait := .failing }) ∧
    (s.re.excDue = true → s.mo.mask = true → s.mo.wait ≠ .failing → s.mo.stack = [x] → x.cause = .servoLoss → s.mo.entry < 4 →
      unmonitored .tensionExcursion s = true →
      exec .tensionExcursion s = .next (begun { s with
        re.excDue := false, mo.entry := s.mo.entry + 1,
        mo.stack := [x, { x with cause := .tensionExcursion, pending := s.mo.pend }],
        bp.reqs := s.bp.reqs ++
          [partWrite (l.ctxBase + 64) (contextBytes { x with cause := .tensionExcursion, pending := s.mo.pend }) .plain] })) ∧
    (s.mo.stopping = true → atRest s = true → s.mo.mode = some .recovery → s.mo.legs = [stopLeg .recovery] → s.mo.goal = .recStop →
      s.mo.stack = [x] → x.cause = .tensionExcursion →
      exec .moveArrived s = .next (noteTarget { s with
        mo.stopping := false, mo.legs := [], mo.goal := .none, mo.recT := 1600, mo.wait := .retension })) ∧
    (16 ≤ s.re.settle → s.mo.wait = .retension → s.mo.mode = some .recovery → s.mo.stack = [x] → x.op = .locate → x.phase = .scan →
      s.mo.v = 0 → stands s = true → s.mo.pass = x.pos.pass → x.pos.pass % 2 = 0 → s.mo.count < x.pos.count - 1536 → 1536 ≤ x.pos.count →
      exec .tensionSettled s = .next (noteTarget { s with
        mo.recT := 2048, mo.wait := .reposition, mo.goal := .recReturn, mo.stands := none, rd.start := none, mo.named := x.pos.pass,
        mo.legs := [{ mode := .recovery, pass := some x.pos.pass, target := some (x.pos.count - 1536), speed := 102 }],
        mo.dest := 102, mo.dir := .forward, mo.stopping := false, mo.into := none, mo.passWait := false, mo.bandTo := none,
        pw.dwell := false })) ∧
    (s.mo.wait = .pop → s.mo.stack = [x] → s.mo.mask = true → s.mo.mode = some .recovery → s.mo.redirect = false →
      s.bp.reqs = [readOf l.ctxBase 64 (.contextPop 1)] → l.ctxBase % 64 = 0 → memReadBytes s.mem l.ctxBase 64 = contextBytes moved →
      s.mo.pass < 48 → s.mo.count < 65536 → s.mo.band < 8 → s.mo.pend = [] → s.mo.savedGoal = g →
      s.mo.savedLegs = [{ mode := .locate, pass := some s.mo.pass, target := some 18464, speed := 307 }] → s.mo.v = 0 →
      stands s = true → 24000 < s.mo.count →
      ∃ t, exec .memoryPortGrant s = .next t ∧ t.mo.stack = [] ∧ t.mo.mask = false ∧ t.mo.wait = .none ∧ t.mo.goal = g ∧
        t.mo.legs = s.mo.savedLegs ∧ t.mo.mode = some .ramp ∧ t.mo.into = some .locate ∧ t.mo.dest = 307 ∧ t.mo.dir = .reverse ∧
        t.ch = { s.ch with activity := t.ch.activity, activityAt := (.active, some .ramp) } ∧
        t.bp.reqs = [partWrite l.ctxBase [0] .plain] ∧ t.mem = s.mem)) ∧
  (∀ (l : Layout) (v : VerifyEntry) (k i : Nat) (y : ScanSample) (s : State), s.bp.layout = some l → s.ch.transport = .active →
    s.mo.mode = some .writeStream → s.ri.session = .opened → s.mo.recal = false → s.he.cleanDist = none → calm s = true →
    s.mo.mask = false → s.mo.stack = [] → s.mo.pend = [] → s.mo.wait = .none → s.mo.entry < 4 → s.wr.abandon = none →
    s.mo.passWait = false → s.mo.goal = .none →
    let entered (c : Cause) (extra : List Req) (t : State) : Prop :=
      t.mo.mode = some .recovery ∧ t.mo.mask = true ∧ t.mo.wait = .stop ∧ t.mo.goal = .recStop ∧ t.mo.dest = 0 ∧ t.mo.stopping = true ∧
      t.mo.entry = s.mo.entry + 1 ∧ t.mo.pend = [] ∧ t.wr.verifyQ = [] ∧ t.wr.tx = none ∧ t.wr.discard = true ∧ t.wr.heldF0 = none ∧
      t.wr.turnWait = false ∧ t.ri = s.ri ∧ t.cq = s.cq ∧ t.ci = s.ci ∧ t.mem = s.mem ∧
      ∃ x : Context, t.mo.stack = [x] ∧ x.cause = c ∧ x.op = .write ∧ x.phase = .stream ∧ x.dir = passDir s.mo.pass ∧
        x.pos = { pass := s.mo.pass, count := s.mo.lastEnd.count } ∧ x.band = s.mo.band ∧ x.pending = [] ∧ x.slot.isSome = x.frame.isSome ∧
        t.bp.reqs = s.bp.reqs ++ extra ++ [partWrite l.ctxBase (contextBytes x) .plain]
    let mayAgain (n : Nat) (k i : Nat) := (frameAt s k i).count + n < 4 ∧ (slotAt s k).rewrites < 8
    (s.re.stallDue = true → s.wr.verifyQ = [v] → v.isVoid = false → (slotAt s v.slot).st = .onTape → mayAgain 0 v.slot v.idx →
      s.wr.rewriteQ.length < 16 → unmonitored .reelStall s = true →
      ∃ t, exec .reelStall s = .next t ∧ entered .reelStall [] t ∧ t.wr.rewriteQ = s.wr.rewriteQ ++ [(v.slot, v.idx)] ∧
        t.sm = { s.sm with slots := s.sm.slots.set v.slot { slotAt s v.slot with
          frames := (slotAt s v.slot).frames.set v.idx { frameAt s v.slot v.idx with st := .rewriteQueued },
          rewrites := (slotAt s v.slot).rewrites + 1 } }) ∧
    (slotDue s = true → s.wr.pendingEnd = .none → s.wr.countBusy = false → s.wr.verifyQ = [] → s.wr.heldF0 = none →
      s.wr.rewriteQ = [(k, i)] → i ≠ 0 → (slotAt s k).st = .onTape → 24 < gapOf s.mo.count s.mo.planned → mayAgain 1 k i →
      unmonitored .frameWritten s = true → (s.he.tallyOpen = true → (min (s.he.tally.frames + 1) 4294967295) % 4096 ≠ 0) →
      ∃ t, exec .frameSlot s = .next t ∧
        entered .frameSlip
          [{ cls := .tape, isWrite := false, addr := slotBase s k + i * 32768, len := 32768, data := [], got := [], what := .txFrame }] t ∧
        t.wr.rewriteQ = [(k, i)] ∧ t.mo.planned = ahead s.mo.pass s.mo.planned 48 ∧
        t.he.tally.frames = min (s.he.tally.frames + 1) 4294967295) ∧
    (s.re.scanDue = true → s.re.brake = false → s.ch.tape = true → s.ch.step = none → s.mo.quality = .locked → s.mo.legs = [] →
      s.wr.verifyQ = [] → s.mo.warned = true → y.servoPass = s.mo.pass → passed s.mo.pass y.servoCount (regionEnd s.mo.pass) = true →
      ∃ t, exec (.scanComplete y) s = .next t ∧ entered .endApproach [] t ∧ t.mo.count = y.servoCount ∧ t.sm = s.sm ∧
        t.wr.rewriteQ = s.wr.rewriteQ)) ∧
  (∀ (x : Context) (s : State), s.ch.transport = .active → s.mo.recal = false → calm s = true → s.mo.stopping = true → atRest s = true →
    s.mo.mode = some .recovery → s.mo.legs = [stopLeg .recovery] → s.mo.goal = .recStop → s.mo.stack = [x] →
    let p := standing { x.pos with count := ahead x.pos.pass x.pos.count 48 }
    (x.cause = .reelStall →
      exec .moveArrived s = .next (noteTarget { s with
        mo.stopping := false, mo.legs := [], mo.goal := .none, mo.recT := 900, mo.wait := .retension })) ∧
    (x.cause = .endApproach ∨ x.cause = .frameSlip → x.op = .write → s.mo.skipResume = false → s.mo.pass = x.pos.pass →
      p.count < s.mo.count →
      exec .moveArrived s = .next (noteTarget { s with
        mo.wait := .reposition, mo.goal := .recReturn, mo.stands := none, rd.start := none, mo.named := x.pos.pass,
        mo.legs := [{ mode := .recovery, pass := some x.pos.pass, target := some p.count, speed := 102 }], mo.dest := 102,
        mo.dir := .reverse, mo.stopping := false, mo.into := none, mo.passWait := false, mo.bandTo := none, pw.dwell := false }))) ∧
  (∀ (l : Layout) (x : Context) (k : Nat) (s : State), s.bp.layout = some l → s.ch.transport = .active → s.mo.recal = false →
    calm s = true → s.mo.wait = .pop → s.mo.stack.length = 1 → s.mo.mask = true → s.mo.mode = some .recovery → s.mo.redirect = false →
    s.mo.pend = [] → s.bp.reqs = [readOf l.ctxBase 64 (.contextPop 1)] → l.ctxBase % 64 = 0 →
    contextOf s.sm.slots.length (memReadBytes s.mem l.ctxBase 64) = some x → x.cause = .endApproach → x.op = .write →
    s.ri.session = .opened → s.ri.filling = none →
    let returned (t : State) : Prop := t.mo.stack = [] ∧ t.mo.mask = false ∧ t.mo.wait = .none ∧ t.mem = s.mem ∧ t.ci = s.ci
    let turns (t : State) : Prop :=
      returned t ∧ t.mo.mode = some .turn ∧ t.mo.goal = .turnWrite ∧ t.ch.transport = .active ∧ t.ri.session = .opened ∧ t.cq = s.cq ∧
      t.mo.legs = [{ mode := .turn, pass := none, target := some (standing { pass := s.mo.pass + 1, count := regionStart (s.mo.pass + 1) }).count,
                     speed := bandSpeed s.mo.band }] ∧
      t.bp.reqs = [partWrite l.ctxBase [0] .plain]
    (s.mo.pass < 47 → slotsIn isOnTape s = [] → ∃ t, exec .memoryPortGrant s = .next t ∧ turns t ∧ t.sm = s.sm) ∧
    (s.mo.pass < 47 → slotsIn isOnTape s = [k] → (slotAt s k).st = .onTape → (slotAt s k).placement = 1 → s.wr.verifyQ = [] →
      unmonitored .segmentSkip s = true →
      ∃ t, exec .memoryPortGrant s = .next t ∧ turns t ∧
        t.sm = { s.sm with slots := s.sm.slots.set k { freshSlot .onTape (slotAt s k).seg with placement := 2 } } ∧
        t.wr.rewriteQ = s.wr.rewriteQ.filter (fun q => decide (q.1 ≠ k)) ∧
        t.he.tally.skips = min (s.he.tally.skips + 1) 4294967295) ∧
    (s.mo.pass = 47 → slotsIn isOnTape s = [k] → (slotAt s k).st = .onTape → cqOpen s = true →
      ∃ t, exec .memoryPortGrant s = .next t ∧ returned t ∧ t.ch.transport = .ready ∧ t.mo.mode = none ∧ t.ri.session = .error ∧
        t.ri.err = some .endOfTape ∧ t.wr.eot = true ∧ t.wr.rewriteQ = [] ∧ t.wr.verifyQ = [] ∧
        t.sm = { s.sm with slots := s.sm.slots.set k (freshSlot .sealed (slotAt s k).seg) } ∧
        t.cq = { s.cq with queue := s.cq.queue ++ [noticeRecord .sessionError ([11] ++ leBytes 4 s.ri.lastComplete)] }))

/-- The limits of a recovery. A retension that does not settle, and the stop of a failed recovery that is not at rest in time, end
FAULTED; a SERVO_LOSS recovery that finds no lock ends UNPOSITIONED when no reel stall is involved, FAULTED otherwise: the stack and
the pending set are emptied, the mask is cleared, the position is unknown; the LOCATE or READ_RECORDS that the recovery held completes
MOTION_FAULT, and an open write session goes to ERROR with that status (R60, R65). With the tape moving the failure first stops it. The
limits change nothing when the recovery does not wait for what they limit (the model's choice, log entries 3 and 28). -/
def Obligations.RecoveryLimits : Prop :=
  ∀ (tag : Word) (g r n : Nat) (s : State), s.ch.transport = .active → s.mo.mode = some .recovery → s.mo.mask = true →
    let c : FwCmd := { tag := tag, op := .locate g r }
    let ended (t : State) : Prop :=
      t.mo.stack = [] ∧ t.mo.mask = false ∧ t.mo.pend = [] ∧ t.mo.wait = .none ∧ (s.wr.close = false → t.mo.lp = none) ∧ t.mo.quality = .unknown ∧ t.mo.mode = none ∧
      t.mem = s.mem ∧ (s.ri.session = .opened → s.wr.close = false → t.ri.session = .error ∧ t.ri.err = some .motionFault) ∧
      (s.ci.transport = runningNow c → cqOpen s = true → s.he.clean ≠ .cleaning → s.cq.queue.length < 8 →
        t.ci.transport = Job.clear ∧ completionRecord c .motionFault 0 (.position [] none) ∈ t.cq.queue) ∧
      (s.ci.read = runningNow { tag := tag, op := .readRecords n } → s.rd.user = some .records → t.rd.user = none ∧ t.rd.state = .idle)
    (s.mo.wait = .retension → s.re.settle < 16 → atRest s = true →
      ∃ t, exec .retensionTimeout s = .next t ∧ t.ch.transport = .faulted ∧ t.re.brake = true ∧ ended t) ∧
    (s.mo.wait = .retension → s.re.settle < 16 → atRest s = false → quiet s = true →
      exec .retensionTimeout s = .next (noteTarget { s with
        mo.legs := [{ mode := .recovery, pass := none, target := none, speed := 0 }], mo.goal := .failStop true, mo.wait := .failing,
        mo.dest := 0, mo.stopping := true, mo.into := none, mo.recT := 2048, mo.stands := none, rd.start := none, mo.passWait := false,
        mo.bandTo := none, pw.dwell := false })) ∧
    (s.mo.wait = .forwardMove → atRest s = true → s.mo.stack.all (fun x => decide (x.cause ≠ .reelStall)) = true →
      ∃ t, exec .recoveryLockTimeout s = .next t ∧ t.ch.transport = .unpositioned ∧ ended t) ∧
    (s.mo.wait = .forwardMove → atRest s = true → s.mo.stack.any (fun x => decide (x.cause = .reelStall)) = true →
      ∃ t, exec .recoveryLockTimeout s = .next t ∧ t.ch.transport = .faulted ∧ t.re.brake = true ∧ ended t) ∧
    (s.mo.wait = .failing → atRest s = false →
      ∃ t, exec .stopTimeout s = .next t ∧ t.ch.transport = .faulted ∧ t.re.brake = true ∧ ended t) ∧
    (s.mo.wait ≠ .retension → exec .retensionTimeout s = .next s) ∧
    (s.mo.wait ≠ .forwardMove → exec .recoveryLockTimeout s = .next s) ∧
    (s.mo.wait ≠ .failing → exec .stopTimeout s = .next s)

/-- A ramp that has reached its speed gives way to the mode it leads into; a move that has come to rest at its point ends: a plain stop
in READY with the dwell armed, a LOCATE with its completion, a rewind in TENSION_DOWN (R18, R39, R44 to R46). That the ramp of a trailer
scan brings STREAMING as that of a read does is the model's choice where R142 and R152 differ, log entry 42. A ramp or a move still
under way changes nothing (the model's choice, log entries 14 and 28). -/
def Obligations.RampsAndMovesEnd : Prop :=
  ∀ (m : MotionMode) (tag : Word) (g r : Nat) (st : Status) (lp : Option Nat) (sp : Option StartPoint) (leg : Leg) (p : Nat) (s : State),
    quiet s = true → s.re.brake = false → s.ch.step ≠ some .backTension →
    let rest : State := { (s.moved .ready).unmoved with pw.dwell := true }
    (s.ch.transport = .active → s.mo.mode = some .ramp ∨ s.mo.mode = some .turn → s.mo.into = some m → m ≠ .readStream →
      s.mo.v = s.mo.dest → exec .rampComplete s = .next (noteTarget { s with mo.mode := some m, mo.into := none })) ∧
    (s.ch.transport = .active → s.mo.mode = some .ramp ∨ s.mo.mode = some .turn → s.mo.into = some .readStream →
      s.mo.v = s.mo.dest →
      exec .rampComplete s = .next (noteTarget { s with mo.mode := some .readStream, mo.into := none, rd.state := .streaming })) ∧
    (s.mo.v ≠ s.mo.dest ∨ s.mo.into = none → exec .rampComplete s = .next s) ∧
    (s.mo.stopping = false ∨ atRest s = false → exec .moveArrived s = .next s) ∧
    (s.ch.transport = .active → s.mo.stopping = true → atRest s = true → s.mo.legs = [stopLeg .ramp] → s.mo.goal = .toReady →
      s.mo.stack = [] → s.ci.read = Job.clear →
      exec .moveArrived s = .next (noteTarget { rest with wr.pendingEnd := .none })) ∧
    (s.ch.transport = .active → s.mo.stopping = true → atRest s = true → s.mo.legs = [leg] → leg.target = some p →
      s.mo.goal = .locateAt st lp sp → s.mo.stack = [] → s.ci.transport = runningNow { tag := tag, op := .locate g r } →
      cqOpen s = true → s.pw.cancelled = none ∨ s.pw.cancelled = some .transport →
      exec .moveArrived s = .next (noteTarget (posted tag (.locate g r) st 0 (.position [] lp)
        { rest with mo.stands := some { pass := s.mo.pass, count := p }, mo.lp := lp, rd.start := sp, ci.transport := Job.clear,
                    pw.cancelled := none }))) ∧
    (s.ch.transport = .unloading → s.ch.step = some .rewind → s.mo.stopping = true → atRest s = true → s.mo.legs = [leg] →
      leg.target = some p → s.mo.goal = .rewind →
      exec .moveArrived s = .next { s with
        ch.step := some .tensionDown, re.brake := true, re.downK := 0, re.downDt := s.re.tak.fall - s.re.tak.rise,
        re.downDs := s.re.sup.fall - s.re.sup.rise, re.limSup := 0, re.limTak := 0, re.exc := 0, re.stall := 0, re.excDue := false,
        re.stallDue := false, mo.stands := some { pass := s.mo.pass, count := p }, mo.stopping := false, mo.legs := [],
        mo.goal := .none, mo.recal := false, mo.v := 0 })

/-! ### Chapter 4: the buffer path -/

/-- A front-port access that no block watches is forwarded with its byte enables and acknowledged to its master, whatever its row;
behind a held write a write waits in order; nothing else changes (R68, R69; the shape of a request, and that the rows share one
recogniser, is the model's reading, log entry 5). A write that enables a byte of the binding word is forwarded and starts a binding,
whose anchor read is issued after it; while a binding is in progress it sets the rebind request instead (R70). -/
def Obligations.FrontPortForwards : Prop :=
  (∀ (m : Master) (a n : Nat) (bs : List (Option Byte)) (s : State),
    let w : FrontWrite := { master := m, addr := a, data := bs }
    let writes : List Instr :=
      [.frontPortWrite m a bs, .bindingWordWrite m a bs, .stagingWrite m a bs, .sequenceWordWrite m a bs, .consumerWordWrite m a bs]
    let read : Req := { cls := .front, isWrite := false, addr := a, len := n, data := [], got := [], what := .frontRead m }
    (requestWf a bs.length = true → s.bp.held = none → unwatchedWrite w s = true → calm s = true → ∀ c ∈ writes,
      exec c s = .next { s with bp.acks := s.bp.acks.add m, bp.reqs := s.bp.reqs ++ [writeOf a bs] }) ∧
    (requestWf a bs.length = true → s.bp.held.isSome = true → ∀ c ∈ writes,
      exec c s = .next { s with bp.behind := s.bp.behind ++ [w] }) ∧
    (requestWf a n = true → unwatchedRead a s = true → ∀ c ∈ [Instr.frontPortRead m a n, Instr.deliveryTailRead m a n],
      exec c s = .next { s with bp.reqs := s.bp.reqs ++ [read] })) ∧
  (∀ (m : Master) (a i : Nat) (bs : List (Option Byte)) (s : State), requestWf a bs.length = true →
    i < 8 → ({ master := m, addr := a, data := bs } : FrontWrite).enables (248 + i) = true →
    s.bp.held = none → s.bp.watch = false → calm s = true →
    (s.bp.binding = false →
      exec (.bindingWordWrite m a bs) s =
        .next { s with bp.acks := s.bp.acks.add m, bp.reqs := s.bp.reqs ++ [writeOf a bs, readOf 0 256 .anchor], bp.binding := true,
                       bp.anchor := none }) ∧
    (s.bp.binding = true →
      exec (.bindingWordWrite m a bs) s =
        .next { s with bp.acks := s.bp.acks.add m, bp.reqs := s.bp.reqs ++ [writeOf a bs], bp.rebind := true }))

/-- The anchor block as read back is judged: integrity, regions, busy, in this order. A refused binding changes nothing but the
status word; the one that passes is adopted with the changes of R74: the markers and the reset cause are written, the persistent part of
the history area is read and taken where its check holds (R176), the slots are free, R, H and RA are clamped afresh (R139), everything
else stays. A rebind request starts a new binding at the end (R70 to R74). What becomes of transfers issued before the adoption is
the model's reading, log entry 9. -/
def Obligations.AnchorJudged : Prop :=
  ∀ (bs : List Byte) (n : Nat) (s : State), s.bp.anchor = some bs →
    let l := layoutOf bs
    let bad := firstBadRegion (regionsOf l) 0 (regionsOf l)
    let again : List Req := if s.bp.rebind then [readOf 0 256 .anchor] else []
    let refused := fun w => exec .anchorReadReturn s =
      .next { s with bp.binding := s.bp.rebind, bp.rebind := false, bp.anchor := none,
                     bp.reqs := s.bp.reqs ++ [partWrite 240 w .plain] ++ again }
    let marks : List Req := [partWrite l.ctxBase [0] .plain, partWrite (l.ctxBase + 64) [0] .plain]
    let hist := readThrough { s with bp.reqs := s.bp.reqs ++ marks } l.histBase 512
    let before := ((s.bp.reqs.map (Req.forget .record)).map (Req.forget .slotRead)).map (Req.forget .parityRead)
    (anchorIntegrity bs = false → refused (statusWord 2 0 0)) ∧
    (anchorIntegrity bs = true → bad = some n → refused (statusWord 3 l.serial n)) ∧
    (anchorIntegrity bs = true → bad = none → s.bp.layout.isSome = true → adoptionAllowed s = false →
      refused (statusWord 4 l.serial 0)) ∧
    (anchorIntegrity bs = true → bad = none → (s.bp.layout = none ∨ adoptionAllowed s = true) →
      exec .anchorReadReturn s = .next { s with
        bp := { s.bp with
          layout := some l, binding := s.bp.rebind, rebind := false, anchor := none, watch := false, release := 0, rl := 0, spans := [],
          pieces := [], wpos := 0, occupied := 0,
          reqs := before ++ marks ++ [readOf l.histBase 512 .plain, partWrite 224 (resetCause s) .plain,
            partWrite 240 (statusWord 1 l.serial 0) .plain] ++ again },
        ci := { s.ci with index := 0, expected := 1, state := .waiting, returned := none },
        cq := { s.cq with p := 0, c := 0, lap := true, writing := false, service := false },
        re := { s.re with entSup := 0, entTak := 0 },
        sm := { slots := List.replicate l.s (freshSlot .free 0), free := List.range l.s, parity := [], parityGot := none, orphans := [] },
        sp := { s.sp with policy := { s.sp.policy with
          restart := max 1 (min s.sp.policy.restart (l.s - 2)), highMark := max 2 (min s.sp.policy.highMark (l.s - 1)),
          readAhead := max 2 (min s.sp.policy.readAhead l.s) } },
        he := if wordSum hist = 0 then
            { s.he with history := (List.range (min (field hist 2 1) 8)).map (driveEntryOf hist), clean := cleanStateOf (field hist 0 1),
                        meters := field hist 4 4, escCount := min (field hist 1 1) 50 }
          else { s.he with history := [], clean := .ok, meters := 0, escCount := 0 } })

/-- A staging write under the active watch: held where it reaches retained bytes, recorded as a span where it lies ahead of the
frontier, and an advance of the frontier where it begins there, which absorbs the spans it reaches; header and chunk bytes that arrive at
the cursor are taken in flight (R76, R77, R90). A held write is judged again when bytes are released: it advances the frontier where it now
fits there, and stays held otherwise (R78). That a write counts whole in the watch, and that bytes it does not enable are taken in flight as
memory holds them, is the model's reading, log entry 5. -/
def Obligations.StagingWriteJudged : Prop :=
  (∀ (m : Master) (a : Nat) (bs : List (Option Byte)) (c : RecordInProgress) (l : Layout) (s : State),
    requestWf a bs.length = true → s.bp.layout = some l →
    s.bp.watch = true → s.bp.held = none → insideRegion l.stBase l.z a = true → calm s = true →
    let d := ringDist l.z (frontier s) (a - l.stBase)
    let n := bs.length
    let runs := s.bp.spans.map (spanFrom l.z (frontier s))
    let touches := runs.any (fun r => decide (r.1 ≤ d + n) && decide (d ≤ r.2))
    let sent : State := { s with bp.acks := s.bp.acks.add m, bp.reqs := s.bp.reqs ++ [writeOf a bs] }
    let inFlight := (List.range n).map (fun i => (bs.getD i none).getD (throughByte s.mem s.bp.reqs (a + i)))
    let atCursor := d + n ≤ l.z - s.bp.rl ∧ d = 0 ∧ s.bp.spans = [] ∧ s.bp.release < l.z ∧ s.bp.rl + n < l.z ∧ s.ri.cursor = frontier s
    (l.z - s.bp.rl < d + n ∨ (d ≠ 0 ∧ touches = false ∧ 8 ≤ s.bp.spans.length) →
      exec (.stagingWrite m a bs) s = .next { s with bp.held := some { master := m, addr := a, data := bs } }) ∧
    (d + n ≤ l.z - s.bp.rl → d ≠ 0 → (touches = true ∨ s.bp.spans.length < 8) →
      exec (.stagingWrite m a bs) s =
        .next { sent with bp.spans := toSpans l.z (frontier s) (mergeRun d (d + n) runs) }) ∧
    (d + n ≤ l.z - s.bp.rl → d = 0 → takesBytes s = false →
      let reached := absorb n runs
      exec (.stagingWrite m a bs) s =
        .next { sent with bp.rl := min l.z (s.bp.rl + reached.1), bp.spans := toSpans l.z (frontier s) reached.2 }) ∧
    (atCursor → s.ri.st = .header → s.ri.padOwed = 0 → s.ri.hdr.length + n < 16 →
      exec (.stagingWrite m a bs) s =
        .next { sent with bp.rl := s.bp.rl + n, ri.cursor := (s.ri.cursor + n) % l.z, ri.hdr := s.ri.hdr ++ inFlight }) ∧
    (atCursor → s.ri.st = .data → s.ri.cur = some c → s.ri.raw.length + n < min 16384 (c.len - c.placed) →
      exec (.stagingWrite m a bs) s =
        .next { sent with bp.rl := s.bp.rl + n, ri.cursor := (s.ri.cursor + n) % l.z, ri.raw := s.ri.raw ++ inFlight })) ∧
  (∀ (w : FrontWrite) (k : Nat) (free : List Nat) (l : Layout) (s : State), s.bp.layout = some l → s.bp.watch = true →
    s.bp.held = some w → s.bp.behind = [] → insideRegion l.stBase l.z w.addr = true → steady s = true → s.wr.flush = none →
    s.wr.close = false → s.ch.transport ≠ .parked → ¬(s.ch.transport = .active ∧ s.mo.mode = some .waitData) →
    s.ri.session = .opened → s.ri.st = .placing → s.ri.item = some .filemark → s.ri.filling = none → s.ri.fetch ≠ none →
    s.sm.free = k :: free → s.sm.slots.all (fun x => decide (x.st ≠ .filling)) = true → s.bp.release < l.z → s.bp.rl ≤ l.z →
    16 < s.bp.rl → ringDist l.z s.bp.release s.ri.cursor = 16 →
    let d := ringDist l.z (frontier s) (w.addr - l.stBase)
    let n := w.data.length
    let entry := partWrite (slotBase s k + 917424) (entryBytes s.ri.nextRec true true true s.ri.resetOwed false 0 0) .plain
    let placed : State := { s with
      sm.free := free, sm.slots := s.sm.slots.set k (freshSlot .filling s.ri.nextSeg), ri.filling := some k, ri.u := 0, ri.e := 1,
      ri.frag := none, ri.nextSeg := inc32 s.ri.nextSeg, ri.history := [], ri.item := none, ri.hdr := [], ri.resetOwed := false,
      ri.lastComplete := s.ri.nextRec, ri.nextRec := inc32 s.ri.nextRec, ri.st := .header,
      bp.release := (s.bp.release + 16) % l.z, bp.rl := s.bp.rl - 16, bp.reqs := s.bp.reqs ++ [entry] }
    let reached := absorb n (s.bp.spans.map (spanFrom l.z (frontier s)))
    (l.z - (s.bp.rl - 16) < d + n → exec .slotExhaustionEnd s = .next placed) ∧
    (d = 0 → n ≤ l.z - (s.bp.rl - 16) →
      exec .slotExhaustionEnd s = .next { placed with
        bp.held := none, bp.acks := s.bp.acks.add w.master, bp.reqs := s.bp.reqs ++ [entry, writeOf w.addr w.data],
        bp.rl := min l.z (s.bp.rl - 16 + reached.1), bp.spans := toSpans l.z (frontier s) reached.2 }))

/-- The runs ahead of the frontier stay ordered, apart and in full: merging a run into runs of which no two touch leaves such a
list, and a distance lies in a run of the result exactly when it lies in the new run or in an old one (R77). An advance of the frontier
absorbs the runs it reaches: those left begin beyond the advance, and a distance is written, behind the frontier or in a run, exactly when
it was (R76). -/
def Obligations.SpansStayApart : Prop :=
  ∀ (a b adv : Nat) (runs : List (Nat × Nat)), a < b →
    List.Pairwise (fun p q => p.2 < q.1) runs → (∀ r ∈ runs, r.1 < r.2) →
    List.Pairwise (fun p q => p.2 < q.1) (mergeRun a b runs) ∧ (∀ r ∈ mergeRun a b runs, r.1 < r.2) ∧
    (∀ x, (∃ r ∈ mergeRun a b runs, r.1 ≤ x ∧ x < r.2) ↔ (a ≤ x ∧ x < b) ∨ ∃ r ∈ runs, r.1 ≤ x ∧ x < r.2) ∧
    (∀ r ∈ (absorb adv runs).2, (absorb adv runs).1 < r.1) ∧
    ∀ x, (x < (absorb adv runs).1 ∨ ∃ r ∈ (absorb adv runs).2, r.1 ≤ x ∧ x < r.2) ↔ x < adv ∨ ∃ r ∈ runs, r.1 ≤ x ∧ x < r.2

/-- At its expiry the hold timer forwards the held write as it stands, and intake stops with OVERRUN: the session is in ERROR, the
watch ends at the frontier, SESSION_ERROR is posted (R78, R105). -/
def Obligations.HoldExpiryStops : Prop :=
  ∀ (w : FrontWrite) (s : State), s.bp.held = some w → w.data ≠ [] → s.bp.behind = [] → s.ri.cur = none → s.ri.filling = none →
    s.wr.flush = none → s.wr.close = false → cqOpen s = true → s.ch.transport ≠ .parked → s.bp.watch = true → steady s = true →
    ¬(s.ch.transport = .active ∧ s.mo.mode = some .waitData) →
    exec .holdTimerExpiry s = .next
      { s.watchEnded.intakeStopped with
        bp.held := none, bp.acks := s.bp.acks.add w.master,
        bp.reqs := s.bp.reqs.map (Req.forget .chunkFetch) ++ [writeOf w.addr w.data],
        ri.session := .error, ri.err := some .overrun, li.lastErr := .overrun,
        cq.queue := s.cq.queue ++ [noticeRecord .sessionError ([byteOf 4] ++ leBytes 4 s.ri.lastComplete)] }

/-- A read inside the delivery ring is forwarded, marks the WRITTEN pieces whose tail it covers, and releases the marked pieces
at the head of the list; a piece behind an unmarked one stays (R81, Law 9). -/
def Obligations.DeliveryTailReleasesPieces : Prop :=
  ∀ (m : Master) (a n : Nat) (l : Layout) (s : State), requestWf a n = true → s.bp.layout = some l →
    insideRegion l.dlBase l.zd a = true →
    let off := a - l.dlBase
    let marked := s.bp.pieces.map (fun p =>
      if p.state = .written ∧ off ≤ (p.start + p.len - 1) % l.zd ∧ (p.start + p.len - 1) % l.zd < off + n then { p with state := .marked }
      else p)
    exec (.deliveryTailRead m a n) s = .next
      { s with
        bp.reqs := s.bp.reqs ++ [{ cls := .front, isWrite := false, addr := a, len := n, data := [], got := [], what := .frontRead m }],
        bp.pieces := marked.dropWhile (fun p => decide (p.state = .marked)),
        bp.occupied := s.bp.occupied - ((marked.takeWhile (fun p => decide (p.state = .marked))).map Piece.len).sum }

/-- The transfer chosen is the oldest of its class, no earlier transfer has its line still to move, and the classes go tape, front
port, internal, but for the internal turn at starvation count 8; something is chosen whenever anything waits. A grant moves one line of
the transfer chosen: the bytes that a write enables reach memory, the bytes of a read come back; at its last line the transfer leaves,
and a front-port read's data goes to its master. With nothing waiting nothing changes (R68, R82; that transfers stand in one list in the
order of issue is the model's reading, log entry 8). -/
def Obligations.GrantMovesChosenLine : Prop :=
  (∀ s : State,
    (∀ before r rest, chooseGrant s = some (before, r, rest) →
      s.bp.reqs = before ++ r :: rest ∧ (∀ q ∈ before, q.cls ≠ r.cls ∧ q.touches (lineOf r.addr) = false) ∧
      (r.cls = .internal → s.bp.starve = 8 ∨ (grantable .tape s.bp.reqs = none ∧ grantable .front s.bp.reqs = none)) ∧
      (r.cls ≠ .internal → s.bp.starve ≠ 8 ∨ grantable .internal s.bp.reqs = none) ∧
      (r.cls = .front → grantable .tape s.bp.reqs = none)) ∧
    (s.bp.reqs ≠ [] → (chooseGrant s).isSome = true)) ∧
  (∀ s : State, s.bp.reqs = [] → exec .memoryPortGrant s = .next s) ∧
  ∀ (before rest : List Req) (r : Req) (m : Master) (s : State), chooseGrant s = some (before, r, rest) → 0 < r.len →
    let k := min r.len (64 - r.addr % 64)
    let starve := if r.cls = .internal then 0
      else if (grantable .internal s.bp.reqs).isSome then min 8 (s.bp.starve + 1) else s.bp.starve
    (k < r.len → r.isWrite = true →
      exec .memoryPortGrant s = .next
        { s with mem := memWriteBytes s.mem r.addr (r.data.take k), bp.starve := starve,
                 bp.reqs := before ++ { r with addr := r.addr + k, len := r.len - k, data := r.data.drop k } :: rest }) ∧
    (k < r.len → r.isWrite = false →
      exec .memoryPortGrant s = .next
        { s with bp.starve := starve,
                 bp.reqs := before ++ { r with addr := r.addr + k, len := r.len - k, got := r.got ++ memReadBytes s.mem r.addr k } :: rest }) ∧
    (k = r.len → r.isWrite = true → r.what = .plain →
      exec .memoryPortGrant s = .next
        { s with mem := memWriteBytes s.mem r.addr (r.data.take k), bp.starve := starve, bp.reqs := before ++ rest }) ∧
    (k = r.len → r.isWrite = false → r.what = .frontRead m →
      exec .memoryPortGrant s = .next
        { s with bp.starve := starve, bp.reqs := before ++ rest,
                 bp.lastRead := some { master := m, data := r.got ++ memReadBytes s.mem r.addr k } })

/-! ### Chapter 6: writing to tape -/

/-- A frame slot is taken: a frame 0 held for its planned start goes first, else a rewrite, then an UNWRITTEN frame, then the frame 0 of
a SEALED segment. A frame 0 fixes its band and place: with a band change it is held behind the ramp gap; on a pass without room for
its segment it waits for the turn. The slot passes blank while the verify queue is full or the session count is being written; with
nothing to send the tape runs out, and with nothing to verify it makes the backhitch (R50 to R53, R86, R112 to R114, R121, R136). With
CLEAN_REQUIRED the first slot of a stream at a band above 0 is left blank, and the start is fixed from the next one (R136). On pass 47
without room the session meets END_OF_TAPE, and an UNWRITTEN frame 0 met after it sends its segment back to SEALED (R113, R127). A
transmission ends 48 counts on, and a skip owed is made there, of the following segment too, whose second placement starts no nearer than
3,072 counts (R114, R116, R117). A slot or a transmission that is not due changes nothing, and how the frames of the ramp gap are served, and
which slots pass blank at END_OF_TAPE and behind a skip, is the model's choice too (log entries 15, 28 and 43). -/
def Obligations.FrameSlotTaken : Prop :=
  (∀ s : State, slotDue s = false → exec .frameSlot s = .next s) ∧
  (∀ s : State, s.wr.tx = none → calm s = true → exec .frameTransmissionComplete s = .next s) ∧
  (∀ (k i : Nat) (rest : List (Nat × Nat)) (s : State), calm s = true → unmonitored .frameWritten s = true →
    (s.he.tallyOpen = true → (min (s.he.tally.frames + 1) 4294967295) % 4096 ≠ 0) → gapOf s.mo.count s.mo.planned ≤ 24 →
    slotDue s = true → s.wr.pendingEnd = .none → sessionOpen s = true →
    let offered := s.wr.countBusy = false ∧ s.wr.verifyQ.length < 4
    let noHeld := s.wr.turnWait = true ∨ s.wr.heldF0 = none
    let next := ahead s.mo.pass s.mo.planned 48
    let behindGap := fun c => ahead s.mo.pass c 768
    let room := fun c => 2304 ≤ roomAfter s.mo.pass c
    let begins := ((unwrittenFrame s = some (k, 0) ∧ s.wr.eot = false ∧ s.wr.turnWait = false) ∨
      (unwrittenFrame s = none ∧ sealedFrame0 s = some k ∧ (frameAt s k 0).st = .unwritten))
    let required := s.he.clean = .required ∧ s.mo.band ≠ 0 ∧ firstOfStream s = true
    let fresh := begins ∧ ¬required ∧ s.wr.skipStart = none
    let holds := s.wr.heldF0 = some k ∧ ((slotAt s k).st = .onTape ∨
      ((slotAt s k).st = .sealed ∧ (frameAt s k 0).st = .unwritten ∧ (s.sm.slots.filter (fun x => isOnTape x.st)).length < 2))
    let bandHeld := s.mo.bandTo.getD s.mo.band
    let ramp := fun c => { s with
      wr.heldF0 := some k, mo.planned := c, mo.mode := some .ramp, mo.into := some .writeStream, mo.bandTo := some s.sp.c,
      mo.dest := bandSpeed s.sp.c, mo.stopping := false }
    let nothing := s.wr.rewriteQ = [] ∧ unwrittenFrame s = none ∧ sealedFrame0 s = none
    let p : Pos := { s.mo.lastEnd with count := ahead s.mo.lastEnd.pass s.mo.lastEnd.count 48 }
    (offered → noHeld → s.wr.rewriteQ = (k, i) :: rest → (slotAt s k).st = .onTape →
      exec .frameSlot s = .next (noteTarget { s.frameSent k i with wr.rewriteQ := rest, wr.turnWait := false, wr.heldF0 := none })) ∧
    (offered → noHeld → s.wr.rewriteQ = [] → unwrittenFrame s = some (k, i) → i ≠ 0 →
      exec .frameSlot s = .next (noteTarget (s.frameSent k i))) ∧
    (offered → noHeld → s.wr.rewriteQ = [] → fresh → bandHeld = s.sp.c → room s.mo.planned →
      exec .frameSlot s = .next (noteTarget (s.frameSent k 0))) ∧
    (offered → noHeld → s.wr.rewriteQ = [] → fresh → bandHeld ≠ s.sp.c → room (behindGap s.mo.planned) →
      exec .frameSlot s = .next (noteTarget (ramp (behindGap s.mo.planned)))) ∧
    (offered → noHeld → s.wr.rewriteQ = [] → fresh → bandHeld = s.sp.c → ¬room s.mo.planned → s.mo.pass < 47 → s.wr.verifyQ ≠ [] →
      exec .frameSlot s = .next (noteTarget { s with
        wr.turnWait := true, wr.heldF0 := some k, mo.bandTo := none, mo.mode := some .runout, mo.planned := next })) ∧
    (offered → noHeld → s.wr.rewriteQ = [] → fresh → bandHeld = s.sp.c → ¬room s.mo.planned → 47 ≤ s.mo.pass → s.ri.filling = none →
      cqOpen s = true →
      exec .frameSlot s = .next { s.watchEnded.intakeStopped with
        ri.session := .error, ri.err := some .endOfTape, wr.eot := true, wr.turnWait := false, wr.heldF0 := none, mo.bandTo := none,
        mo.planned := next, li.lastErr := .endOfTape,
        cq.queue := s.cq.queue ++ [noticeRecord .sessionError ([11] ++ leBytes 4 s.ri.lastComplete)] }) ∧
    (offered → noHeld → s.wr.rewriteQ = [] → unwrittenFrame s = some (k, 0) → s.wr.eot = true → followingOf s k = none →
      exec .frameSlot s = .next { s with
        wr.abandon := none, wr.verifyQ := s.wr.verifyQ.map (fun v => if v.slot = k then { v with isVoid := true } else v),
        sm.slots := s.sm.slots.set k (freshSlot .sealed (slotAt s k).seg), mo.planned := next }) ∧
    (∀ p : Pos, offered → noHeld → s.wr.rewriteQ = [] → begins → ¬required → bandHeld = s.sp.c → s.wr.skipStart = some p →
      p.pass = s.mo.pass → reached p.pass s.mo.planned p.count = false → room p.count →
      exec .frameSlot s = .next { s with wr.heldF0 := some k, mo.planned := p.count }) ∧
    (offered → noHeld → s.wr.rewriteQ = [] → begins → required → s.wr.skipStart = none → s.mo.bandTo = none → s.sp.c = 0 →
      room (behindGap next) → exec .frameSlot s = .next (noteTarget (ramp (behindGap next)))) ∧
    (offered → s.wr.turnWait = false → holds → s.he.clean ≠ .required ∨ bandHeld = 0 → room s.mo.planned →
      exec .frameSlot s = .next (noteTarget (s.frameSent k 0))) ∧
    (offered → s.wr.turnWait = false → s.wr.heldF0 = some k → s.he.clean = .required → bandHeld ≠ 0 → s.sp.c = 0 → s.wr.skipStart = none →
      room (behindGap next) → exec .frameSlot s = .next (noteTarget (ramp (behindGap next)))) ∧
    (s.wr.countBusy = true ∨ 4 ≤ s.wr.verifyQ.length → exec .frameSlot s = .next { s with mo.planned := next }) ∧
    (offered → noHeld → nothing → s.wr.verifyQ ≠ [] →
      exec .frameSlot s = .next (noteTarget { s with mo.mode := some .runout, mo.planned := next })) ∧
    (offered → s.wr.turnWait = false → s.wr.heldF0 = none → nothing → s.wr.verifyQ = [] → s.ri.session = .opened → s.mo.v ≠ 0 →
      exec .frameSlot s = .next (noteTarget { s with
        mo.resume := some p, mo.stands := none, rd.start := none, mo.goal := .waitData, mo.mode := some .backhitch, mo.dest := 0,
        mo.stopping := true, mo.into := none, mo.passWait := false, mo.bandTo := none, pw.dwell := false,
        mo.legs := [stopLeg .backhitch, { mode := .backhitch, pass := some p.pass, target := some (standing p).count, speed := 102 }] }))) ∧
  (∀ (x : Transmission) (k : Nat) (f : Option Nat) (s : State), s.wr.tx = some x → calm s = true → unmonitored .segmentSkip s = true →
    let again (j : Nat) : Slot := { freshSlot .onTape (slotAt s j).seg with placement := 2 }
    let e : Pos := { pass := x.start.pass, count := ahead x.start.pass x.start.count 48 }
    let ended : State := { s with wr.tx := none, mo.lastEnd := e }
    let due := s.ch.transport = .active ∧ s.mo.pass = x.start.pass ∧ reached e.pass s.mo.count e.count = true
    (due → s.wr.abandon = none → exec .frameTransmissionComplete s = .next ended) ∧
    (¬due → exec .frameTransmissionComplete s = .next s) ∧
    (due → s.wr.abandon = some { slot := k, following := f } → s.wr.eot = false → s.mo.band = s.sp.c → (slotAt s k).st = .onTape →
      (∀ j ∈ f, j ≠ k ∧ (slotAt s j).st = .onTape) → 2304 ≤ roomAfter s.mo.pass (ahead e.pass e.count 3072) →
      exec .frameTransmissionComplete s = .next { ended with
        wr.abandon := none, wr.heldF0 := none, wr.turnWait := false, mo.bandTo := none,
        wr.skipStart := some { pass := e.pass, count := ahead e.pass e.count 3072 },
        wr.verifyQ := s.wr.verifyQ.map (fun v => if v.slot = k ∨ f = some v.slot then { v with isVoid := true } else v),
        wr.rewriteQ := s.wr.rewriteQ.filter (fun q => decide (q.1 ≠ k ∧ f ≠ some q.1)),
        sm.slots := match f with
          | none => s.sm.slots.set k (again k)
          | some j => (s.sm.slots.set k (again k)).set j (again j),
        he.tally := { s.he.tally with skips := min (s.he.tally.skips + 1) 4294967295 },
        mo.planned := ahead e.pass e.count 3072 }) ∧
    (due → s.wr.abandon = some { slot := k, following := f } → s.wr.eot = false → (slotAt s k).st = .onTape →
      (∀ j ∈ f, j ≠ k ∧ (slotAt s j).st = .onTape) → roomAfter s.mo.pass (ahead e.pass e.count 3072) < 2304 → s.mo.pass < 47 →
      ∃ t, exec .frameTransmissionComplete s = .next t ∧ t.wr.turnWait = true ∧ t.wr.heldF0 = none ∧ t.wr.abandon = none ∧ t.wr.tx = none ∧
        t.wr.skipStart = some { pass := e.pass, count := ahead e.pass e.count 3072 } ∧ t.mo.planned = s.mo.planned ∧
        (slotAt t k).placement = 2 ∧ (∀ j ∈ f, (slotAt t j).placement = 2) ∧ t.mem = s.mem ∧ t.bp = s.bp))

/-- A checkpoint: the frame whose count in the tally reaches a multiple of 4,096 while tally-open is set forms the rate of the load,
and the first matching row of the rule judges it: CLEAN_REQUIRED at the hard limit with two others at soft, which forces the decided band
to 0, CLEAN_ADVISED at the soft limit with one other, MEDIA_DEGRADED once in a load where the tag's own earlier loads are at soft, else
nothing (R135, R166 to R168). That the cartridge record is read by the part at the checkpoint is the model's reading, log entry 8. -/
def Obligations.CheckpointJudged : Prop :=
  ∀ (k i : Nat) (rest : List (Nat × Nat)) (l : Layout) (s : State), calm s = true → unmonitored .frameWritten s = true →
    unmonitored .demotion s = true → gapOf s.mo.count s.mo.planned ≤ 24 → slotDue s = true → s.wr.pendingEnd = .none →
    s.ri.session = .opened → s.wr.countBusy = false → s.wr.verifyQ.length < 4 → s.wr.heldF0 = none → s.wr.rewriteQ = (k, i) :: rest → (slotAt s k).st = .onTape →
    s.he.tallyOpen = true → s.he.tally.frames < 4294967295 → (s.he.tally.frames + 1) % 4096 = 0 → s.bp.layout = some l → cqOpen s = true →
    let rate := s.he.tally.rewrites * 1000 / (s.he.tally.frames + 1)
    let differs := fun (e : DriveEntry) => e.unknown = true ∨ s.ch.tagUnreadable = true ∨ e.serial ≠ s.cart.serial
    let taken := (s.he.history.reverse.filter (fun e => decide (e.after = true ∧ differs e))).take 3
    let others := (taken.filter (fun e => decide (s.he.soft ≤ e.rate))).length
    let tags := s.cart.hist.map TagLoad.rate
    let tagsAtSoft := (tags.filter (fun r => decide (s.he.soft ≤ r))).length
    let sent := { s.frameSent k i with wr.rewriteQ := rest, wr.turnWait := false, wr.heldF0 := none }
    let judged : State := { sent with he.lastRate := rate, bp.reqs := sent.bp.reqs ++ [readOf l.cartBase 16384 .plain] }
    let raised (t : State) : State := { t with
      li.attnClean := true, li.attn := if s.li.attn = .none then .pulseDue else s.li.attn, li.pulses := if s.li.attn = .none then 0 else s.li.pulses }
    let changed := fun (new : CleanState) => s.cq.queue ++
      [noticeRecord .cleanStateChanged ([byteOf s.he.clean.code, byteOf new.code, 1] ++ leBytes 4 s.he.meters ++ leBytes 2 rate)]
    let atHard := s.he.hard ≤ rate ∧ 2 ≤ others
    let atSoft := ¬atHard ∧ s.he.soft ≤ rate ∧ 1 ≤ others
    let media := s.he.soft ≤ rate ∧ others = 0 ∧ 2 ≤ tagsAtSoft
    (atHard → s.he.clean ≠ .required →
      exec .frameSlot s = .next (noteTarget (raised { judged with
        he.clean := .required, sp.c := 0, sp.promo := 0, sp.dwellOn := false, sp.dwellCount := 0, cq.queue := changed .required }))) ∧
    (atHard → s.he.clean = .required → exec .frameSlot s = .next (noteTarget judged)) ∧
    (atSoft → s.he.clean = .ok →
      exec .frameSlot s = .next (noteTarget (raised { judged with he.clean := .advised, he.escCount := 0, cq.queue := changed .advised }))) ∧
    (atSoft → s.he.clean ≠ .ok → exec .frameSlot s = .next (noteTarget judged)) ∧
    (media → s.he.mediaPosted = false → ¬atHard →
      exec .frameSlot s = .next (noteTarget { judged with
        he.mediaPosted := true, cq.queue := s.cq.queue ++
          [noticeRecord .mediaDegraded (s.cart.serial ++ leBytes 2 rate ++ tags.flatMap (leBytes 2))] })) ∧
    (¬atHard → ¬atSoft → ¬media ∨ s.he.mediaPosted = true → exec .frameSlot s = .next (noteTarget judged))

/-- A verify result: the head of the queue is matched with it. GOOD and CORRECTED make the frame GOOD, a correction count above the
heavy threshold counts a heavy frame; UNCORRECTABLE, or an identity that differs, queues the frame for rewrite within the limits of
its placement, or abandons the placement; a void entry is dropped; an abandonment of a second placement meets WRITE_ERROR, which sends
its segment back to SEALED and brings the tape to rest (R115, R116, R118, R119). A segment whose 32 frames are GOOD is committed: the EOD
stands behind it, its slot is free, the logical position follows; the first commit of a load sets the open flag, which is written to the
tag unless the cartridge is TAG_UNREADABLE; an outstanding FLUSH whose target EOD now reaches, and a WRITE_CLOSE with nothing left to
write, complete (R16, R120, R124, R125). Results with nothing to verify change nothing, and which reads a commit makes is the model's
reading (log entries 8 and 28). -/
def Obligations.VerifyResultJudged : Prop :=
  (∀ (v : VerifyEntry) (rest : List VerifyEntry) (id : FrameId) (st : FrameStatus) (n : Nat) (s : State),
    calm s = true → unmonitored .frameRewrite s = true → unmonitored .frameHeavy s = true → (slotAt s v.slot).st ≠ .free →
    let x := slotAt s v.slot
    let good := x.frames.set v.idx { frameAt s v.slot v.idx with st := .good }
    let popped : State := { s with wr.verifyQ := rest }
    let whole : State := { popped with sm.slots := s.sm.slots.set v.slot { x with frames := good } }
    let head := s.wr.discard = false ∧ s.wr.verifyQ = v :: rest
    let limits := (frameAt s v.slot v.idx).count < 4 ∧ x.rewrites < 8 ∧ s.wr.rewriteQ.length < 16
    let requeued : State := { popped with
      sm.slots := s.sm.slots.set v.slot { x with
        frames := x.frames.set v.idx { frameAt s v.slot v.idx with st := .rewriteQueued }, rewrites := x.rewrites + 1 },
      wr.rewriteQ := s.wr.rewriteQ ++ [(v.slot, v.idx)],
      he.tally := { s.he.tally with rewrites := min (s.he.tally.rewrites + 1) 4294967295 } }
    let left := good.any (fun f => decide (f.st ≠ .good)) = true
    (s.wr.discard = true ∨ s.wr.verifyQ = [] → exec (.verifyResult id st) s = .next s) ∧
    (head → v.isVoid = true → exec (.verifyResult id st) s = .next popped) ∧
    (head → v.isVoid = false → v.id = id → slotsIn isOnTape s = [v.slot] → left → exec (.verifyResult id .good) s = .next whole) ∧
    (head → v.isVoid = false → v.id = id → slotsIn isOnTape s = [v.slot] → left → n ≤ s.sp.policy.heavy →
      exec (.verifyResult id (.corrected n)) s = .next whole) ∧
    (head → v.isVoid = false → v.id = id → slotsIn isOnTape s = [v.slot] → left → s.sp.policy.heavy < n →
      exec (.verifyResult id (.corrected n)) s =
        .next { whole with he.tally := { s.he.tally with heavy := min (s.he.tally.heavy + 1) 4294967295 } }) ∧
    (head → v.isVoid = false → v.id ≠ id → limits → exec (.verifyResult id st) s = .next requeued) ∧
    (head → v.isVoid = false → limits → exec (.verifyResult id .uncorrectable) s = .next requeued) ∧
    (head → v.isVoid = false → ¬limits → slotsIn isOnTape s = [v.slot] → s.wr.eot = false → x.placement = 1 → s.wr.tx.isSome = true →
      exec (.verifyResult id .uncorrectable) s = .next { popped with
        wr.verifyQ := rest.map (fun w => if w.slot = v.slot then { w with isVoid := true } else w),
        wr.abandon := some { slot := v.slot, following := none } }) ∧
    (head → v.isVoid = false → ¬limits → slotsIn isOnTape s = [v.slot] → s.wr.eot = false → x.placement = 2 → s.ri.session = .opened →
      s.ri.filling = none → cqOpen s = true → unmonitored .writeError s = true → s.ch.transport = .active →
      s.mo.mode = some .writeStream → s.mo.mask = false → s.mo.v ≠ 0 →
      ∃ t, exec (.verifyResult id .uncorrectable) s = .next t ∧ t.ri.session = .error ∧ t.ri.err = some .writeError ∧ t.wr.verifyQ = [] ∧
        t.wr.rewriteQ = [] ∧ t.wr.tx = none ∧ t.wr.heldF0 = none ∧ t.wr.abandon = none ∧ t.bp.watch = false ∧
        t.sm = { s.sm with slots := s.sm.slots.set v.slot (freshSlot .sealed x.seg) } ∧
        t.he.tally = { s.he.tally with writeErrors := min (s.he.tally.writeErrors + 1) 4294967295 } ∧ t.mo.mode = some .ramp ∧
        t.mo.goal = .toReady ∧ t.mo.legs = [stopLeg .ramp] ∧ t.mo.stopping = true ∧ t.mem = s.mem ∧ t.ci = s.ci ∧
        t.cq = { s.cq with queue := s.cq.queue ++ [noticeRecord .sessionError ([6] ++ leBytes 4 s.ri.lastComplete)] })) ∧
  (∀ (v : VerifyEntry) (rest : List VerifyEntry) (id : FrameId) (tag : Word) (target : Nat) (l : Layout) (s : State),
    steady s = true → s.bp.held = none → fetchDue s = false → s.ch.transport = .active → s.mo.mode = some .writeStream →
    s.bp.layout = some l → s.wr.discard = false → s.wr.verifyQ = v :: rest → v.isVoid = false → v.id = id →
    slotsIn isOnTape s = [v.slot] → (slotAt s v.slot).st = .onTape →
    let x := slotAt s v.slot
    let trailer := slotTrailer s v.slot
    let r := segmentNextRec s v.slot
    let ask := s.wr.openAsked = false ∧ s.ch.tagUnreadable = false
    let entered := enterSegment x.seg (trailerFirst trailer) (x.f0.getD bot) s.cart
    let c : Cart := { entered with
      eod := some { seg := x.seg + 1, firstRec := r, pos := s.mo.lastEnd }, openFlag := s.cart.openFlag || decide ask }
    let freed : State := { s with
      wr.verifyQ := rest, sm.slots := s.sm.slots.set v.slot (freshSlot .free 0), sm.free := s.sm.free ++ [v.slot], mo.lp := some r,
      rd.start := none,
      bp.reqs := s.bp.reqs ++ [readOf (slotBase s v.slot + 917440) 64 .plain,
        readOf (slotBase s v.slot + entryAt (trailerEntries trailer - 1)) 16 .plain, readOf l.cartBase 16384 .plain,
        partWrite l.cartBase (cartImage c) .plain] }
    let flushing := s.wr.close = false ∧ s.wr.flush = some (some target) ∧ s.ri.session = .opened
    let closing := s.wr.flush = none ∧ s.wr.close = true ∧ s.ri.session = .closing ∧ s.ri.st = .idle ∧ s.ri.filling = none ∧
      slotsIn isWriteBusy s = [v.slot]
    let waits (op : FwOp) := s.ci.write = runningNow { tag := tag, op := op } ∧ cqOpen s = true ∧ s.pw.cancelled = none ∧
      s.ci.state ≠ .stalled .write ∧ x.seg < 4294967295
    (x.frames.set v.idx { frameAt s v.slot v.idx with st := .good }).all (fun f => decide (f.st = .good)) = true →
    (s.wr.flush = none → s.wr.close = false → ¬ask → exec (.verifyResult id .good) s = .next freed) ∧
    (s.wr.flush = none → s.wr.close = false → ask →
      exec (.verifyResult id .good) s =
        .next { freed with wr.openAsked := true, wr.openBusy := true, ch.tagOut := tagBlock c s.ch.tagRest }) ∧
    (flushing → waits .flush → ¬ask → target ≤ x.seg + 1 →
      exec (.verifyResult id .good) s = .next { freed with
        wr.flush := none, ci.write := Job.clear, cq.queue := s.cq.queue ++
          [completionRecord { tag := tag, op := .flush } .ok 0 (.recordNumber ((r + 4294967295) % 4294967296))] }) ∧
    (flushing → waits .flush → ¬ask → x.seg + 1 < target → exec (.verifyResult id .good) s = .next freed) ∧
    (closing → waits .writeClose → ¬ask →
      ∃ t, exec (.verifyResult id .good) s = .next t ∧ t.ri.session = .closed ∧ t.wr.close = false ∧ t.wr.pendingEnd = .stop ∧
        t.mo.lp = some r ∧ t.mo.resume = none ∧ t.sp.timer = false ∧ t.bp.watch = false ∧ t.sm = freed.sm ∧ t.mem = s.mem ∧
        t.mo.mode = some .writeStream ∧ t.ci.write = Job.clear ∧
        t.cq = { s.cq with queue := s.cq.queue ++ [completionRecord { tag := tag, op := .writeClose } .ok 0 (.recordNumber r)] }))

/-! ### Chapters 5 and 6: the write session -/

/-- WRITE_OPEN: a bad offset is REFUSED_OPERAND; then the transport, an open session, a read, a cartridge that is not writable and an
unknown position refuse it, in this order. On a blank cartridge it opens the session at BOT, at the EOD it opens to append there: the
watch is active at the offset, intake waits for a header there, the session count is raised in the record and its tag write asked for,
the speed matcher starts, and the transport waits for data with the dwell armed; PARKED stays PARKED (R39, R85, R86, R129, R141). The
tag writes of the open flag and of the session count end: the writer no longer waits for the count, and a failed write posts
TAG_WRITE_FAILED (R16, R86). An end that nothing waits for changes nothing, and which reads of the record the checks make and the order of
the opening's requests is the model's choice too (log entries 8, 9, 12 and 28). -/
def Obligations.WriteOpenJudged : Prop :=
  (∀ (tag old : Word) (offset n p : Nat) (compress : Bool) (l : Layout) (e : Eod) (s : State), s.bp.layout = some l →
    placeOpen .write s = true → dwellSteady s = true → steady s = true → s.bp.held = none → s.wr.flush = none → s.wr.close = false →
    fetchDue s = false → intakeWaits s = false → ¬(s.ch.transport = .active ∧ s.mo.mode = some .waitData) →
    slotsIn isOnTape s = [] →
    let op : FwOp := .writeOpen offset compress
    let refusedIn := fun (t : State) c => exec (.writeOpen tag offset compress) s = .next (posted tag op .refusedState c .none t)
    let refused := refusedIn s
    let fits := offset % 16 = 0 ∧ offset < l.z
    let still := s.ch.transport = .ready ∨ s.ch.transport = .parked
    let free := s.ri.session = .closed ∧ s.ci.read = Job.clear ∧ writable s = true
    let headRead : State := { s with bp.reqs := s.bp.reqs ++ [readOf l.cartBase 64 .plain] }
    let looked : State := { s with bp.reqs := s.bp.reqs ++ [readOf l.cartBase 64 .plain, readOf l.cartBase 16384 .plain] }
    let fromBot := looked.sessionOpened l offset compress 0 0 bot
    let append := looked.sessionOpened l offset compress e.seg p (eodResume e)
    let blank := s.mo.lp = some 0 ∧ s.cart.eod = none ∧ s.cart.marks = [] ∧ s.cart.passes.all Option.isNone = true
    let atEnd := s.mo.lp = some p ∧ s.cart.eod = some e ∧ p = e.firstRec
    let opens := fun (t : State) => exec (.writeOpen tag offset compress) s = .next (posted tag op .ok 0 .none t)
    let ready := s.ch.transport = .ready ∧ s.pw.settling = false ∧ s.re.brake = false ∧ sealedCount s < s.sp.policy.restart
    (¬fits → exec (.writeOpen tag offset compress) s = .next (posted tag op .refusedOperand 0 .none s)) ∧
    (fits → ¬still → refused (transportSub s.ch.transport).code) ∧
    (fits → still → sessionOpen s = true → refused 8) ∧
    (fits → still → s.ri.session = .closed → s.ci.read = runningNow { tag := old, op := .readRecords n } → refused 9) ∧
    (fits → still → s.ri.session = .closed → s.ci.read = Job.clear → writable s = false → refusedIn headRead 7) ∧
    (fits → still → free → s.mo.lp = none → refusedIn headRead 5) ∧
    (fits → s.ch.transport = .parked → free → blank → opens fromBot) ∧
    (fits → s.ch.transport = .parked → free → atEnd → opens append) ∧
    (fits → ready → free → blank → opens (noteTarget fromBot.waitsForData)) ∧
    (fits → ready → free → atEnd → opens (noteTarget append.waitsForData))) ∧
  (∀ s : State, cqOpen s = true →
     let failed := s.cq.queue ++ [noticeRecord .tagWriteFailed []]
     (s.wr.openBusy = true → exec (.openFlagWriteEnd true) s = .next { s with wr.openBusy := false }) ∧
     (s.wr.openBusy = true → exec (.openFlagWriteEnd false) s = .next { s with wr.openBusy := false, cq.queue := failed }) ∧
     (s.wr.countBusy = true → exec (.sessionCountWriteEnd true) s = .next { s with wr.countBusy := false }) ∧
     (s.wr.countBusy = true → exec (.sessionCountWriteEnd false) s = .next { s with wr.countBusy := false, cq.queue := failed }) ∧
     (∀ ok, s.wr.openBusy = false → exec (.openFlagWriteEnd ok) s = .next s) ∧
     (∀ ok, s.wr.countBusy = false → exec (.sessionCountWriteEnd ok) s = .next s))

/-- A splice. WRITE_OPEN at a record inside the data that a LOCATE stands before reads the segment found: the command stays running, the
session stays CLOSED, and the tape goes to the segment's standing point (R86, R101). Once the segment is whole its slot is intake's
filling slot and the tape goes back to its frame 0 (R101). At rest there the entries of the record and of those behind it are dropped,
the directory is cut before the segment, which is the EOD, a RESET is owed, and the session opens with the next segment number behind
it, waiting for data (R14, R86, R102). The order of the requests is the model's choice, log entries 8 and 12. -/
def Obligations.SpliceOpens : Prop :=
  (∀ (tag : Word) (offset p : Nat) (compress : Bool) (l : Layout) (e : Eod) (at_ : StartPoint) (s : State), s.bp.layout = some l →
    placeOpen .write s = true → dwellSteady s = true → quiet s = true → intakeWaits s = false → s.ci.read = Job.clear →
    offset % 16 = 0 → offset < l.z → s.ch.transport = .ready → s.pw.settling = false → s.re.brake = false → writable s = true →
    s.mo.lp = some p → p ≠ 0 → s.cart.eod = some e → p ≠ e.firstRec → s.rd.start = some at_ → at_.located = true → s.mo.mask = false →
    s.mo.v = 0 → stands s = true → s.mo.pass = at_.pos.pass → (standing at_.pos).count < s.mo.count →
    exec (.writeOpen tag offset compress) s = .next (noteTarget { (s.dwellCut .write).moved .active with
      ci.write := runningNow { tag := tag, op := .writeOpen offset compress }, bp.reqs := s.bp.reqs ++ [readOf l.cartBase 64 .plain, readOf l.cartBase 16384 .plain],
      rd.spliceRec := p, rd.state := .starting, rd.user := some .splice, rd.x := at_.seg, rd.next := at_.seg, rd.scan := none, rd.blank := 0,
      rd.dataEnd := false, rd.lastEnd := none, rd.lowEnd := none, rd.start := none, mo.entry := 0, mo.stands := none, mo.goal := .readGo,
      mo.mode := some .backhitch, mo.named := at_.pos.pass, mo.dest := 102, mo.stopping := false, mo.into := none, mo.bandTo := none,
      mo.dir := .reverse,
      mo.legs := [{ mode := .backhitch, pass := some at_.pos.pass, target := some (standing at_.pos).count, speed := 102 }] })) ∧
  (∀ (k : Nat) (f0 : Pos) (s : State), s.rd.rebuildQ = [k] → s.rd.rebuildGot.length = 917504 → s.rd.user = some .splice → calm s = true →
    readSlots s = [k] → slotsIn isFilling s = [] → (slotAt s k).f0 = some f0 → s.ch.tagUnreadable = false → s.mo.mask = false →
    s.ch.transport = .active → s.mo.mode = some .readStream → s.mo.v ≠ 0 →
    let missing := missingFrames (slotAt s k)
    let known := ((List.range 32).filter (fun i => !missing.contains i)).take 28
    let others := (List.range 32).filter (fun i => !known.contains i)
    trailerGood (slotTrailer (rebuildFrames k s.rd.rebuildGot s) k) (slotAt s k).seg = true →
    exec .rebuildDone s = .next (noteTarget { s with
      rd.rebuildQ := [], rd.rebuildGot := [], rd.splice := some k, rd.spliceAt := some f0, rd.state := .ending, rd.start := none,
      sm.slots := s.sm.slots.set k (freshSlot .filling (slotAt s k).seg),
      bp.reqs := s.bp.reqs ++ (missing.filter (fun w => decide (w < 28))).map (fun w =>
        partWrite (slotBase s k + w * 32768) (solveFrame others known w (framesOf 28 s.rd.rebuildGot)) .plain) ++
        [readOf (slotBase s k + 917440) 64 .plain],
      mo.stands := none, mo.goal := .spliceStand, mo.mode := some .ramp, mo.dest := 0, mo.stopping := true, mo.into := none,
      mo.passWait := false, mo.bandTo := none, pw.dwell := false,
      mo.legs := [stopLeg .ramp, { mode := .backhitch, pass := some f0.pass, target := some (standing f0).count, speed := 102 }] })) ∧
  (∀ (tag : Word) (offset k p : Nat) (compress : Bool) (l : Layout) (f0 : Pos) (leg : Leg) (s : State), s.bp.layout = some l →
    quiet s = true → s.ci.write = runningNow { tag := tag, op := .writeOpen offset compress } → cqOpen s = true →
    s.pw.cancelled = none ∨ s.pw.cancelled = some .write → s.ci.state ≠ .stalled .write → offset < l.z → s.ch.transport = .active →
    s.mo.stopping = true → atRest s = true → s.mo.legs = [leg] → leg.target = some p → s.mo.goal = .spliceStand → s.rd.splice = some k →
    s.rd.spliceAt = some f0 → sealedCount s < s.sp.policy.restart → s.re.brake = false → slotsIn isOnTape s = [] →
    let r := s.rd.spliceRec
    let seg := (slotAt s k).seg
    let kept := keptEntries s k r 1024 0 0
    let c : Cart := { truncateDirectory seg s.cart with
      eod := some { seg := seg, firstRec := trailerFirst (slotTrailer s k), pos := { f0 with count := back f0.pass f0.count 48 } } }
    let written := cartOf (cartImage c)
    let counted : Cart := { written with session := min (written.session + 1) 4294967295 }
    (∀ j, j < kept.1 → (slotEntry s k j).num < r) ∧
    (kept.1 < trailerEntries (slotTrailer s k) → kept.1 < 1024 → r ≤ (slotEntry s k kept.1).num) ∧
    kept.2 = ((List.range kept.1).map (fun j => (slotEntry s k j).stored)).sum ∧
    ∃ t, exec .moveArrived s = .next t ∧ t.ri.session = .opened ∧ t.ri.filling = some k ∧ t.ri.e = kept.1 ∧ t.ri.u = kept.2 ∧
      t.ri.resetOwed = true ∧ t.ri.frag = none ∧ t.ri.nextRec = r ∧ t.ri.nextSeg = seg + 1 ∧ t.ri.cursor = offset ∧ t.ri.st = .header ∧
      t.bp.watch = true ∧ t.bp.release = offset ∧ t.bp.rl = 0 ∧ t.mo.resume = some f0 ∧ t.mo.mode = some .waitData ∧
      t.mo.stands = some { pass := s.mo.pass, count := p } ∧ t.ch.transport = .active ∧ t.pw.dwell = true ∧ t.rd.user = none ∧
      t.rd.splice = none ∧ t.wr.countBusy = true ∧ t.sm = s.sm ∧ t.mem = s.mem ∧
      t.ch.tagOut = tagBlock counted s.ch.tagRest ∧
      t.bp.reqs.drop s.bp.reqs.length =
        [readOf (slotBase s k) 1048576 .plain, readOf l.cartBase 16384 .plain, partWrite l.cartBase (cartImage c) .plain,
          readOf l.cartBase 16384 .plain, partWrite l.cartBase (cartImage counted) .plain] ∧
      t.ci.write = Job.clear ∧
      t.cq.queue = s.cq.queue ++ [completionRecord { tag := tag, op := .writeOpen offset compress } .ok 0 .none])

/-- Bytes fetched from the staging ring: they are consumed when they are the next at the cursor, and dropped otherwise. A header
of which bytes are still missing waits; a good DATA header begins its record, whose first chunk follows; a FILEMARK header is placed
as an entry of its own with its bytes released; a header that is not the one expected stops intake with FORMAT_ERROR; the last raw byte of
a chunk compresses it, and it waits to be placed where it fits; where there is no filling slot the next segment's is taken for it (R87,
R89 to R92, R95 to R98, R105). A RAW body is copied from staging, where its bytes are retained: its reads are issued with the placement
(R95, R97). With no fetch outstanding, or none returned, the row changes nothing. That a fetch asks for at most one line, one at a time, and
that the row may come when nothing waits for it, is the model's choice, log entries 17 and 28. -/
def Obligations.FetchedBytesConsumed : Prop :=
  (∀ (bs : List Byte) (l : Layout) (c : RecordInProgress) (k : Nat) (free : List Nat) (s : State), s.ri.fetch = some s.ri.cursor →
    s.ri.fetched = some bs → bs ≠ [] → s.bp.layout = some l → s.bp.release < l.z → s.bp.rl ≤ l.z → available s = bs.length →
    calm s = true → s.ri.session = .opened → s.ri.padOwed = 0 → s.sm.slots.all (fun x => decide (x.st ≠ .filling)) = true ∨ s.ri.filling ≠ none →
    let h := s.ri.hdr ++ bs
    let taken : State := { s with ri.fetch := none, ri.fetched := none, ri.cursor := (s.ri.cursor + bs.length) % l.z }
    let raw := s.ri.raw ++ bs
    let body := chunkBody s.ri.compress s.ri.history raw
    let wholeHeader := s.ri.st = .header ∧ h.length = 16
    let expected := field h 8 2 = s.ri.nextRec % 65536
    let bad := ¬expected ∨ (field h 4 1 ≠ 1 ∧ field h 4 1 ≠ 2) ∨ (field h 4 1 = 1 ∧ (field h 0 4 = 0 ∨ 16777216 < field h 0 4)) ∨
      (field h 4 1 = 2 ∧ field h 0 4 ≠ 0)
    let mark := wholeHeader ∧ expected ∧ field h 4 1 = 2 ∧ field h 0 4 = 0
    let wholeChunk := s.ri.st = .data ∧ s.ri.cur = some c ∧ raw.length = min 16384 (c.len - c.placed)
    let chunk : State := { taken with
      ri.item := some (.chunk raw.length body.1.length body.2), ri.chunkBuf := if body.2 then body.1 else [],
      ri.history := growHistory s.ri.history raw, ri.st := .placing, ri.raw := [] }
    let from_ := ringDist l.z raw.length taken.ri.cursor
    let copied (t : State) : State := if body.2 then t else { t with
      ri.refetched := [], bp.reqs := t.bp.reqs ++ [readOf (l.stBase + from_) raw.length .chunkFetch] }
    let copies := wholeChunk ∧ raw.length ≤ l.z - from_
    (s.ri.st = .header → h.length < 16 → exec .stagingFetchReturn s = .next { taken with ri.hdr := h }) ∧
    (wholeHeader → expected → field h 4 1 = 1 → 0 < field h 0 4 → field h 0 4 ≤ 16777216 →
      exec .stagingFetchReturn s = .next { taken with
        ri.hdr := [], ri.st := .data, ri.raw := [], ri.cur := some { num := s.ri.nextRec, len := field h 0 4, placed := 0 },
        ri.history := if s.ri.filling = none ∨ s.ri.resetOwed = true then [] else s.ri.history }) ∧
    (mark → s.ri.filling = some k → s.ri.e + 1 ≤ 1024 → s.ri.u + 16 * (s.ri.e + 1) ≤ 917440 →
      exec .stagingFetchReturn s = .next { taken with
        bp.reqs := s.bp.reqs ++ [partWrite (slotBase s k + entryAt s.ri.e)
          (entryBytes s.ri.nextRec true true true s.ri.resetOwed false 0 0) .plain],
        bp.release := (s.bp.release + min 16 s.bp.rl) % l.z, bp.rl := s.bp.rl - min 16 s.bp.rl,
        ri.e := s.ri.e + 1, ri.resetOwed := false, ri.history := [], ri.item := none, ri.hdr := [], ri.lastComplete := s.ri.nextRec,
        ri.nextRec := inc32 s.ri.nextRec }) ∧
    (mark → s.ri.filling = none → s.sm.free = [] →
      exec .stagingFetchReturn s = .next { taken with ri.item := some .filemark, ri.hdr := [], ri.st := .placing }) ∧
    (wholeHeader → s.ri.cur = none → s.ri.filling = none → cqOpen s = true → bad →
      exec .stagingFetchReturn s = .next { s.watchEnded.intakeStopped with
        ri.fetch := none, ri.cursor := taken.ri.cursor,
        ri.session := .error, ri.err := some .formatError, li.lastErr := .formatError,
        cq.queue := s.cq.queue ++ [noticeRecord .sessionError ([byteOf 5] ++ leBytes 4 s.ri.lastComplete)] }) ∧
    (s.ri.st = .data → s.ri.cur = some c → raw.length < min 16384 (c.len - c.placed) →
      exec .stagingFetchReturn s = .next { taken with ri.raw := raw }) ∧
    (copies → s.ri.filling = some k → chunkFits s.ri.u s.ri.e (4 + body.1.length) s.ri.frag.isNone = true →
      exec .stagingFetchReturn s = .next (copied chunk)) ∧
    (copies → s.ri.filling = none → s.sm.free = k :: free →
      exec .stagingFetchReturn s = .next (copied { chunk with
        sm.free := free, sm.slots := s.sm.slots.set k (freshSlot .filling s.ri.nextSeg), ri.filling := some k, ri.u := 0, ri.e := 0,
        ri.frag := none, ri.nextSeg := inc32 s.ri.nextSeg })) ∧
    (wholeChunk → s.ri.filling = none → s.sm.free = [] → exec .stagingFetchReturn s = .next chunk)) ∧
  (∀ (off : Nat) (bs : List Byte) (l : Layout) (s : State), calm s = true →
    let dropped : State := { s with ri.fetch := none, ri.fetched := none }
    let n := min (available s) (64 - s.ri.cursor % 64)
    (s.ri.fetch = none ∨ s.ri.fetched = none → exec .stagingFetchReturn s = .next s) ∧
    (s.ri.fetch = some off → s.ri.fetched = some bs → takesBytes s = false → exec .stagingFetchReturn s = .next dropped) ∧
    (s.ri.fetch = some off → s.ri.fetched = some bs → off ≠ s.ri.cursor → takesBytes s = true → s.bp.watch = true → 0 < available s →
      s.bp.layout = some l →
      exec .stagingFetchReturn s = .next { dropped with
        ri.fetch := some s.ri.cursor, bp.reqs := s.bp.reqs ++ [readOf (l.stBase + s.ri.cursor) n .stagingFetch] }))

/-- A chunk that fits is written into the filling slot at the used length with its header, a COMPRESSED body from the chunk buffer and a RAW
one from the bytes copied out of staging, once they have all come; the entry of its record is written with
its last chunk; its raw bytes are released, with the header before the first and the pad behind the last as far as it has arrived; its
stored length counts in the interval (R88, R95 to R97, R129). A misfit writes the open fragment's entry, seals the slot and waits to be compressed again in the next one;
there its bytes are fetched from staging afresh and it is compressed from the empty history (R99, R100). A free slot ends slot
exhaustion: it is taken for the next segment, and a filemark that waited is placed there (R96, R98). Parity done seals its slot for the
tape, from the 28 frames it has read (R110). A slot left SEALING by a session that WRITE_CLOSE has closed in ERROR is freed when its parity
is done, the model's choice, log entry 37. Parity that makes the sealed slots reach the restart threshold in WAIT_DATA cancels the dwell and
restarts the writer: at the decided band it ramps from the standing point of the resume point, or moves there first, and ramps then (R39,
R54, R122, R136). Each of these changes nothing where nothing waits for it, and the reads that a step makes are the model's reading (log
entries 8, 17 and 28). -/
def Obligations.ChunksPlacedAndSealed : Prop :=
  (∀ (raw body : Nat) (comp : Bool) (s : State), s.ri.item = some (.chunk raw body comp) →
    (if comp then s.ri.chunkBuf else s.ri.refetched).length ≠ body → exec .chunkPlaced s = .next s) ∧
  (∀ (raw : Nat) (comp : Bool) (c : RecordInProgress) (k : Nat) (l : Layout) (s : State),
    let body := if comp then s.ri.chunkBuf else s.ri.refetched
    s.ri.st = .placing → s.ri.item = some (.chunk raw body.length comp) → s.ri.filling = some k → s.ri.cur = some c → body ≠ [] →
    chunkFits s.ri.u s.ri.e (4 + body.length) s.ri.frag.isNone = true → s.ri.session = .opened → s.ri.sealReq = false →
    s.bp.layout = some l → l.z ≠ 0 → calm s = true → s.sp.timer = true →
    let stored := 4 + body.length
    let first := c.placed = 0
    let freed := raw + if first then 16 else 0
    let behind := ringDist l.z s.bp.release s.ri.cursor
    let a := available s
    let old := s.ri.frag.getD { num := c.num, first := decide first, reset := s.ri.resetOwed, raw := 0, stored := 0 }
    let frag : Fragment := { old with raw := old.raw + raw, stored := old.stored + stored }
    let e := if s.ri.frag.isNone then s.ri.e + 1 else s.ri.e
    let write := partWrite (slotBase s k + s.ri.u) (chunkHeader comp body.length ++ body) .plain
    let placed : State := { s with
      bp.reqs := s.bp.reqs ++ [write], bp.release := (s.bp.release + freed) % l.z, bp.rl := s.bp.rl - freed,
      ri.e := e, ri.u := s.ri.u + stored, ri.item := none, ri.chunkBuf := [], ri.refetched := [],
      ri.resetOwed := if s.ri.frag.isNone then false else s.ri.resetOwed, sp.sum := min (s.sp.sum + stored) 4294967295 }
    freed ≤ behind → s.bp.rl = behind + a →
    (c.placed + raw ≠ c.len → a = 0 →
      let again : RecordInProgress := { c with placed := c.placed + raw }
      exec .chunkPlaced s = .next { placed with
        ri.frag := some frag, ri.cur := some again, ri.st := .data, ri.raw := [],
        ri.history := if placed.ri.resetOwed then [] else s.ri.history }) ∧
    (c.placed + raw = c.len → a ≤ padOf c.len →
      exec .chunkPlaced s = .next { placed with
        bp.reqs := s.bp.reqs ++ [write, partWrite (slotBase s k + entryAt (e - 1)) (fragmentBytes frag true false) .plain],
        bp.release := (s.bp.release + freed + a) % l.z, bp.rl := s.bp.rl - freed - a, ri.cursor := (s.ri.cursor + a) % l.z,
        ri.padOwed := padOf c.len - a, ri.frag := none, ri.cur := none, ri.lastComplete := c.num, ri.nextRec := inc32 s.ri.nextRec,
        ri.st := .header })) ∧
  (∀ (raw body : Nat) (comp : Bool) (c : RecordInProgress) (k : Nat) (free : List Nat) (l : Layout) (s : State),
    s.ri.item = some (.chunk raw body comp) → calm s = true → s.bp.layout = some l →
    let got := s.ri.refetched
    let afresh := chunkBody s.ri.compress [] got
    let slotTaken : State := { s with
      sm.free := free, sm.slots := s.sm.slots.set k (freshSlot .filling s.ri.nextSeg), ri.filling := some k, ri.u := 0, ri.e := 0,
      ri.frag := none, ri.nextSeg := inc32 s.ri.nextSeg }
    let from_ := ringDist l.z raw s.ri.cursor
    let fetched (t : State) : State := { t with
      ri.refetched := [], bp.reqs := s.bp.reqs ++ [readOf (l.stBase + from_) raw .chunkFetch] }
    let whole := s.ri.st = .recompress ∧ got.length = raw ∧ s.ri.cur = some c
    let waits := s.ri.st = .placing ∧ s.ri.filling = none ∧ s.ri.session = .opened ∧ s.sm.free = k :: free ∧
      s.sm.slots.all (fun x => decide (x.st ≠ .filling)) = true ∧ 0 < raw ∧ raw ≤ l.z - from_
    let made : State := { s with
      ri.item := some (.chunk raw afresh.1.length afresh.2), ri.chunkBuf := if afresh.2 then afresh.1 else [], ri.history := lastBytes got,
      ri.refetched := [], ri.st := .placing }
    (whole → got.length = min 16384 (c.len - c.placed) → s.ri.filling = some k → 0 < raw → raw ≤ l.z - from_ →
      chunkFits s.ri.u s.ri.e (4 + afresh.1.length) s.ri.frag.isNone = true →
      exec .recompressDone s = .next (if afresh.2 then made else fetched made)) ∧
    (whole → got.length < min 16384 (c.len - c.placed) → available s = 0 →
      exec .recompressDone s = .next { s with ri.st := .data, ri.raw := got, ri.item := none, ri.history := [], ri.refetched := [] }) ∧
    (s.ri.st ≠ .recompress ∨ got.length ≠ raw → exec .recompressDone s = .next s) ∧
    (s.ri.st ≠ .placing → exec .chunkPlaced s = .next s) ∧
    (waits → body ≠ 0 → exec .slotExhaustionEnd s = .next (if comp then slotTaken else fetched slotTaken)) ∧
    (waits → body = 0 →
      exec .slotExhaustionEnd s = .next (fetched { slotTaken with ri.history := [], ri.st := .recompress, ri.chunkBuf := [] }))) ∧
  (∀ (bs : List Byte) (c : RecordInProgress) (k : Nat) (l : Layout) (s : State), s.ri.fetch = some s.ri.cursor →
    s.ri.fetched = some bs → bs ≠ [] → s.bp.layout = some l → available s = bs.length → s.bp.release < l.z → s.bp.rl ≤ l.z →
    calm s = true → s.ri.session = .opened → s.ri.st = .data → s.ri.cur = some c → s.ri.filling = some k → s.sm.free = [] →
    0 < s.ri.e → (slotAt s k).st = .filling →
    let raw := s.ri.raw ++ bs
    let body := chunkBody s.ri.compress s.ri.history raw
    let closed : State := { s with
      ri.frag := none, bp.reqs := s.bp.reqs ++ (match s.ri.frag with
        | none => []
        | some f => [partWrite (slotBase s k + entryAt (s.ri.e - 1)) (fragmentBytes f false false) .plain]) }
    raw.length = min 16384 (c.len - c.placed) → chunkFits s.ri.u s.ri.e (4 + body.1.length) s.ri.frag.isNone = false →
    exec .stagingFetchReturn s = .next { closed.slotSealed k with
      ri.fetch := none, ri.fetched := none, ri.cursor := (s.ri.cursor + bs.length) % l.z, ri.item := some (.chunk raw.length 0 body.2),
      ri.sealReq := false, ri.chunkBuf := if body.2 then body.1 else [], ri.history := growHistory s.ri.history raw, ri.st := .placing,
      ri.raw := [] }) ∧
  (∀ (k : Nat) (free : List Nat) (l : Layout) (s : State), s.bp.layout = some l → s.ri.st = .placing → s.ri.item = some .filemark →
    s.ri.filling = none → s.sm.free = k :: free → s.sm.slots.all (fun x => decide (x.st ≠ .filling)) = true → s.ri.session = .opened →
    calm s = true → l.z ≠ 0 → s.bp.rl = 16 → ringDist l.z s.bp.release s.ri.cursor = 16 →
    exec .slotExhaustionEnd s = .next { s with
      sm.free := free, sm.slots := s.sm.slots.set k (freshSlot .filling s.ri.nextSeg), ri.filling := some k, ri.u := 0, ri.e := 1,
      ri.frag := none, ri.nextSeg := inc32 s.ri.nextSeg, ri.history := [], ri.item := none, ri.hdr := [], ri.resetOwed := false,
      ri.lastComplete := s.ri.nextRec, ri.nextRec := inc32 s.ri.nextRec, ri.st := .header,
      bp.release := (s.bp.release + 16) % l.z, bp.rl := 0,
      bp.reqs := s.bp.reqs ++ [partWrite (slotBase s k + 917424) (entryBytes s.ri.nextRec true true true s.ri.resetOwed false 0 0) .plain] }) ∧
  (∀ s : State, intakeWaits s = false ∨ s.sm.free = [] → exec .slotExhaustionEnd s = .next s) ∧
  (∀ s : State, s.sm.parity = [] ∨ s.sm.parityGot = none → exec .parityDone s = .next s) ∧
  (∀ (k : Nat) (rest : List Nat) (bs : List Byte) (p : Pos) (s : State), s.sm.parity = k :: rest → s.sm.parityGot = some bs →
    bs.length = 917504 → (slotAt s k).st ≠ .free →
    let next := match rest with
      | [] => []
      | j :: _ => [readOf (slotBase s j) 917504 .parityRead]
    let done : State := { s with
      sm.parity := rest, sm.parityGot := none,
      bp.reqs := s.bp.reqs ++ [partWrite (slotBase s k + 917504) (parityFrames bs) .plain] ++ next }
    let sealed_ : State := { done with sm.slots := s.sm.slots.set k { slotAt s k with st := .sealed } }
    let waits := steady s = true ∧ s.bp.held = none ∧ s.wr.flush = none ∧ s.wr.close = false ∧ fetchDue s = false ∧
      s.ch.transport = .active ∧ s.mo.mode = some .waitData ∧ s.ri.session = .opened ∧ s.mo.resume = some p ∧ s.mo.mask = false ∧
      (slotAt s k).st = .sealing ∧ s.sp.policy.restart ≤ sealedCount s + 1 ∧ (s.pw.dwell = true → unmonitored .parkRejected s = true)
    (calm s = true → s.sm.orphans.contains k = false → exec .parityDone s = .next sealed_) ∧
    (calm s = true → s.sm.orphans.contains k = true →
      exec .parityDone s = .next { done with
        sm.slots := s.sm.slots.set k (freshSlot .free 0), sm.free := s.sm.free ++ [k],
        sm.orphans := s.sm.orphans.filter (fun j => decide (j ≠ k)) }) ∧
    (waits → s.sm.orphans.contains k = false → s.mo.stands = some (standing p) →
      exec .parityDone s = .next (noteTarget (sealed_.leadsIn p))) ∧
    (waits → s.sm.orphans.contains k = false → s.mo.stands ≠ some (standing p) → s.mo.v = 0 → stands s = true → s.mo.pass = p.pass →
      (standing p).count < s.mo.count →
      exec .parityDone s = .next (noteTarget { sealed_ with
        pw.dwell := false, mo.band := s.sp.c, mo.stands := none, rd.start := none, mo.mode := some .backhitch, mo.goal := .writeGo,
        mo.named := p.pass, mo.dest := 102, mo.dir := .reverse, mo.stopping := false, mo.into := none, mo.passWait := false,
        mo.bandTo := none,
        mo.legs := [{ mode := .backhitch, pass := some p.pass, target := some (standing p).count, speed := 102 }] }))) ∧
  (∀ (p : Pos) (leg : Leg) (n : Nat) (s : State), calm s = true → s.ch.transport = .active → s.mo.mode = some .backhitch →
    s.mo.goal = .writeGo → s.mo.stopping = true → atRest s = true → s.mo.legs = [leg] → leg.target = some n → s.mo.resume = some p →
    exec .moveArrived s = .next (noteTarget { s.leadsIn p with
      pw.dwell := s.pw.dwell, mo.band := s.mo.band, mo.dest := bandSpeed s.mo.band }))

/-- The session's commands: with no session each is refused; FLUSH seals what is placed, completes at once with the number before
EOD's where everything is committed, and is outstanding otherwise; WRITE_CLOSE with nothing held closes the session and names the
writer's end, and is outstanding while slots remain; WRITE_ABORT closes the session, frees its slots and completes at once (R84, R100,
R104, R106, R123 to R126). A FLUSH in WAIT_DATA with a segment SEALED and none SEALING restarts the writer (R54, R122). In ERROR with
OVERRUN or FORMAT_ERROR, FLUSH and WRITE_CLOSE complete with that status where all that is placed is committed, or nothing is left to
write, and are outstanding otherwise; with WRITE_ERROR, END_OF_TAPE or MOTION_FAULT they complete with it at once, and WRITE_CLOSE frees
the SEALED slots and closes the session (R124, R125); what becomes of slots still SEALING then is the model's choice, log entry 37.
SET_STREAM_POLICY refuses bands above 7 or crossed, clamps the rest to its ranges, and moves the decided band into the new bounds (R139,
R140). When the policy takes effect, and that commands which wait for a recovery are judged behind it, is the model's choice (log entries
34 and 38), and so is it that the row of an interval's expiry changes nothing while no session runs the timer (log entry 3). -/
def Obligations.SessionCommands : Prop :=
  (∀ (tag : Word) (k : Nat) (s : State), calm s = true → placeOpen .write s = true → dwellSteady s = true → s.mo.mask = false →
    s.mo.wait ≠ .failing →
    let c := fun op => ({ tag := tag, op := op } : FwCmd)
    let running := s.ch.transport = .active ∧ s.mo.mode = some .writeStream ∧ s.ri.session = .opened ∧
      (s.ri.st = .header ∨ s.ri.st = .idle) ∧ s.ri.item = none
    let streaming := running ∧ s.ri.filling = none
    let target := s.ri.nextSeg
    (s.ri.session = .closed →
      exec (.flush tag) s = .next (posted tag .flush .refusedState 10 .none s) ∧
      exec (.writeClose tag) s = .next (posted tag .writeClose .refusedState 10 .none s) ∧
      exec (.writeAbort tag) s = .next (posted tag .writeAbort .refusedState 10 .none s)) ∧
    (streaming → target ≤ eodSeg s →
      exec (.flush tag) s = .next (posted tag .flush .ok 0 (.recordNumber ((eodRec s + 4294967295) % 4294967296)) s)) ∧
    (streaming → eodSeg s < target →
      exec (.flush tag) s = .next { s with ci.write := runningNow (c .flush), wr.flush := some (some target) }) ∧
    (running → s.ri.filling = some k → (slotAt s k).st = .filling → 0 < s.ri.e → eodSeg s < target →
      exec (.flush tag) s = .next { s.slotSealed k with ci.write := runningNow (c .flush), wr.flush := some (some target) }) ∧
    (streaming → nothingToWrite s = false →
      exec (.writeClose tag) s = .next { s with
        ci.write := runningNow (c .writeClose), wr.close := true, ri.session := .closing, ri.st := .idle,
        ri.hdr := if s.ri.st = .header then [] else s.ri.hdr }) ∧
    (streaming → nothingToWrite s = true →
      exec (.writeClose tag) s = .next (posted tag .writeClose .ok 0 (.recordNumber (eodRec s)) { s.watchEnded.intakeStopped with
        ri.session := .closed, ri.err := none, ri.u := 0, ri.e := 0, ri.frag := none, ri.resetOwed := false,
        sp.timer := false, sp.dwellOn := false, sp.dwellCount := 0, wr.eot := false, mo.resume := none, mo.lp := some (eodRec s),
        rd.start := none, wr.pendingEnd := .stop })) ∧
    (s.ch.transport = .active → s.mo.mode = some .writeStream → sessionOpen s = true →
      ∃ t, exec (.writeAbort tag) s = .next t ∧ t.ri.session = .closed ∧ t.ri.filling = none ∧ t.wr.pendingEnd = .abort ∧
        t.wr.verifyQ = [] ∧ t.wr.rewriteQ = [] ∧ t.wr.tx = none ∧ t.bp.watch = false ∧ t.sp.timer = false ∧
        t.sm = (freeSlots (slotsIn isWriteBusy s ++ slotsIn (fun x => decide (x = .filling)) s)
          { s with sm.parity := [], sm.parityGot := none, sm.orphans := [] }).sm ∧
        t.mo.mode = some .writeStream ∧ t.mo.lp = some (eodRec s) ∧ t.ci = s.ci ∧ t.mem = s.mem ∧
        t.bp.reqs = (s.bp.reqs.map (Req.forget .parityRead)).map (Req.forget .chunkFetch) ∧
        t.cq = { s.cq with queue := s.cq.queue ++ [completionRecord (c .writeAbort) .ok 0 .none] })) ∧
  (∀ (tag : Word) (p : Pos) (s : State), steady s = true → s.bp.held = none → s.wr.flush = none → s.wr.close = false → fetchDue s = false →
    s.bp.layout.isSome = true → s.ci.write = Job.clear → dwellSteady s = true → s.mo.mask = false → s.ch.transport = .active →
    s.mo.mode = some .waitData → s.ri.session = .opened → s.ri.st = .header → s.ri.filling = none → s.mo.resume = some p →
    s.mo.stands = some (standing p) → slotsIn isSealing s = [] → slotsIn isSealed s ≠ [] → eodSeg s < s.ri.nextSeg →
    exec (.flush tag) s = .next (noteTarget { (s.dwellCut .write).leadsIn p with
      ci.write := runningNow { tag := tag, op := .flush }, wr.flush := some (some s.ri.nextSeg) })) ∧
  (∀ (tag : Word) (st : Status) (s : State), calm s = true → placeOpen .write s = true → dwellSteady s = true → s.mo.mask = false →
    s.ri.session = .error → s.ri.err = some st →
    let soft := st = .overrun ∨ st = .formatError
    let done := nothingToWrite s = true ∧ s.ri.st ≠ .stopping
    let last := Results.recordNumber s.ri.lastComplete
    let outstanding (op : FwOp) (t : State) := exec (match op with | .flush => .flush tag | _ => .writeClose tag) s = .next { t with
      ci.write := runningNow { tag := tag, op := op }, pw.dwell := false, pw.cancelled := if s.pw.dwell then some .write else s.pw.cancelled }
    (¬soft ∨ s.ri.nextSeg ≤ eodSeg s ∨ done → exec (.flush tag) s = .next (posted tag .flush st 0 last s)) ∧
    (soft → eodSeg s < s.ri.nextSeg → ¬done → outstanding .flush { s with wr.flush := some (some s.ri.nextSeg) }) ∧
    (soft → ¬done → outstanding .writeClose { s with wr.close := true }) ∧
    (soft → done → s.ch.transport = .active → s.mo.mode = some .writeStream →
      ∃ t, exec (.writeClose tag) s = .next t ∧ t.ri.session = .closed ∧ t.ri.err = none ∧ t.ri.filling = none ∧ t.wr.close = false ∧
        t.wr.pendingEnd = .stop ∧ t.mo.lp = some (eodRec s) ∧ t.sm = s.sm ∧ t.ci.write = Job.clear ∧ t.mem = s.mem ∧
        t.cq = { s.cq with queue := s.cq.queue ++ [completionRecord { tag := tag, op := .writeClose } st 0 last] }) ∧
    (¬soft → s.ch.transport = .active → s.mo.mode = some .writeStream →
      ∃ t, exec (.writeClose tag) s = .next t ∧ t.ri.session = .closed ∧ t.ri.err = none ∧ t.ri.filling = none ∧ t.wr.close = false ∧
        t.wr.pendingEnd = .stop ∧ t.mo.lp = some (eodRec s) ∧ t.ci.write = Job.clear ∧ t.mem = s.mem ∧
        t.sm = (freeSlots (slotsIn isSealed s) { s with sm.orphans := slotsIn isSealing s }).sm ∧
        t.cq = { s.cq with queue := s.cq.queue ++ [completionRecord { tag := tag, op := .writeClose } st 0 last] })) ∧
  (∀ (tag : Word) (p : StreamOperands) (l : Layout) (s : State), calm s = true → placeOpen .write s = true → dwellSteady s = true →
    s.mo.mask = false → s.bp.layout = some l →
    let op : FwOp := .setStreamPolicy p
    let good := p.bandMin ≤ 7 ∧ p.bandMax ≤ 7 ∧ p.readBand ≤ 7 ∧ p.bandMin ≤ p.bandMax
    let pol : StreamPolicy :=
      { bandMin := p.bandMin, bandMax := p.bandMax, restart := max 1 (min p.restart (l.s - 2)),
        highMark := max 2 (min p.highMark (l.s - 1)), dwell := max 2 (min p.dwell 50), heavy := max 1 (min p.heavy 63),
        readBand := p.readBand, readAhead := max 2 (min p.readAhead l.s) }
    let set : State := { s with sp.policy := pol, sp.highSet := true }
    let inside := s.he.clean = .required ∨ (p.bandMin ≤ s.sp.c ∧ s.sp.c ≤ p.bandMax)
    (¬good → exec (.setStreamPolicy tag p) s = .next (posted tag op .refusedOperand 0 .none s)) ∧
    (good → inside → exec (.setStreamPolicy tag p) s = .next (posted tag op .ok 0 .none set)) ∧
    (good → ¬inside →
      exec (.setStreamPolicy tag p) s = .next (posted tag op .ok 0 .none { set with
        sp.c := max p.bandMin (min s.sp.c p.bandMax), sp.promo := 0, sp.dwellOn := false, sp.dwellCount := 0 }))) ∧
  (∀ s : State, s.sp.timer = false → exec .intervalExpiry s = .next s)

/-! ### Chapter 7: speed matching -/

/-- The base band of an inflow is the smallest band whose rate exceeds the inflow by at least a sixteenth; where no band satisfies the
test it is 7. In whole numbers this gives the eight ranges worked out in the rule (R131). -/
def Obligations.BaseBandOfInflow : Prop :=
  ∀ ef : Nat, baseBand ef ≤ 7 ∧ (∀ b, b < baseBand ef → (500 + 100 * b) * 16 < ef * 17) ∧
   ((500 + 100 * baseBand ef) * 16 ≥ ef * 17 ∨ (baseBand ef = 7 ∧ ∀ b, b ≤ 7 → (500 + 100 * b) * 16 < ef * 17)) ∧
   (ef ≤ 470 → baseBand ef = 0) ∧ (471 ≤ ef → ef ≤ 564 → baseBand ef = 1) ∧ (565 ≤ ef → ef ≤ 658 → baseBand ef = 2) ∧
   (659 ≤ ef → ef ≤ 752 → baseBand ef = 3) ∧ (753 ≤ ef → ef ≤ 847 → baseBand ef = 4) ∧ (848 ≤ ef → ef ≤ 941 → baseBand ef = 5) ∧
   (942 ≤ ef → ef ≤ 1035 → baseBand ef = 6) ∧ (1036 ≤ ef → baseBand ef = 7)

/-- At an interval's expiry the placed bytes join the history and the target follows from the inflow's base band, the fill and the
policy's bounds, 0 where cleaning is required; a target above the decided band twice in a row promotes; a target below it starts or
counts the dwell, whose end takes the highest target seen; another target ends the dwell (R129 to R135, R138; R132 and R133 whole). -/
def Obligations.IntervalDecidesBand : Prop :=
  ∀ s : State, s.sp.timer = true →
    let hist := (s.sp.hist ++ [s.sp.sum]).drop 1
    let b0 := baseBand (min (hist.sum * 15 / 131072) 65535)
    let f := (s.sm.slots.filter (fun k => decide (k.st = .sealed))).length
    let b1 := if highMark s ≤ f then min (b0 + 1) 7 else if f ≤ 1 then b0 - 1 else b0
    let target := if s.he.clean = .required then 0 else max s.sp.policy.bandMin (min b1 s.sp.policy.bandMax)
    let counted : State := { s with
      sp.hist := hist, sp.sum := 0,
      sp.resid := if s.ch.transport = .active ∧ s.mo.mode = some .writeStream
        then s.sp.resid.set s.mo.band (min (s.sp.resid.getD s.mo.band 0 + 1) 4294967295) else s.sp.resid }
    let noDwell : State := { counted with sp.dwellOn := false, sp.dwellCount := 0 }
    let rejected := fun (t : State) => if s.sp.dwellOn then event .demotionRejected t else t
    let high := max s.sp.dwellHigh target
    (s.sp.c < target → s.sp.promo ≠ 1 →
      exec .intervalExpiry s = .next (rejected { noDwell with sp.promo := s.sp.promo + 1 })) ∧
    (s.sp.c < target → s.sp.promo = 1 →
      exec .intervalExpiry s = .next (rejected (event .promotion { noDwell with sp.c := target, sp.promo := 0 }))) ∧
    (s.sp.c = target → exec .intervalExpiry s = .next (rejected { noDwell with sp.promo := 0 })) ∧
    (target < s.sp.c → s.sp.dwellOn = false →
      exec .intervalExpiry s = .next { counted with sp.promo := 0, sp.dwellOn := true, sp.dwellCount := 1, sp.dwellHigh := target }) ∧
    (target < s.sp.c → s.sp.dwellOn = true → s.sp.dwellCount + 1 < s.sp.policy.dwell →
      exec .intervalExpiry s = .next { counted with sp.promo := 0, sp.dwellCount := s.sp.dwellCount + 1, sp.dwellHigh := high }) ∧
    (target < s.sp.c → s.sp.dwellOn = true → s.sp.policy.dwell ≤ s.sp.dwellCount + 1 →
      exec .intervalExpiry s = .next (event .demotion { noDwell with sp.promo := 0, sp.c := high, sp.dwellHigh := high }))

/-! ### Chapter 8: reading back -/

/-- READ_RECORDS: a count of 0 is REFUSED_OPERAND; the transport, an open session and an unknown position refuse it; at or behind
EOD it ends with END_OF_DATA and no record; in PARKED it wakes the transport and waits; from a start point it moves to its standing
point, in ACTIVE. READ_ABORT of a running read ends it ABORTED with its count, and the tape is ramped to rest; with no read to end it is
refused; a piece whose last one was on its way is completed, and its record counts (R1, R36, R38, R39, R143, R144, R155, R158, R159). Which
reads of the cartridge record a command makes, and that such a record counts at the abort, is the model's choice, log entries 8 and 40. -/
def Obligations.ReadRecordsJudged : Prop :=
  (∀ (tag : Word) (n p : Nat) (e : Eod) (at_ : StartPoint) (l : Layout) (s : State), dwellSteady s = true → calm s = true ∨ quiet s = true →
    let op : FwOp := .readRecords n
    let answered := fun (t : State) => placeOpen .read s = true → exec (.readRecords tag n) s = .next t
    let refused := fun c => answered (posted tag op .refusedState c .none s)
    let still := s.ch.transport = .ready ∨ s.ch.transport = .parked
    let stand := standing at_.pos
    let free := s.bp.layout = some l ∧ s.ci.read = Job.clear ∧ quiet s = true ∧ s.mo.lp = some p ∧ s.cart.eod = some e ∧ p < e.firstRec ∧
      s.re.brake = false ∧ s.mo.mask = false
    (n = 0 → answered (posted tag op .refusedOperand 0 .none s)) ∧
    (n ≠ 0 → ¬still → refused (transportSub s.ch.transport).code) ∧
    (n ≠ 0 → still → sessionOpen s = true → refused 8) ∧
    (n ≠ 0 → still → quiet s = true → s.mo.lp = none → refused 5) ∧
    (n ≠ 0 → still → quiet s = true → s.mo.lp = some p → s.cart.eod = some e → e.firstRec ≤ p →
      s.bp.layout = some l →
      answered (posted tag op .endOfData 0 (.position (leBytes 4 0) (some p)) { s with
        rd.wanted := n, rd.delivered := 0, bp.reqs := s.bp.reqs ++ [readOf l.cartBase 64 .plain] })) ∧
    (n ≠ 0 → free → s.ch.transport = .parked → s.ch.step = none →
      exec (.readRecords tag n) s = .next (noteTarget { s.moved .ready with
        ci.read := runningNow { tag := tag, op := op }, bp.reqs := s.bp.reqs ++ [readOf l.cartBase 64 .plain],
        rd.wanted := n, rd.delivered := 0, pw.settling := true,
        pw.waiters := s.pw.waiters ++ [.read] })) ∧
    (n ≠ 0 → free → s.ch.transport = .ready → s.pw.settling = false → s.rd.start = some at_ → s.mo.v = 0 → stands s = true →
      s.mo.pass = at_.pos.pass → stand.count < s.mo.count →
      exec (.readRecords tag n) s = .next (noteTarget { (s.dwellCut .read).moved .active with
        ci.read := runningNow { tag := tag, op := op },
        bp.reqs := s.bp.reqs ++ [readOf l.cartBase 64 .plain, readOf l.cartBase 16384 .plain],
        rd.wanted := n, rd.delivered := 0, rd.discardPt := some p, rd.aborted := false,
        rd.state := .starting, rd.user := some .records, rd.x := at_.seg, rd.next := at_.seg, rd.scan := none, rd.blank := 0,
        rd.dataEnd := false, rd.lastEnd := none, rd.lowEnd := none, rd.start := none, mo.stands := none, mo.goal := .readGo, mo.mode := some .backhitch,
        mo.named := at_.pos.pass, mo.bandTo := none, mo.dest := 102, mo.stopping := false, mo.into := none, mo.dir := .reverse,
        mo.legs := [{ mode := .backhitch, pass := some at_.pos.pass, target := some stand.count, speed := 102 }] }))) ∧
  (∀ (tag old : Word) (n : Nat) (s : State), quiet s = true → dwellSteady s = true →
    (placeOpen .read s = true → s.rd.aborted = false → s.ch.transport = .active →
      exec (.readAbort tag) s = .next (posted tag .readAbort .refusedState 11 .none s)) ∧
    (placeOpen .read s = true → s.rd.aborted = false → s.ch.transport ≠ .active →
      exec (.readAbort tag) s = .next (posted tag .readAbort .refusedState (transportSub s.ch.transport).code .none s)) ∧
    (placeOpen .read s = true → s.rd.aborted = true → s.ch.transport = .ready →
      exec (.readAbort tag) s = .next (posted tag .readAbort .ok 0 .none { s with rd.aborted := false })) ∧
    (s.ci.read = runningNow { tag := old, op := .readRecords n } → s.bp.layout.isSome = true → cqOpen s = true → s.pw.cancelled = none →
      s.ci.state ≠ .stalled .read → s.ch.transport = .active → s.mo.mode = some .readStream → s.rd.user = some .records →
      s.rd.fill = none → s.mo.mask = false → s.mo.wait ≠ .failing → slotsIn isOnTape s = [] →
      let cut := s.rd.out.isSome = true ∧ s.rd.ended = none
      let n' := if cut then s.rd.delivered + 1 else s.rd.delivered
      let lp := if cut then s.rd.out.map (fun a => inc32 a.num) else s.mo.lp
      (∀ a ∈ s.rd.out, a.last = true ∧ a.filemark = false ∧ a.status ≠ 2) →
      ∃ t, exec (.readAbort tag) s = .next t ∧ t.ci.read = runningNow { tag := tag, op := .readAbort } ∧ t.rd.state = .idle ∧
        t.rd.start = none ∧ t.mo.mode = some .ramp ∧ t.mo.stopping = true ∧ t.mo.goal = .toReady ∧ t.mo.dest = 0 ∧ t.mo.lp = lp ∧
        t.mem = s.mem ∧ t.bp = s.readStopped.bp ∧ t.sm = s.readStopped.sm ∧
        t.cq = { s.cq with queue := s.cq.queue ++
          [completionRecord { tag := old, op := .readRecords n } .aborted 0 (.position (leBytes 4 n') lp)] }))

/-- The frame merge: a read segment's slot is judged by its merge stamp and its entry. A lower stamp is ignored, a higher one empties
the table first, a frame held already adds nothing, a good frame that is missing is written through the tape class and becomes held,
an uncorrectable one writes nothing; the placement plays no part (R146). Where frame 0 lies follows the frame that sets the stamp, and what
a slot keeps as the end of its last frame is the model's own bookkeeping (log entry 16). -/
def Obligations.FramesMerged : Prop :=
  ∀ (k : Nat) (id : FrameId) (st : FrameStatus) (p : Pos) (data : List Byte) (t : Nat) (s : State), (slotAt s k).st ≠ .free →
    id.idx < 32 → s.rd.scan = none → data.length = 32768 →
    let x := slotAt s k
    let missing := List.replicate 32 false
    let stop : Pos := { p with count := ahead p.pass p.count 48 }
    let kept := fun (y : Slot) => mergeFrame k id st p data s = { s with sm.slots := s.sm.slots.set k y }
    let held := fun (y : Slot) (h : List Bool) => mergeFrame k id st p data s = { s with
      sm.slots := s.sm.slots.set k { y with held := h.set id.idx true },
      bp.reqs := s.bp.reqs ++ [{ cls := .tape, isWrite := true, addr := slotBase s k + id.idx * 32768, len := 32768, data := data.map some,
                                 got := [], what := .plain }] }
    let met : Slot := { x with frameEnd := some stop }
    let fresh : Slot := { met with stamp := some id.stamp, f0 := some { p with count := back p.pass p.count (48 * id.idx) } }
    (x.stamp = some t → id.stamp < t → kept x) ∧
    (x.stamp = some t → t < id.stamp → st ≠ .uncorrectable → held { fresh with held := missing } missing) ∧
    (x.stamp = some t → t < id.stamp → st = .uncorrectable → kept { fresh with held := missing }) ∧
    (x.stamp = some id.stamp → x.held.getD id.idx false = true → kept met) ∧
    (x.stamp = some id.stamp → x.held.getD id.idx false = false → st ≠ .uncorrectable → held met x.held) ∧
    (x.stamp = some id.stamp → x.held.getD id.idx false = false → st = .uncorrectable → kept met) ∧
    (x.stamp = none → x.held.getD id.idx false = false → st ≠ .uncorrectable → held fresh x.held) ∧
    (x.stamp = none → x.held.getD id.idx false = false → st = .uncorrectable → kept fresh)

/-- A frame of a read (R145 to R151, R156). One below the expected segment, of a segment below a read segment, or at or beyond EOD is
ignored; one of an open segment is merged, and the stream turns where that makes the last segment of the pass whole; the first of the next
segment opens it in the slot at the head of the free list with every entry missing and its lead-in point before it, or pauses the read where
no slot may be taken. The first frame of the second segment above a read segment completes that one: whole, it is DECODED; with 1 to 4 frames
MISSING it is rebuilt; with more it is retried from its lead-in point, and after three retries it ends in READ_ERROR, behind which the next
segment is awaited; the frame opens its own segment in the first two cases. The segment awaited ends the stream when it completes: whole, its
first entry gives the position past the error, and too many frames MISSING leave it unknown. A frame with no stream to take it changes
nothing, and what is kept as the frame ends received and which reads of the cartridge record are made is the model's reading (log entries 8,
16 and 28). -/
def Obligations.FrameReceivedJudged : Prop :=
  ∀ (id : FrameId) (st : FrameStatus) (start j j' k : Nat) (rest : List Nat) (data : List Byte) (l : Layout) (s : State), calm s = true →
    s.rd.scan = none → s.rd.user = some .records → s.bp.layout = some l →
    let met : State := { s with
      rd.blank := 0,
      bp.reqs := s.bp.reqs ++ [readOf l.cartBase 64 .plain, readOf (l.cartBase + 64 + 16 * s.mo.pass) 16 .plain] }
    let place : Pos := { pass := s.mo.pass, count := start }
    let stop : Pos := { pass := s.mo.pass, count := ahead s.mo.pass start 48 }
    let ended (t : State) : State := { t with rd.lastEnd := some stop, rd.lowEnd := if id.seg < t.rd.next then some stop else t.rd.lowEnd }
    let merged (t : State) : Prop :=
      let u := ended (mergeFrame k id st place data t)
      (passRead id.seg u = false → exec (.frameReceived id st start data) s = .next u) ∧
      (passRead id.seg u = true → ∃ v, exec (.frameReceived id st start data) s = .next v ∧ v.mo.goal = .turnRead ∧ v.mo.mode = some .turn ∧
        v.mo.legs = [{ mode := .turn, pass := none, target := some (standing { pass := s.mo.pass + 1, count := regionStart (s.mo.pass + 1) }).count,
                       speed := bandSpeed s.mo.band }] ∧
        v.sm = u.sm ∧ v.bp = u.bp ∧ v.rd = { u.rd with start := none } ∧ v.mem = s.mem)
    let streams := frameStream s = true ∧ beyondEod s id.seg = false
    let goes := streams ∧ s.rd.x ≤ id.seg ∧ s.rd.bad = none
    let room := s.sm.free = k :: rest ∧ (readSlots s).length < s.sp.policy.readAhead
    let next := s.rd.next = id.seg ∧ (slotsIn isFetching s).all (fun i => decide ((slotAt s i).seg + 1 = id.seg)) = true
    let slot : Slot := { freshSlot .fetching id.seg with leadIn := some (backClamped place (48 * id.idx + 3072)) }
    (frameStream s = false → exec (.frameReceived id st start data) s = .next s) ∧
    (drainStands s = true →
      (frameStream s = true → beyondEod s id.seg = true → exec (.frameReceived id st start data) s = .next met) ∧
      (streams → passRead id.seg s = false → id.seg < s.rd.x ∨
          (fetchSlot s id.seg = none ∧ (slotsIn isFetching s).any (fun i => decide (id.seg < (slotAt s i).seg)) = true) →
        exec (.frameReceived id st start data) s = .next (ended met)) ∧
      (streams → s.rd.x ≤ id.seg → fetchSlot s id.seg = some k → merged met) ∧
      (goes → next → fetchSlot s id.seg = none → room →
        exec (.frameReceived id st start data) s = .next (ended (mergeFrame k id st place data
          { met with sm.free := rest, sm.slots := s.sm.slots.set k slot, rd.next := id.seg + 1, mo.entry := 0 }))) ∧
      (goes → next → fetchSlot s id.seg = none → s.sm.free = [] ∨ s.sp.policy.readAhead ≤ (readSlots s).length → s.mo.mask = false → s.mo.v ≠ 0 →
        ∃ t, exec (.frameReceived id st start data) s = .next t ∧ t.rd.state = .paused ∧ t.rd.resume = some place ∧
          t.rd.lastEnd = some stop ∧ t.rd.lowEnd = s.rd.lowEnd ∧ t.rd.next = s.rd.next ∧ t.sm = s.sm ∧ t.mo.goal = .readPaused ∧
          t.mo.legs = [stopLeg .ramp, { mode := .backhitch, pass := some place.pass, target := some (standing place).count, speed := 102 }] ∧
          t.mo.mode = some .ramp ∧ t.mo.stopping = true ∧ t.mem = s.mem ∧ t.cq = s.cq)) ∧
    (s.rd.ask.isSome = true → s.ch.tagUnreadable = false → s.mo.mask = false → s.mo.v ≠ 0 →
      let x := slotAt s j
      let n := (missingFrames x).length
      let above := slotsIn isFetching s = [j, j'] ∧ (slotAt s j').seg = x.seg + 1 ∧ id.seg = x.seg + 2 ∧ s.rd.next = id.seg ∧
        s.rd.after = none ∧ s.rd.rebuildQ = [] ∧ x.st = .fetching
      let opened (y : SlotState) (t : State) : Prop :=
        exec (.frameReceived id st start data) s = .next t ∧ (slotAt t j).st = y ∧ (slotAt t j).seg = x.seg ∧ t.rd.x = x.seg + 1 ∧
        t.sm.free = rest ∧ (slotAt t k).st = .fetching ∧ (slotAt t k).seg = id.seg ∧
        (slotAt t k).leadIn = some (backClamped place (48 * id.idx + 3072)) ∧ t.rd.next = id.seg + 1 ∧ t.rd.state = .streaming ∧
        t.rd.lastEnd = some stop ∧ t.rd.lowEnd = some stop ∧ t.mem = s.mem
      let awaited := slotsIn isFetching s = [j] ∧ id.seg = x.seg + 2 ∧ x.st = .fetching ∧ s.rd.after = some x.seg ∧ s.rd.bad.isSome = true
      let drains (t : State) : Prop :=
        exec (.frameReceived id st start data) s = .next t ∧ t.rd.after = none ∧ t.rd.bad = s.rd.bad ∧ t.rd.state = .drainingOnly ∧
        t.mo.goal = .drainRest ∧ t.mo.legs = [stopLeg .ramp] ∧ t.mo.mode = some .ramp ∧ (slotAt t j).st = .free ∧
        t.sm.free = s.sm.free ++ [j] ∧ t.rd.next = s.rd.next ∧ t.rd.lastEnd = some stop ∧ t.mem = s.mem ∧ t.cq = s.cq
      (goes → above → room → k ≠ j → k ≠ j' → k < s.sm.slots.length → n = 0 → trailerGood (slotTrailer s j) x.seg = true →
        ∃ t, opened .decoded t ∧ t.rd.rebuildQ = []) ∧
      (goes → above → room → k ≠ j → k ≠ j' → k < s.sm.slots.length → 1 ≤ n → n ≤ 4 →
        ∃ t, opened .rebuilding t ∧ t.rd.rebuildQ = [j] ∧ t.rd.rebuildGot = [] ∧
          (met.bp.reqs ++ (knownFrames x).map (fun i => readOf (slotBase s j + i * 32768) 32768 .rebuildRead)) <+: t.bp.reqs) ∧
      (goes → above → 5 ≤ n → x.retry < 3 → unmonitored .readRetry s = true →
        let lead := x.leadIn.getD { pass := 0, count := 20000 }
        ∃ t, exec (.frameReceived id st start data) s = .next t ∧ slotAt t j = { x with retry := x.retry + 1 } ∧ t.rd.state = .retrying ∧
          t.rd.resume = some lead ∧ t.rd.blank = 0 ∧ t.rd.dataEnd = false ∧ t.rd.x = s.rd.x ∧ t.rd.next = s.rd.next ∧
          t.mo.goal = .readRetry ∧ t.mo.mode = some .ramp ∧
          t.mo.legs = [stopLeg .ramp, { mode := .backhitch, pass := some lead.pass, target := some (standing lead).count, speed := 102 }] ∧
          t.he.tally.readRetries = min (s.he.tally.readRetries + 1) 4294967295 ∧ t.sm.free = s.sm.free ∧ t.mem = s.mem) ∧
      (goes → above → 5 ≤ n → 3 ≤ x.retry → j ≠ j' → s.rd.dataEnd = false → unmonitored .readError s = true →
        ∃ t, exec (.frameReceived id st start data) s = .next t ∧ t.rd.bad = some x.seg ∧ t.rd.after = some (x.seg + 1) ∧ t.rd.past = none ∧
          (slotAt t j).st = .free ∧ t.sm.free = s.sm.free ++ [j] ∧ (slotAt t j').st = .fetching ∧ t.rd.x = x.seg + 1 ∧
          t.rd.next = s.rd.next ∧ t.rd.state = .streaming ∧ t.mo.mode = s.mo.mode ∧
          t.he.tally.readErrors = min (s.he.tally.readErrors + 1) 4294967295 ∧ t.mem = s.mem) ∧
      (streams → s.rd.x ≤ id.seg → awaited → n = 0 → trailerGood (slotTrailer s j) x.seg = true →
        ∃ t, drains t ∧ t.rd.past = some (if (slotEntry s j 0).first then (slotEntry s j 0).num else inc32 (slotEntry s j 0).num)) ∧
      (streams → s.rd.x ≤ id.seg → awaited → 5 ≤ n → ∃ t, drains t ∧ t.rd.past = none) ∧
      (streams → s.rd.x ≤ id.seg → awaited → 1 ≤ n → n ≤ 4 → s.rd.rebuildQ = [] →
        ∃ t, exec (.frameReceived id st start data) s = .next t ∧ t.rd.state = .drainingOnly ∧ t.mo.goal = .drainRest ∧
          (slotAt t j).st = .rebuilding ∧ t.rd.rebuildQ = [j] ∧ t.rd.after = some x.seg ∧ t.mem = s.mem))

/-- The EOD confirmation: a segment that becomes whole and whose trailer carries the number of the current EOD extends the data, with
its pass table entry and mark; one of another number stops the confirmation, and so does blank tape: the open flag falls in the record,
the EOD is confirmed and the tape goes back toward BOT at locate speed. Segments are taken in segment order: a whole one waits DECODED for
a lower one still open or being rebuilt (R14, R15, R49, R152). Which reads are made is the model's reading (log entry 8), and that the end of
the segment is that of its last frame met (log entry 16), that extensions stay where the confirmation fails later, and that blank tape is
ignored where none is expected, are its choices (log entries 28 and 35). -/
def Obligations.EodConfirmed : Prop :=
  (∀ (j k : Nat) (rest : List Nat) (l : Layout) (s : State), s.bp.layout = some l → s.rd.rebuildQ = [k] → s.rd.rebuildGot.length = 917504 →
    s.rd.user = some .confirm → s.rd.dataEnd = false → s.rd.bad = none → calm s = true → (slotAt s k).st ≠ .free → s.rd.fill = none →
    s.mo.mask = false →
    s.ch.transport = .active → s.mo.mode = some .readStream → s.mo.v ≠ 0 →
    let x := slotAt s k
    let read := s.rebuilt k []
    let t := slotTrailer read k
    let freed : State := { read with sm.slots := s.sm.slots.set k (freshSlot .free 0), sm.free := s.sm.free ++ [k] }
    let c : Cart := { enterSegment x.seg (trailerFirst t) (x.f0.getD bot) read.cart with
      eod := some { seg := x.seg + 1, firstRec := segmentNextRec read k, pos := x.frameEnd.getD (x.f0.getD bot) } }
    trailerGood t x.seg = true →
    (readSlots s = j :: rest → j ≠ k → (slotAt s j).st ≠ .decoded →
      exec .rebuildDone s = .next { read with sm.slots := s.sm.slots.set k { x with st := .decoded } }) ∧
    (x.seg = eodSeg read → readSlots s = [k] →
      exec .rebuildDone s = .next { freed with
        bp.reqs := read.bp.reqs ++ [readOf (slotBase s k + entryAt (trailerEntries t - 1)) 16 .plain, readOf l.cartBase 16384 .plain, partWrite l.cartBase (cartImage c) .plain] }) ∧
    (x.seg ≠ eodSeg read → readSlots s = [k] →
      ∃ u, exec .rebuildDone s = .next u ∧ u.ch.eodConfirmed = true ∧ u.rd.user = none ∧ u.rd.state = .idle ∧ u.mo.goal = .confirmBack ∧
        u.mo.legs = [stopLeg .ramp, moveLeg .locate { pass := 0, count := 18464 } 307] ∧ u.sm.free = s.sm.free ++ [k] ∧
        u.bp.reqs = read.readStopped.bp.reqs ++
          [readOf l.cartBase 16384 .plain, partWrite l.cartBase (cartImage { read.cart with openFlag := false }) .plain])) ∧
  (∀ s : State, frameStream s = false ∨ blankMet s = false ∨ (s.cart.eod ≠ none ∧ s.rd.user ≠ some .confirm) →
    exec .blankDetection s = .next s) ∧
  (∀ (l : Layout) (s : State), s.bp.layout = some l → frameStream s = true → blankMet s = true → s.rd.user = some .confirm →
     calm s = true → readSlots s = [] → s.mo.v ≠ 0 → s.rd.fill = none → s.mo.mask = false →
     ∃ t, exec .blankDetection s = .next t ∧ t.ch.eodConfirmed = true ∧ t.rd.state = .idle ∧ t.rd.user = none ∧ t.ch.transport = .active ∧
       t.mo.goal = .confirmBack ∧ t.mo.legs = [stopLeg .ramp, moveLeg .locate { pass := 0, count := 18464 } 307] ∧ t.mem = s.mem ∧
       t.bp.reqs = s.readStopped.bp.reqs ++
         [readOf l.cartBase 64 .plain, readOf l.cartBase 16384 .plain, partWrite l.cartBase (cartImage { s.cart with openFlag := false }) .plain] ∧
       t.sm = s.sm ∧ t.cq = s.cq)

/-- A paused read at rest ramps into its stream at the read band when a slot may be taken (R137, R147); a rebuilt slot with a good
trailer is DECODED, with its missing data frames written (R149); room is granted to a piece asked for: a header-only piece is written
at once, another when the decompressor has produced its data, the header last; a slot drained to its last entry is freed to the tail of
the free list (R80, R153, R154). Each changes nothing where nothing waits for it; how a slot is read to be decompressed is the
model's reading (log entries 8, 28 and 40). -/
def Obligations.ReadGoesOn : Prop :=
  (∀ s : State, steady s = true →
    let paused := s.ch.transport = .active ∧ s.rd.state = .paused ∧ s.mo.legs = [] ∧ s.mo.mask = false ∧ atRest s = true
    (paused → mayOpen s = true → s.mo.mode = some .backhitch → exec .readResume s = .next (noteTarget { s with
      rd.state := .starting, rd.start := none, mo.stands := none, mo.band := s.sp.policy.readBand, mo.mode := some .ramp,
      mo.into := some .readStream, mo.goal := .none, mo.stopping := false, mo.dest := bandSpeed s.sp.policy.readBand,
      mo.passWait := false, mo.bandTo := none, mo.named := s.mo.pass, mo.dir := passDir s.mo.pass })) ∧
    (¬paused ∨ mayOpen s = false → exec .readResume s = .next s) ∧
    (s.rd.rebuildQ = [] → exec .rebuildDone s = .next s)) ∧
  (∀ s : State, calm s = true →
    (s.rd.ask = none → exec .deliveryRoomGranted s = .next s) ∧ (s.rd.drain = none → exec .slotDrained s = .next s)) ∧
  (∀ (k : Nat) (rest : List Nat) (s : State), s.rd.rebuildQ = k :: rest → s.rd.rebuildGot.length = 917504 → calm s = true →
    s.rd.user = some .records → s.rd.ask.isSome = true → s.rd.state = .streaming → s.rd.after = none → s.rd.bad = none →
    s.ch.tagUnreadable = false → (slotAt s k).st ≠ .free →
    trailerGood (slotTrailer (s.rebuilt k rest) k) (slotAt s k).seg = true →
    exec .rebuildDone s = .next { s.rebuilt k rest with sm.slots := s.sm.slots.set k { slotAt s k with st := .decoded } }) ∧
  (∀ (a : PieceAsk) (l : Layout) (d : Drain) (e : Entry) (s : State), s.rd.ask = some a → s.bp.layout = some l → s.bp.wpos < l.zd →
    calm s = true → s.rd.user = some .records → s.rd.state = .streaming → s.rd.ended = none → s.rd.out = none → s.rd.drain = some d →
    d.read = .nothing → d.cur = some e →
    let len := (32 + a.len + 31) / 32 * 32
    let free := s.bp.pieces.length < 64 ∧ len ≤ l.zd - s.bp.occupied
    let from_ := (s.bp.wpos + 32) % l.zd
    let first := l.zd - from_
    let header := partWrite (l.dlBase + s.bp.wpos) (pieceHeader a) (.pieceHeader s.bp.wpos)
    let granted : State := { s with
      bp.pieces := s.bp.pieces ++ [{ start := s.bp.wpos, len := len, state := .writing }], bp.wpos := (s.bp.wpos + len) % l.zd,
      bp.occupied := s.bp.occupied + len, rd.ask := none }
    let data := d.out.take a.len
    let after := if d.sent + a.len = e.raw
      then { d with entry := d.entry + 1, cur := none, made := 0, stored := 0, out := [], sent := 0 }
      else { d with out := d.out.drop a.len, sent := d.sent + a.len }
    (¬free → exec .deliveryRoomGranted s = .next s) ∧
    (free → a.len = 0 →
      exec .deliveryRoomGranted s = .next { granted with rd.fill := none, rd.out := some a, bp.reqs := s.bp.reqs ++ [header] }) ∧
    (free → 0 < a.len → a.len ≤ d.out.length → a.len ≤ first →
      exec .deliveryRoomGranted s = .next { granted with
        rd.fill := none, rd.out := some a, rd.drain := some after,
        bp.reqs := s.bp.reqs ++ [partWrite (l.dlBase + from_) data .plain, header] }) ∧
    (free → first < a.len → a.len ≤ d.out.length →
      exec .deliveryRoomGranted s = .next { granted with
        rd.fill := none, rd.out := some a, rd.drain := some after,
        bp.reqs := s.bp.reqs ++
          [partWrite (l.dlBase + from_) (data.take first) .plain, partWrite l.dlBase (data.drop first) .plain, header] }) ∧
    (free → d.out.length < a.len →
      exec .deliveryRoomGranted s = .next { granted with
        rd.fill := some a, rd.drain := some { d with read := .header },
        bp.reqs := s.bp.reqs ++ [readOf (slotBase s d.slot + d.off) 4 .drainRead] })) ∧
  (∀ (d : Drain) (s : State), s.rd.drain = some d → s.rd.state = .streaming → s.rd.bad = none → s.rd.user = some .records →
    calm s = true →
    let walked := d.read = .nothing ∧ d.cur = none ∧ s.rd.ask = none ∧ s.rd.fill = none ∧ s.rd.out = none ∧ d.entries ≤ d.entry
    (walked → readSlots s = [d.slot] → exec .slotDrained s = .next { s with
      rd.drain := none, sm.slots := s.sm.slots.set d.slot (freshSlot .free 0), sm.free := s.sm.free ++ [d.slot] }) ∧
    (¬walked → exec .slotDrained s = .next s))

/-- The end of a read. A record counts as delivered when the header of its LAST piece has been written: the logical position is the next
number, the count rises, and the drain goes on to the next entry. With the n-th record, or a filemark, which is not counted, the read
ends OK or FILEMARK_SEEN: drain stops, its slots are freed, the tape goes to the standing point of the lead-in point of the next
record's segment where that is known, and to rest where it is otherwise; with the data at its end and every slot drained it ends
END_OF_DATA. At rest the transport is READY with the dwell armed, and READ_RECORDS completes with its status, count and position (R39,
R155, R158). How the end meets a recovery is the model's choice (log entry 39). -/
def Obligations.ReadEnds : Prop :=
  (∀ (a : PieceAsk) (at_ : Nat) (l : Layout) (d : Drain) (sp : StartPoint) (s : State), s.bp.layout = some l → quiet s = true →
    s.bp.reqs = [partWrite (l.dlBase + at_) (pieceHeader a) (.pieceHeader at_)] → (l.dlBase + at_) % 64 + 32 ≤ 64 → s.rd.out = some a →
    s.bp.pieces.getLast?.map Piece.start = some at_ → s.rd.user = some .records → s.rd.ended = none → s.rd.ask = none → s.rd.fill = none →
    s.rd.drain = some d → d.cur = none → d.read = .nothing → s.rd.state = .streaming → s.ch.transport = .active →
    s.mo.mode = some .readStream → s.mo.mask = false → s.mo.wait ≠ .failing → s.mo.v ≠ 0 → a.last = true → a.status ≠ 2 →
    let written : State := { s with
      mem := memWriteBytes s.mem (l.dlBase + at_) ((pieceHeader a).map some), bp.reqs := [], bp.starve := 0,
      bp.pieces := s.bp.pieces.map (fun (p : Piece) => if p.start = at_ ∧ p.state = .writing then { p with state := .written } else p),
      rd.out := none, rd.partly := none, mo.lp := some (inc32 a.num), rd.endLead := nextLead s }
    let counted : State := { written with rd.delivered := s.rd.delivered + 1 }
    let ends (st : Status) (w t : State) : Prop :=
      t.rd.ended = some st ∧ t.rd.state = .ending ∧ t.rd.drain = none ∧ t.rd.ask = none ∧ t.rd.delivered = w.rd.delivered ∧
      t.mo.lp = w.mo.lp ∧ t.mem = w.mem ∧ t.bp.pieces = w.bp.pieces ∧ t.bp.reqs = [] ∧ t.sm = s.readStopped.sm ∧ t.mo.goal = .readEnd ∧
      t.mo.mode = some .ramp ∧ t.mo.dest = 0 ∧ t.mo.stopping = true ∧ t.ci = s.ci ∧ t.cq = s.cq ∧
      (nextLead s = some sp → t.rd.endLead = some sp ∧ t.mo.legs = [stopLeg .ramp, moveLeg .backhitch (standing sp.pos) 102]) ∧
      (nextLead s = none → t.rd.endLead = none ∧ t.mo.legs = [stopLeg .ramp])
    (a.filemark = false → s.rd.delivered + 1 < s.rd.wanted → d.entry < d.entries →
      exec .memoryPortGrant s = .next { counted with
        rd.drain := some { d with read := .entry }, bp.reqs := [readOf (slotBase s d.slot + entryAt d.entry) 16 .drainRead] }) ∧
    (a.filemark = false → s.rd.delivered + 1 < s.rd.wanted → d.entries ≤ d.entry → exec .memoryPortGrant s = .next counted) ∧
    (a.filemark = false → s.rd.wanted ≤ s.rd.delivered + 1 → ∃ t, exec .memoryPortGrant s = .next t ∧ ends .ok counted t) ∧
    (a.filemark = true → ∃ t, exec .memoryPortGrant s = .next t ∧ ends .filemarkSeen written t)) ∧
  (∀ (d : Drain) (s : State), quiet s = true → s.rd.drain = some d → d.read = .nothing → d.cur = none → d.entries ≤ d.entry →
    s.rd.user = some .records → s.rd.state = .drainingOnly → s.rd.dataEnd = true → s.rd.ended = none → s.rd.bad = none →
    s.rd.ask = none → s.rd.fill = none → s.rd.out = none → readSlots s = [d.slot] → s.ch.transport = .active → s.mo.mode = some .ramp →
    s.mo.mask = false → s.mo.wait ≠ .failing →
    ∃ t, exec .slotDrained s = .next t ∧ t.rd.ended = some .endOfData ∧ t.rd.state = .ending ∧ t.rd.drain = none ∧
      t.rd.delivered = s.rd.delivered ∧ t.mo.lp = some (eodRec s) ∧ t.mo.goal = .readEnd ∧ t.mo.legs = [stopLeg .ramp] ∧
      t.rd.endLead = none ∧ t.sm = (freeSlot d.slot s).sm ∧ t.mem = s.mem ∧ t.cq = s.cq) ∧
  (∀ (tag : Word) (n : Nat) (st : Status) (leg : Leg) (s : State), quiet s = true → s.re.brake = false → s.ch.step ≠ some .backTension →
    s.ch.transport = .active → s.mo.stopping = true → atRest s = true → s.mo.legs = [leg] → s.mo.goal = .readEnd → s.mo.stack = [] →
    s.rd.ended = some st → s.ci.read = runningNow { tag := tag, op := .readRecords n } → cqOpen s = true → s.ci.state ≠ .stalled .read →
    s.pw.cancelled = none ∨ s.pw.cancelled = some .read →
    let stood := match leg.target with
      | some p => some { pass := s.mo.pass, count := p : Pos }
      | none => s.mo.stands
    exec .moveArrived s = .next (noteTarget (posted tag (.readRecords n) st 0 (.position (leBytes 4 s.rd.delivered) s.mo.lp)
      { ((s.moved .ready).unmoved).readerAtIdle with
        pw.dwell := true, mo.stands := stood, rd.start := s.rd.endLead, ci.read := Job.clear, pw.cancelled := none })))

/-! ### The codes of Chapters 5 and 6 -/

/-- The parity frames, formed from the bytes of frames 0 to 27 as they stand in the slot, make the 32 bytes at every offset satisfy the
four equations of the rule, in the field of polynomial 11Dh with α = 02h (R110). -/
def Obligations.ParityEquationsHold : Prop :=
  ∀ (bs : List Byte) (k j : Nat), bs.length = 917504 → k < 4 → j < 32768 →
    let c := fun i => if i < 28 then bs.getD (i * 32768 + j) 0 else (parityFrames bs).getD ((i - 28) * 32768 + j) 0
    (List.range 32).foldl (fun a i => a ^^^ gfMul (c i) (alpha (i * k))) 0 = 0

/-- A frame rebuilt from 28 others is the frame that was lost: wherever 32 bytes satisfy the four equations, any one of any four
unknown places is given by the bytes at the other 28 (R110, R149). -/
def Obligations.RebuildRestoresFrame : Prop :=
  ∀ (c : Nat → Byte) (unknown : List Nat) (w : Nat), unknown.length = 4 → unknown.Nodup → (∀ u ∈ unknown, u < 32) → w ∈ unknown →
    (∀ k, k < 4 → (List.range 32).foldl (fun a i => a ^^^ gfMul (c i) (alpha (i * k))) 0 = 0) →
    let known := (List.range 32).filter (fun i => !unknown.contains i)
    solveByte unknown known w (known.map c) = c w

/-- What the compressor writes the decompressor reads back: a chunk's body, taken after any history of at most 2,048 bytes, expands
to the chunk's raw bytes, and is never longer than they are (R92 to R95, R153, Law 3). -/
def Obligations.CompressionRoundTrip : Prop :=
  ∀ (on : Bool) (history raw : List Byte), history.length ≤ 2048 → raw ≠ [] → raw.length ≤ 16384 →
    let b := chunkBody on history raw
    expandChunk history b.1 b.2 raw.length = some raw ∧ b.1.length ≤ raw.length

/-! ### Chapter 9: head health -/

/-- An event adds one to its tally field, where it has one, and to every COUNT counter of its source; a tick adds the level to a LEVEL
counter, one to an ABOVE counter whose condition holds and one to an ENTER counter whose condition begins to hold; a count that reaches its
limit posts MONITOR_ALARM once, with the counter's number, its source and its count (R161 to R163; the first two in one byte each are the
model's coding, log entry 26). SET_MONITOR refuses a counter above 3, an unknown source and a mode that does not fit it, and
configures the counter afresh otherwise (R164); HEALTH_SNAPSHOT writes the persistent part and then the snapshot (R176);
SET_CLEAN_LIMITS clamps its limits, and a limit reached makes cleaning advised by usage or required by escalation, with the notice and
the attention (R168, R169, R175, R199). That the tick is a row that may come at any time is the model's reading, log entry 3. -/
def Obligations.HealthCounts : Prop :=
  (∀ (e : Ev) (i : Nat) (s : State), s.he.counters.length = 4 → i < 4 →
    (e = .frameWritten → s.he.tallyOpen = false ∨ (min (s.he.tally.frames + 1) 4294967295) % 4096 ≠ 0) →
    let counts (c : Counter) := c.source = .event e.code ∧ c.mode = .count
    let more (c : Counter) : Counter := { c with count := min (c.count + 1) 4294967295 }
    let silent (c : Counter) := c.limit = 0 ∨ c.posted = true ∨ (more c).count < c.limit
    let c := s.he.counters.getD i Counter.clear
    let tallied : State := { s with he.tally := tallyEvent e s.he.tally }
    ((∀ c ∈ s.he.counters, counts c → silent c) →
      event e s = { tallied with he.counters := s.he.counters.map (fun c => if counts c then more c else c) }) ∧
    (counts c → ¬silent c → cqOpen s = true → (∀ j, j < 4 → j ≠ i → ¬counts (s.he.counters.getD j Counter.clear)) →
      event e s = { tallied with
        he.counters := s.he.counters.set i { more c with posted := true },
        cq.queue := s.cq.queue ++ [noticeRecord .monitorAlarm ([byteOf i, byteOf e.code] ++ leBytes 4 (more c).count)] })) ∧
  (∀ t : Tally,
    let up (n : Nat) : Nat := min (n + 1) 4294967295
    tallyEvent .frameWritten t = { t with frames := up t.frames } ∧ tallyEvent .frameRewrite t = { t with rewrites := up t.rewrites } ∧
    tallyEvent .frameHeavy t = { t with heavy := up t.heavy } ∧ tallyEvent .segmentSkip t = { t with skips := up t.skips } ∧
    tallyEvent .writeError t = { t with writeErrors := up t.writeErrors } ∧ tallyEvent .readRetry t = { t with readRetries := up t.readRetries } ∧
    tallyEvent .readError t = { t with readErrors := up t.readErrors } ∧ tallyEvent .servoLoss t = { t with servoLosses := up t.servoLosses } ∧
    tallyEvent .meter t = { t with meters := up t.meters } ∧
    ∀ e ∈ [Ev.tensionExcursion, .reelStall, .backhitch, .promotion, .demotion, .demotionRejected, .parkRejected], tallyEvent e t = t) ∧
  (∀ s : State, s.he.tick = false ∨ (s.he.counters.length = 4 ∧ ∀ c ∈ s.he.counters, ∀ n, c.source ≠ .level n) →
    exec .healthTick s = .next s) ∧
  (∀ (c : Counter) (i n : Nat) (l : Layout) (s : State), s.he.tick = true → s.he.counters.length = 4 → i < 4 →
    s.he.counters.getD i Counter.clear = c → (∀ j, j < 4 → j ≠ i → (s.he.counters.getD j Counter.clear).source = .off) →
    c.source = .level n → s.bp.layout = some l → l.zd ≠ 0 →
    let sealed := (s.sm.slots.filter (fun k => decide (k.st = .sealed))).length
    let value := if n = 0 then sealed else if n = 1 then s.mo.band else s.bp.occupied * 100 / l.zd
    let holds := if c.invert then value < c.threshold else c.threshold ≤ value
    let becomes := fun (d : Counter) => exec .healthTick s = .next { s with he.counters := s.he.counters.set i d }
    let alarms := fun (d : Counter) => cqOpen s = true → exec .healthTick s = .next { s with
      he.counters := s.he.counters.set i { d with posted := true },
      cq.queue := s.cq.queue ++ [noticeRecord .monitorAlarm ([byteOf i, byteOf (65 + n)] ++ leBytes 4 d.count)] }
    let sum := min (c.count + value) 4294967295
    let one := min (c.count + 1) 4294967295
    let silent := fun m => c.limit = 0 ∨ c.posted = true ∨ m < c.limit
    (c.mode = .level → silent sum → becomes { c with count := sum }) ∧
    (c.mode = .level → ¬silent sum → alarms { c with count := sum }) ∧
    (c.mode = .above → holds → silent one → becomes { c with count := one }) ∧
    (c.mode = .above → holds → ¬silent one → alarms { c with count := one }) ∧
    (c.mode = .above → ¬holds → becomes c) ∧
    (c.mode = .enter → holds → c.prev = false → silent one → becomes { c with count := one, prev := true }) ∧
    (c.mode = .enter → holds → c.prev = false → ¬silent one → alarms { c with count := one, prev := true }) ∧
    (c.mode = .enter → ¬holds ∨ c.prev = true → becomes { c with prev := decide holds })) ∧
  (∀ (tag : Word) (m : MonitorOperands) (s : State), placeOpen .health s = true → (calm s = true ∨ quiet s = true) →
    let isEvent := 1 ≤ m.source ∧ m.source ≤ 16
    let isLevel := 65 ≤ m.source ∧ m.source ≤ 67
    let good := m.counter ≤ 3 ∧ (m.source = 0 ∨ (isEvent ∧ modeOf m.mode = .count) ∨ (isLevel ∧ modeOf m.mode ≠ .count))
    let source := if m.source = 0 then Source.off else if m.source ≤ 16 then .event m.source else .level (m.source - 65)
    (¬good → exec (.setMonitor tag m) s = .next (posted tag (.setMonitor m) .refusedOperand 0 .none s)) ∧
    (good → exec (.setMonitor tag m) s = .next (posted tag (.setMonitor m) .ok 0 .none { s with
      he.counters := s.he.counters.set m.counter
        { source := source, mode := modeOf m.mode, threshold := m.threshold, invert := m.invert, limit := m.limit, count := 0,
          posted := false, prev := false } }))) ∧
  (∀ (tag : Word) (l : Layout) (s : State), s.bp.layout = some l → placeOpen .health s = true → (calm s = true ∨ quiet s = true) →
    exec (.healthSnapshot tag) s = .next (posted tag .healthSnapshot .ok 0 .none { s with
      bp.reqs := s.bp.reqs ++ [partWrite l.histBase (persistentBytes s.he) .plain, partWrite (l.histBase + 512) (snapshotBytes s) .plain] })) ∧
  (∀ (tag : Word) (x : CleanOperands) (s : State), placeOpen .health s = true → (calm s = true ∨ quiet s = true) →
    let soft := max 1 (min x.soft 500)
    let usage := max 1000 (min x.usage 10000000)
    let escalation := max 1 (min x.escalation 50)
    let set : State := { s with
      he.soft := soft, he.hard := max soft (min x.hard 1000), he.usage := usage, he.escLimit := escalation }
    let done := fun (t : State) => posted tag (.setCleanLimits x) .ok 0 .none t
    ((s.he.clean = .ok ∧ s.he.meters < usage) ∨ (s.he.clean = .advised ∧ s.he.escCount < escalation) ∨ s.he.clean = .required ∨
        s.he.clean = .cleaning →
      exec (.setCleanLimits tag x) s = .next (done set)) ∧
    (s.he.clean = .ok → usage ≤ s.he.meters → s.cq.queue.length < 7 →
      exec (.setCleanLimits tag x) s = .next (done { set with
        he.clean := .advised, he.escCount := 0, li.attnClean := true,
        li.attn := if s.li.attn = .none then .pulseDue else s.li.attn, li.pulses := if s.li.attn = .none then 0 else s.li.pulses,
        cq.queue := s.cq.queue ++ [noticeRecord .cleanStateChanged ([0, 1, 2] ++ leBytes 4 s.he.meters ++ [255, 255])] })) ∧
    (s.he.clean = .advised → escalation ≤ s.he.escCount → s.ri.session = .closed → s.cq.queue.length < 7 →
      exec (.setCleanLimits tag x) s = .next (done { set with
        he.clean := .required, li.attnClean := true,
        li.attn := if s.li.attn = .none then .pulseDue else s.li.attn, li.pulses := if s.li.attn = .none then 0 else s.li.pulses,
        cq.queue := s.cq.queue ++ [noticeRecord .cleanStateChanged ([1, 2, 3] ++ leBytes 4 s.he.meters ++ [255, 255])] })))

/-! ### Chapter 10: command intake and completions -/

/-- A write that enables the whole sequence field of a command slot: at the intake index with the expected value it starts the slot read;
with another value it posts SEQUENCE_BREAK; to another slot, or while intake is not WAITING, it is only forwarded (R69, R178, R179). A
write of the consumer word moves C: to the value modulo N where it consumes no more than Q records, else to P; the service line
then shows whether any record is left (R187, R188). A slot read back is taken when its sequence field is the expected one: its command
enters the running or the pending place, or intake stalls on its job; an unknown code is answered by intake; any other sequence ends the
look-ahead, or is a break (R178, R180, R181). That its own row then judges the command is the model's choice, log entry 6. -/
def Obligations.CommandsTakenIn : Prop :=
  (∀ (m : Master) (a : Nat) (bs : List (Option Byte)) (l : Layout) (s : State), requestWf a bs.length = true → s.bp.layout = some l →
     s.bp.held = none → s.bp.watch = false → 256 ≤ a → insideRegion l.cmdBase (64 * l.k) a = true → a % 64 ≤ 56 →
     58 ≤ a % 64 + bs.length → (bs.getD (56 - a % 64) none).isSome = true → (bs.getD (57 - a % 64) none).isSome = true → calm s = true →
     let slot := (a - l.cmdBase) / 64
     let value := field (bs.map (·.getD 0)) (56 - a % 64) 2
     let sent : State := { s with bp.acks := s.bp.acks.add m, bp.reqs := s.bp.reqs ++ [writeOf a bs] }
     (s.ci.state = .waiting → slot = s.ci.index → value = s.ci.expected →
       exec (.sequenceWordWrite m a bs) s =
         .next { sent with bp.reqs := s.bp.reqs ++ [writeOf a bs, readOf (l.cmdBase + 64 * s.ci.index) 64 .slotRead],
                           ci.state := .reading .slot, ci.returned := none }) ∧
     (s.ci.state = .waiting → slot = s.ci.index → value ≠ s.ci.expected → cqOpen s = true →
       exec (.sequenceWordWrite m a bs) s =
         .next { sent with cq.queue := s.cq.queue ++
           [noticeRecord .sequenceBreak (leBytes 2 s.ci.index ++ leBytes 2 value ++ leBytes 2 s.ci.expected)] }) ∧
     (s.ci.state ≠ .waiting ∨ slot ≠ s.ci.index → exec (.sequenceWordWrite m a bs) s = .next sent)) ∧
  (∀ (m : Master) (a : Nat) (bs : List (Option Byte)) (l : Layout) (s : State), requestWf a bs.length = true → s.bp.layout = some l →
     s.bp.held = none → s.bp.watch = false → 256 ≤ a → insideRegion l.cmdBase (64 * l.k) a = false → a ≤ l.consumer →
     l.consumer + 4 ≤ a + bs.length → (∀ i, i < 4 → (bs.getD (l.consumer + i - a) none).isSome = true) → calm s = true → s.cq.p < l.n → s.cq.c < l.n →
     let w := field (bs.map (·.getD 0)) (l.consumer - a) 4 % l.n
     let q := (s.cq.p + l.n - s.cq.c) % l.n
     let c := if (w + l.n - s.cq.c) % l.n ≤ q then w else s.cq.p
     exec (.consumerWordWrite m a bs) s = .next
       { s with bp.acks := s.bp.acks.add m, bp.reqs := s.bp.reqs ++ [writeOf a bs], cq.c := c, cq.service := decide (s.cq.p ≠ c) }) ∧
  (∀ (k : SlotReadKind) (bs : List Byte) (l : Layout) (op : FwOp) (s : State), s.ci.state = .reading k → s.ci.returned = some bs →
    s.bp.layout = some l → calm s = true →
    let i := (s.ci.index + 1) % l.k
    let taken : State := { s with
      ci.index := i, ci.expected := if s.ci.expected = 65535 then 1 else s.ci.expected + 1,
      ci.state := .reading .lookAhead, ci.returned := none,
      bp.reqs := s.bp.reqs ++ [readOf (l.cmdBase + 64 * i) 64 .slotRead] }
    let unknown : Record := {
      notice := false, status := 2, sub := 0, rep := 0, code := field bs 0 2, present := 0, tag := slotTag bs,
      body := List.replicate 4 0 ++ List.replicate 4 255 ++ List.replicate 12 0 }
    let j := fwJob op
    let c : FwCmd := { tag := slotTag bs, op := op }
    (field bs 56 2 = s.ci.expected → slotOp bs = some op → (s.job j).running = none →
      exec .slotReadReturn s =
        .next (taken.setJob j { running := some (.cmd c), judged := false, finishing := false, pending := none })) ∧
    (field bs 56 2 = s.ci.expected → slotOp bs = some op → (s.job j).running.isSome = true → (s.job j).pending = none →
      op ≠ .writeAbort → op ≠ .readAbort →
      exec .slotReadReturn s = .next (taken.setJob j { s.job j with pending := some c })) ∧
    (field bs 56 2 = s.ci.expected → slotOp bs = some op → (s.job j).running.isSome = true → (s.job j).pending.isSome = true →
      exec .slotReadReturn s = .next { s with ci.state := .stalled j, ci.returned := none }) ∧
    (field bs 56 2 = s.ci.expected → slotOp bs = none → cqOpen s = true →
      exec .slotReadReturn s = .next { taken with
        li.lastErr := .refusedOperand,
        cq.queue := s.cq.queue ++ [unknown] }) ∧
    (field bs 56 2 ≠ s.ci.expected → k = .lookAhead →
      exec .slotReadReturn s = .next { s with ci.state := .waiting, ci.returned := none }) ∧
    (field bs 56 2 ≠ s.ci.expected → k ≠ .lookAhead → cqOpen s = true →
      exec .slotReadReturn s = .next { s with
        ci.state := .waiting, ci.returned := none,
        cq.queue := s.cq.queue ++
          [noticeRecord .sequenceBreak (leBytes 2 s.ci.index ++ leBytes 2 (field bs 56 2) ++ leBytes 2 s.ci.expected)] }))

/-- The oldest waiting record enters the internal queue when it has a free place: a job's completion frees its running place, and
the pending command becomes running, to be judged then; a notice's place becomes empty; intake that waited in POSTING reads on. With no
free place nothing changes (R178, R183, R185). The head record is written to slot P of the ring while Q is below N - 1; its grant
advances P, inverts the lap flag where P comes round to 0, and sets the service line. A full ring, an empty queue or a record still
being written leaves all as it is (R186, R188). The 32 bytes of a record (12.4): kind with the lap flag in bit 7, status, sub-code,
repeat count, code, present flags, tag, and the body from byte 12. That the row of a record's entry may come at any time is the model's
reading (log entry 28). -/
def Obligations.RecordsReachRing : Prop :=
  (∀ (k : WaitKey) (r : Record) (rest : List (WaitKey × Record)) (j : JobId) (c : FwCmd) (n : NoticeKind) (i : Nat) (l : Layout) (s : State),
    s.cq.waiting = (k, r) :: rest →
    let entered : State := { s with cq.waiting := rest, cq.queue := s.cq.queue ++ [r] }
    (8 ≤ s.cq.queue.length → exec .internalQueueEntry s = .next s) ∧
    (k = .job j → s.cq.queue.length < 8 → (s.job j).pending = none →
      exec .internalQueueEntry s = .next (entered.setJob j Job.clear)) ∧
    (k = .job j → s.cq.queue.length < 8 → (s.job j).pending = some c → s.ci.state ≠ .stalled j →
      exec .internalQueueEntry s =
        .next (entered.setJob j { running := some (.cmd c), judged := false, finishing := false, pending := none })) ∧
    (k = .notice n ∨ k = .alarm i ∨ k = .intake ∧ s.ci.state ≠ .posting → s.cq.queue.length < 8 →
      exec .internalQueueEntry s = .next entered) ∧
    (k = .intake → s.ci.state = .posting → s.bp.layout = some l → s.cq.queue.length < 8 →
      exec .internalQueueEntry s = .next { entered with
        ci.state := .reading .lookAhead, ci.returned := none,
        bp.reqs := s.bp.reqs ++ [readOf (l.cmdBase + 64 * s.ci.index) 64 .slotRead] })) ∧
  (∀ s : State, s.cq.waiting = [] → exec .internalQueueEntry s = .next s) ∧
  ((∀ (l : Layout) (r : Record) (rest : List Record) (s : State), s.bp.layout = some l → s.cq.queue = r :: rest →
     s.cq.writing = false →
     let q := (s.cq.p + l.n - s.cq.c % l.n) % l.n
     (q < l.n - 1 →
       exec .ringRecordWrite s = .next { s with
         cq.queue := rest, cq.writing := true,
         bp.reqs := s.bp.reqs ++ [partWrite (l.compBase + 32 * s.cq.p) (recordBytes s.cq.lap r) .record] }) ∧
     (l.n - 1 ≤ q → exec .ringRecordWrite s = .next s)) ∧
   (∀ s : State, s.cq.queue = [] ∨ s.cq.writing = true → exec .ringRecordWrite s = .next s) ∧
   (∀ (before rest : List Req) (r : Req) (l : Layout) (s : State), chooseGrant s = some (before, r, rest) → r.what = .record →
     r.isWrite = true → r.cls = .internal → 0 < r.len → r.len ≤ 64 - r.addr % 64 → s.bp.layout = some l →
     let p := (s.cq.p + 1) % l.n
     exec .memoryPortGrant s = .next { s with
       mem := memWriteBytes s.mem r.addr (r.data.take r.len), bp.reqs := before ++ rest, bp.starve := 0,
       cq.p := p, cq.lap := if p = 0 then !s.cq.lap else s.cq.lap, cq.writing := false,
       cq.service := decide (0 < (p + l.n - s.cq.c % l.n) % l.n) })) ∧
  (∀ (lap : Bool) (r : Record), r.body.length = 20 → r.status < 256 → r.sub < 256 → r.rep < 256 → r.code < 65536 → r.present < 256 →
     let bs := recordBytes lap r
     bs.length = 32 ∧ field bs 0 1 = (if r.notice then 2 else 1) + (if lap then 128 else 0) ∧ field bs 1 1 = r.status ∧
     field bs 2 1 = r.sub ∧ field bs 3 1 = r.rep ∧ field bs 4 2 = r.code ∧ field bs 6 1 = r.present ∧
     field bs 8 4 = r.tag.toNat ∧ bs.drop 12 = r.body)


/-! ### Chapter 11: the library link -/

/-- A header passes when its rate lies in 2,400 to 57,600 bit/s, its bytes came in time without framing errors, its address byte has
even parity and names this drive; one that fails ends the transaction, whatever its query, and one that nothing waits for changes
nothing (R191). A good STATUS, CART_ID or CLEAN_INFO is answered with the values held now and the check byte that brings the sum to
FFh; PASS_OUT with the staged reply, or with silence and LINK_LATE (R193, R195). A good header ends a drive attention in progress
(R197). A payload that is whole, in time and checked is good: LOAD_HINT and PASS_IN post LINK_REQUEST with their bytes, UNLOAD_REQ is
judged; any other payload has no effect (R192). UNLOAD_REQ is refused, with the flag set and the reason posted, while the TRANSPORT
job is held, a session is open, a read runs, or the transport is neither READY nor PARKED; otherwise the part unloads by itself
(R18, R194). A query above 6 ends the transaction, and so does a byte that does not come (R191, R192). The whole-number bounds of the rate,
and that a payload query whose payload has no row yet waits for it, are the model's reading (log entry 20); the rows that meet another phase,
and the speed that the rewind takes at once, are its choices (log entries 14 and 28). -/
def Obligations.LinkQueriesAnswered : Prop :=
  (∀ (h : LinkHeader) (s : State), headerGood h s = true ↔
    h.rateFraming = false ∧ h.rateLate = false ∧ 2400 * h.fallInterval ≤ 5000000000 ∧ 5000000000 ≤ 57600 * h.fallInterval ∧
    h.addrFraming = false ∧ h.addrLate = false ∧ ((List.range 8).filter h.addr.toNat.testBit).length % 2 = 0 ∧
    h.addr.toNat / 32 = s.li.strap.toNat) ∧
  (∀ (a : Byte) (bs : List Byte), bs.foldl (· + ·) (checkByte a bs + a) = 255) ∧
  (∀ (h : LinkHeader) (p : LinkPayload) (s t : State),
    (s.li.phase = .awaitHeader ∧ headerGood h s = false ∧
        t = { s with li.phase := .awaitAttention, li.bitTime := none, li.tx := [], li.copied := false }) ∨
      (s.li.phase ≠ .awaitHeader ∧ t = s) →
    exec (.status h) s = .next t ∧ exec (.cartId h) s = .next t ∧ exec (.cleanInfo h) s = .next t ∧ exec (.passOut h) s = .next t ∧
    exec (.loadHint h p) s = .next t ∧ exec (.unloadReq h p) s = .next t ∧ exec (.passIn h p) s = .next t ∧
    exec (.linkHeaderOther h) s = .next t) ∧
  (∀ (h : LinkHeader) (bs : List Byte) (s : State), s.li.phase = .awaitHeader → headerGood h s = true →
    let q := h.addr.toNat / 2 % 16
    let attn := if s.li.attn = .window ∨ s.li.attn = .gap then AttnState.none else s.li.attn
    let answered := fun payload => { s with
      li.phase := .answering q, li.bitTime := some (h.fallInterval / 5), li.tx := payload ++ [checkByte h.addr payload],
      li.active := true, li.idleTimer := true, li.attn := attn }
    let flags := (if s.ci.transport.running.isSome then 1 else 0) + (if s.ri.session ≠ .closed then 2 else 0) +
      (if readRunning s then 4 else 0) + (if s.li.unloadRefused then 8 else 0) + (if s.li.attnClean then 16 else 0) +
      (if s.li.attnFirmware then 32 else 0) + (if s.li.attnUnloaded then 64 else 0)
    let uses := if s.ch.recordHeld = true ∧ s.cart.cleaning = true then byteOf (50 - s.cart.uses) else 255
    (q = 0 → exec (.status h) s = .next (answered [byteOf s.ch.transport.code, byteOf s.he.clean.code, byteOf flags,
      byteOf s.li.lastErr.code])) ∧
    (q = 1 → exec (.cartId h) s = .next (answered (if s.ch.recordHeld then s.cart.serial else List.replicate 8 0))) ∧
    (q = 2 → exec (.cleanInfo h) s = .next (answered ([byteOf s.he.clean.code] ++ leBytes 2 (min (s.he.meters / 1000) 65535) ++ [uses]))) ∧
    (q = 5 → s.li.staged = some bs → exec (.passOut h) s = .next { answered bs with li.copied := true }) ∧
    (q = 5 → s.li.staged = none → cqOpen s = true →
      exec (.passOut h) s = .next { s with
        li.phase := .awaitAttention, li.bitTime := none, li.tx := [], li.copied := false, li.attn := attn,
        cq.queue := s.cq.queue ++ [noticeRecord .linkLate [5]] })) ∧
  (∀ (h : LinkHeader) (p : LinkPayload) (s : State), s.li.phase = .awaitHeader → headerGood h s = true →
    let q := h.addr.toNat / 2 % 16
    let ended : State := { s with
      li.phase := .awaitAttention, li.bitTime := none, li.tx := [], li.copied := false,
      li.attn := if s.li.attn = .window ∨ s.li.attn = .gap then .none else s.li.attn }
    let good := p.framing = false ∧ p.late = false ∧ p.bytes.length = (if q = 6 then 8 else 2) ∧
      p.bytes.foldl (· + ·) (p.check + h.addr) = 255
    let told := fun (content : List Byte) (t : State) =>
      { t with cq.queue := t.cq.queue ++ [noticeRecord .linkRequest (byteOf q :: content)] }
    let refused := fun (n : Nat) => exec (.unloadReq h p) s = .next (told (p.bytes ++ [byteOf n]) { ended with li.unloadRefused := true })
    let free := s.ci.transport = Job.clear
    (¬good → (q = 3 → exec (.loadHint h p) s = .next ended) ∧ (q = 4 → exec (.unloadReq h p) s = .next ended) ∧
      (q = 6 → exec (.passIn h p) s = .next ended)) ∧
    (good → q = 3 → cqOpen s = true → exec (.loadHint h p) s = .next (told p.bytes ended)) ∧
    (good → q = 6 → cqOpen s = true → exec (.passIn h p) s = .next (told p.bytes ended)) ∧
    (good → q = 4 → cqOpen s = true → s.ci.transport.running.isSome = true ∨ s.ci.transport.pending.isSome = true → refused 1) ∧
    (good → q = 4 → cqOpen s = true → free → s.ri.session ≠ .closed → refused 2) ∧
    (good → q = 4 → cqOpen s = true → free → s.ri.session = .closed → readRunning s = true → refused 3) ∧
    (good → q = 4 → cqOpen s = true → free → s.ri.session = .closed → readRunning s = false → s.ch.transport ≠ .ready →
      s.ch.transport ≠ .parked → refused 4) ∧
    (good → q = 4 → free → s.ci.read = Job.clear → s.ci.write = Job.clear → quiet s = true → s.ch.transport = .ready →
      s.pw.settling = false → s.re.brake = false → s.ch.seat = true → s.mo.quality ≠ .unknown → s.he.cleanDist = none → s.mo.pass = 0 →
      24000 ≤ s.mo.count →
      exec (.unloadReq h p) s = .next (noteTarget { ended.moved .unloading with
        li.unloadRefused := false, ch.step := some .rewind,
        ci.transport := { running := some (.autoUnload p.bytes), judged := true, finishing := false, pending := none },
        mo.stands := none, rd.start := none, mo.goal := .rewind, mo.bandTo := none, mo.named := 0, mo.stopping := false, mo.dest := 307,
        mo.v := 307, mo.into := none, mo.legs := [{ mode := .locate, pass := some 0, target := some 20000, speed := 307 }],
        mo.dir := .reverse })) ∧
    (7 ≤ q → exec (.linkHeaderOther h) s = .next ended) ∧
    (q = 3 ∨ q = 4 ∨ q = 6 →
      exec (.linkHeaderOther h) s =
        .next { s with li.phase := .awaitPayload, li.bitTime := some (h.fallInterval / 5), li.attn := ended.li.attn })) ∧
  (∀ s : State,
    (s.li.phase = .awaitHeader ∨ s.li.phase = .awaitPayload →
      exec .linkByteTimeout s = .next { s with
        li.phase := .awaitAttention, li.bitTime := none, li.tx := [], li.copied := false }) ∧
    (s.li.phase ≠ .awaitHeader → s.li.phase ≠ .awaitPayload → exec .linkByteTimeout s = .next s))

/-- The line: a change of level makes the link ACTIVE and starts the idle timer, whose expiry makes it IDLE; an active period of
250 µs while an attention is awaited opens a transaction, and offers LINK_WAKE when the line was idle at the period's falling edge (R37,
R190, R191). An attention whose falling edge had no row of its own is judged by the state it meets, the model's choice (log entry 28). An
answer sent clears the attention causes (STATUS) or the reply it copied (PASS_OUT); a mismatch abandons the answer and counts a
collision (R193, R195, R196). LINK_REPLY stages its 8 bytes, LINK_ATTENTION raises its cause; a due pulse is driven when the line is
released, each pulse opens a window, and the third that is not answered posts LINK_NO_ANSWER with its causes (R195, R197), whose places, those
of the flags of STATUS, are the model's coding (log entry 26). -/
def Obligations.LineAndAttention : Prop :=
  (∀ (level : Bool) (micros q : Nat) (s : State),
    let moved : State := { s with li.active := true, li.idleTimer := true }
    let idle := s.li.idleAtFall.getD (!s.li.active) = true
    let opens := s.li.phase = .awaitAttention ∧ 250 ≤ micros ∧ s.li.pulsing = false
    let header : State := { moved with li.phase := .awaitHeader, li.bitTime := none, li.idleAtFall := none }
    let ended : State := { moved with li.phase := .awaitAttention, li.bitTime := none, li.tx := [], li.copied := false }
    (s.li.line = level → exec (.lineLevelChange level) s = .next s) ∧
    (s.li.line ≠ level →
      exec (.lineLevelChange level) s =
        .next { moved with li.line := level, li.idleAtFall := if level then some (!s.li.active) else s.li.idleAtFall }) ∧
    (s.li.idleTimer = true →
      exec .linkIdleExpiry s =
        .next { s with li.idleTimer := false, li.active := false, li.idleAtFall := if s.li.line then s.li.idleAtFall else none }) ∧
    (s.li.idleTimer = false → exec .linkIdleExpiry s = .next s) ∧
    (opens → ¬idle ∨ (s.pw.linkN = false ∧ (s.ch.transport ≠ .parked ∨ s.pw.linkW = false)) →
      exec (.libraryAttention micros) s = .next header) ∧
    (opens → idle → s.ch.transport = .parked → s.pw.linkW = true → s.pw.linkN = false → s.re.brake = false →
      s.ch.step = none →
      exec (.libraryAttention micros) s = .next (noteTarget { header.moved .ready with pw.settling := true })) ∧
    (opens → idle → s.pw.linkN = true → s.ch.transport ≠ .parked ∨ s.pw.linkW = false → cqOpen s = true →
      exec (.libraryAttention micros) s =
        .next { header with cq.queue := s.cq.queue ++ [noticeRecord .wake [2, byteOf s.ch.transport.code, 0]] }) ∧
    (¬opens → exec (.libraryAttention micros) s = .next s) ∧
    (s.li.phase = .answering q → q ≠ 0 → q ≠ 5 ∨ s.li.copied = false → exec .answerSent s = .next ended) ∧
    (s.li.phase = .answering 0 →
      exec .answerSent s = .next { ended with li.attnClean := false, li.attnFirmware := false, li.attnUnloaded := false }) ∧
    (s.li.phase = .answering 5 → s.li.copied = true → exec .answerSent s = .next { ended with li.staged := none }) ∧
    (s.li.phase = .answering q →
      exec (.transmitMismatch level) s = .next { ended with
        li.collisions := min (s.li.collisions + 1) 4294967295, li.line := level, li.idleAtFall := if level then some false else none }) ∧
    (s.li.phase = .awaitAttention ∨ s.li.phase = .awaitHeader ∨ s.li.phase = .awaitPayload →
      exec .answerSent s = .next s ∧ exec (.transmitMismatch level) s = .next s)) ∧
  (∀ (tag : Word) (bs : List Byte) (s : State), placeOpen .link s = true → (calm s = true ∨ quiet s = true) →
    (bs.length = 8 → exec (.linkReply tag bs) s =
      .next (posted tag (.linkReply bs) .ok 0 .none { s with li.staged := some bs, li.copied := false })) ∧
    (exec (.linkAttention tag) s = .next (posted tag .linkAttention .ok 0 .none { s with
      li.attnFirmware := true, li.attn := if s.li.attn = .none then .pulseDue else s.li.attn,
      li.pulses := if s.li.attn = .none then 0 else s.li.pulses }))) ∧
  (∀ (level : Bool) (s : State),
    let due := s.li.attn = .pulseDue ∧ s.li.pulsing = false ∧ s.li.line = false ∧ s.li.phase = .awaitAttention
    let causes := (if s.li.attnClean then 16 else 0) + (if s.li.attnFirmware then 32 else 0) + (if s.li.attnUnloaded then 64 else 0)
    (due → exec .attentionPulseStart s = .next { s with
      li.pulsing := true, li.line := true, li.active := true, li.idleTimer := true, li.idleAtFall := some (!s.li.active) }) ∧
    (¬due → exec .attentionPulseStart s = .next s) ∧
    (s.li.pulsing = true → exec (.attentionPulseEnd level) s = .next { s with
      li.pulsing := false, li.line := level, li.active := true, li.idleTimer := true, li.idleAtFall := if level then some false else none,
      li.pulses := min 3 (s.li.pulses + 1), li.attn := .window }) ∧
    (s.li.pulsing = false → exec (.attentionPulseEnd level) s = .next s) ∧
    (s.li.attn = .window → s.li.pulses < 3 → exec .attentionWindowExpiry s = .next { s with li.attn := .gap }) ∧
    (s.li.attn = .window → 3 ≤ s.li.pulses → cqOpen s = true →
      exec .attentionWindowExpiry s = .next { s with
        li.attn := .none, cq.queue := s.cq.queue ++ [noticeRecord .linkNoAnswer [byteOf causes]] }) ∧
    (s.li.attn ≠ .window → exec .attentionWindowExpiry s = .next s) ∧
    (s.li.attn = .gap → exec .attentionGapExpiry s = .next { s with li.attn := .pulseDue }) ∧
    (s.li.attn ≠ .gap → exec .attentionGapExpiry s = .next s))
end

