-- ==== Sys2Proof/Laws/Lawful.lean ====
section
/-! SUPPORT. The laws of every state (Law 1, the span table, the two bounds): what each holds, and what the operations over the slots, the staging
watch and the internal completion queue do to them. -/

namespace Sys2Proof.Machine

/-! ### Law 1 (R108) -/

/-- Law 1 as its parts. -/
theorem slotsLawful_iff (slots : List Slot) (free : List Nat) : slotsLawful slots free = true ↔
    free.Nodup ∧ (∀ k, k ∈ free ↔ k < slots.length ∧ (slots.getD k (freshSlot .free 0)).st = .free) ∧
      (slots.filter (fun x => isFilling x.st)).length ≤ 1 ∧ (slots.filter (fun x => isOnTape x.st)).length ≤ 2 := by
  simp only [slotsLawful, Bool.and_eq_true, decide_eq_true_eq, List.all_eq_true, List.mem_range, and_assoc]
  constructor
  · rintro ⟨h1, h2, h3, h4, h5⟩
    refine ⟨h1, fun k => ⟨fun hk => ⟨h2 k hk, (h3 k (h2 k hk)).mp hk⟩, fun hk => (h3 k hk.1).mpr hk.2⟩, h4, h5⟩
  · rintro ⟨h1, h2, h4, h5⟩
    refine ⟨h1, fun k hk => ((h2 k).mp hk).1, fun k hk => ⟨fun h => ((h2 k).mp h).2, fun h => (h2 k).mpr ⟨hk, h⟩⟩, h4, h5⟩

/-- Where one entry of a list is replaced, what satisfies `p` changes by that entry alone. -/
theorem filter_set_length {α : Type} (p : α → Bool) (d v : α) (l : List α) (k : Nat) (hk : k < l.length) :
    ((l.set k v).filter p).length + (if p (l.getD k d) then 1 else 0) = (l.filter p).length + if p v then 1 else 0 := by
  induction l generalizing k with
  | nil => simp at hk
  | cons a l ih =>
    cases k with
    | zero =>
      by_cases h1 : p a = true <;> by_cases h2 : p v = true <;> simp [h1, h2]
    | succ k =>
      have := ih k (by simpa using hk)
      rw [List.set_cons_succ, List.getD_cons_succ]
      by_cases h1 : p a = true
      · simp only [List.filter_cons, h1, if_true, List.length_cons]; omega
      · simp only [List.filter_cons, h1]; simpa using this

theorem getD_set {α : Type} (d v : α) (l : List α) (k j : Nat) :
    (l.set k v).getD j d = if j = k ∧ k < l.length then v else l.getD j d := by
  by_cases h : j = k
  · subst h
    by_cases hk : j < l.length
    · simp [List.getD, hk]
    · simp [List.getD, hk]
  · simp [List.getD, h, Ne.symm h]

/-- A slot in use is replaced by one in use. -/
theorem slotsLawful_set {slots : List Slot} {free : List Nat} {k : Nat} {v : Slot} (h : slotsLawful slots free = true)
    (hk : (slots.getD k (freshSlot .free 0)).st ≠ .free) (hv : v.st ≠ .free)
    (hf : isFilling v.st = true → isFilling (slots.getD k (freshSlot .free 0)).st = true ∨ (slots.filter (fun x => isFilling x.st)).length = 0)
    (ho : isOnTape v.st = true → isOnTape (slots.getD k (freshSlot .free 0)).st = true ∨ (slots.filter (fun x => isOnTape x.st)).length < 2) :
    slotsLawful (slots.set k v) free = true := by
  rw [slotsLawful_iff] at h ⊢
  obtain ⟨h1, h2, h3, h4⟩ := h
  by_cases hl : k < slots.length
  · refine ⟨h1, fun j => ?_, ?_, ?_⟩
    · rw [h2, List.length_set, getD_set]
      by_cases hj : j = k
      · subst hj; simp only [hl, and_self, if_true]; exact iff_of_false (fun c => hk c.2) (fun c => hv c.2)
      · simp [hj]
    · have := filter_set_length (fun x => isFilling x.st) (freshSlot .free 0) v slots k hl
      by_cases hb : isFilling v.st = true
      · rcases hf hb with q | q
        · simp only [q, hb, if_true] at this; omega
        · simp only [hb, if_true] at this; omega
      · simp only [hb] at this; simp at this; omega
    · have := filter_set_length (fun x => isOnTape x.st) (freshSlot .free 0) v slots k hl
      by_cases hb : isOnTape v.st = true
      · rcases ho hb with q | q
        · simp only [q, hb, if_true] at this; omega
        · simp only [hb, if_true] at this; omega
      · simp only [hb] at this; simp at this; omega
  · rw [List.set_eq_of_length_le (by omega)]; exact ⟨h1, h2, h3, h4⟩

/-- A slot in use is freed and joins the free list. -/
theorem slotsLawful_free {slots : List Slot} {free : List Nat} {k : Nat} (h : slotsLawful slots free = true)
    (hk : (slots.getD k (freshSlot .free 0)).st ≠ .free) : slotsLawful (slots.set k (freshSlot .free 0)) (free ++ [k]) = true := by
  rw [slotsLawful_iff] at h ⊢
  obtain ⟨h1, h2, h3, h4⟩ := h
  have hl : k < slots.length := by
    by_contra hc
    exact hk (by simp [List.getD, List.getElem?_eq_none (Nat.le_of_not_lt hc), freshSlot])
  have hn : k ∉ free := fun hc => hk ((h2 k).mp hc).2
  refine ⟨?_, fun j => ?_, ?_, ?_⟩
  · exact List.nodup_append.mpr ⟨h1, List.nodup_singleton k, fun a ha b hb => by
      simp only [List.mem_singleton] at hb; subst hb; exact fun hc => hn (hc ▸ ha)⟩
  · rw [List.mem_append, h2, List.length_set, getD_set, List.mem_singleton]
    by_cases hj : j = k
    · subst hj; simp [hl, freshSlot]
    · simp [hj]
  · have := filter_set_length (fun x => isFilling x.st) (freshSlot .free 0) (freshSlot .free 0) slots k hl
    rw [if_neg (show ¬(isFilling (freshSlot .free 0).st = true) by decide)] at this
    omega
  · have := filter_set_length (fun x => isOnTape x.st) (freshSlot .free 0) (freshSlot .free 0) slots k hl
    rw [if_neg (show ¬(isOnTape (freshSlot .free 0).st = true) by decide)] at this
    omega

/-- The head of the free list is taken into a state. -/
theorem slotsLawful_take {slots : List Slot} {rest : List Nat} {k : Nat} {v : Slot} (h : slotsLawful slots (k :: rest) = true)
    (hv : v.st ≠ .free) (hf : isFilling v.st = true → (slots.filter (fun x => isFilling x.st)).length = 0)
    (ho : isOnTape v.st = true → (slots.filter (fun x => isOnTape x.st)).length < 2) : slotsLawful (slots.set k v) rest = true := by
  rw [slotsLawful_iff] at h ⊢
  obtain ⟨h1, h2, h3, h4⟩ := h
  have hk := (h2 k).mp (by simp)
  have hn := (List.nodup_cons.mp h1).1
  refine ⟨(List.nodup_cons.mp h1).2, fun j => ?_, ?_, ?_⟩
  · rw [List.length_set, getD_set]
    by_cases hj : j = k
    · subst hj; simp [hk.1, hn, hv]
    · have := h2 j
      simp only [List.mem_cons, hj, false_or] at this
      simp [hj, this]
  · have := filter_set_length (fun x => isFilling x.st) (freshSlot .free 0) v slots k hk.1
    by_cases hb : isFilling v.st = true
    · have q := hf hb
      simp only [hb, if_true] at this; omega
    · simp only [hb] at this; simp at this; omega
  · have := filter_set_length (fun x => isOnTape x.st) (freshSlot .free 0) v slots k hk.1
    by_cases hb : isOnTape v.st = true
    · have q := ho hb
      simp only [hb, if_true] at this; omega
    · simp only [hb] at this; simp at this; omega

theorem filter_freshFree_length (p : SlotState → Bool) (hp : p .free = false) (n : Nat) :
    ((List.replicate n (freshSlot .free 0)).filter (fun x => p x.st)).length = 0 := by
  rw [List.length_eq_zero_iff, List.filter_eq_nil_iff]
  intro a ha
  rw [List.eq_of_mem_replicate ha]
  simp [freshSlot, hp]

/-- A layout's slots are all FREE, in the free list in rising order (R109). -/
theorem slotsLawful_fresh (n : Nat) : slotsLawful (List.replicate n (freshSlot .free 0)) (List.range n) = true := by
  rw [slotsLawful_iff]
  refine ⟨List.nodup_range, fun k => ?_, ?_, ?_⟩
  · simp only [List.mem_range, List.length_replicate]
    constructor
    · intro hk; exact ⟨hk, by simp [List.getD, hk, freshSlot]⟩
    · exact fun h => h.1
  · rw [filter_freshFree_length _ rfl]; exact Nat.zero_le 1
  · rw [filter_freshFree_length _ rfl]; exact Nat.zero_le 2

/-! ### The span table (R75 to R77) -/

/-- The span table's law over the fields it reads: Z, release point, Rl and the spans. -/
def spansLawful (z release rl : Nat) (spans : List Span) : Bool :=
  decide (rl ≤ z) && decide (spans.length ≤ 8) &&
    apart (z - rl) 0 (spans.map (spanFrom z (if z = 0 then 0 else (release + rl) % z)))

theorem frontier_eq (s : State) : frontier s = if ringZ s = 0 then 0 else (s.bp.release + s.bp.rl) % ringZ s := by
  unfold frontier ringZ
  cases s.bp.layout <;> rfl

theorem watchLawful_eq (s : State) : watchLawful s = spansLawful (ringZ s) s.bp.release s.bp.rl s.bp.spans := by
  simp only [watchLawful, spansLawful, frontier_eq]

theorem spansLawful_nil {z release rl : Nat} (h : rl ≤ z) : spansLawful z release rl [] = true := by
  simp [spansLawful, apart, h]

theorem apart_mono {hi hi' lo lo' : Nat} {l : List (Nat × Nat)} (h : apart hi lo l = true) (h1 : hi ≤ hi') (h2 : lo' ≤ lo) :
    apart hi' lo' l = true := by
  induction l generalizing lo lo' with
  | nil => rfl
  | cons r l ih =>
    obtain ⟨a, b⟩ := r
    simp only [apart, Bool.and_eq_true, decide_eq_true_eq] at h ⊢
    exact ⟨⟨⟨by omega, h.1.1.2⟩, by omega⟩, ih h.2 (Nat.le_refl b)⟩

/-- A run merged into runs that stand apart leaves them apart (R77). -/
theorem apart_mergeRun {hi lo a b : Nat} {l : List (Nat × Nat)} (h : apart hi lo l = true) (h1 : lo < a) (h2 : a ≤ b) (h3 : b ≤ hi) :
    apart hi lo (mergeRun a b l) = true := by
  induction l generalizing lo a b with
  | nil => simp [mergeRun, apart, h1, h2, h3]
  | cons r l ih =>
    obtain ⟨c, d⟩ := r
    simp only [apart, Bool.and_eq_true, decide_eq_true_eq] at h
    obtain ⟨⟨⟨hc, hcd⟩, hd⟩, hr⟩ := h
    unfold mergeRun
    split
    · rename_i hb
      simp only [apart, Bool.and_eq_true, decide_eq_true_eq]
      exact ⟨⟨⟨h1, h2⟩, h3⟩, ⟨⟨hb, hcd⟩, hd⟩, hr⟩
    · split
      · rename_i hda
        simp only [apart, Bool.and_eq_true, decide_eq_true_eq]
        exact ⟨⟨⟨hc, hcd⟩, hd⟩, ih hr hda h2 h3⟩
      · exact ih (apart_mono hr (Nat.le_refl hi) (by omega)) (by omega) (by omega) (by omega)

theorem apart_first {hi lo : Nat} {l : List (Nat × Nat)} (h : apart hi lo l = true) : ∀ r ∈ l, lo < r.1 := by
  induction l generalizing lo with
  | nil => simp
  | cons q l ih =>
    obtain ⟨c, d⟩ := q
    simp only [apart, Bool.and_eq_true, decide_eq_true_eq] at h
    intro r hr
    rcases List.mem_cons.mp hr with rfl | hr
    · exact h.1.1.1
    · have := ih h.2 r hr; omega

/-- A merge adds at most one run, and none where the run touches one (R77). -/
theorem mergeRun_length {hi lo : Nat} (a b : Nat) {l : List (Nat × Nat)} (h : apart hi lo l = true) :
    (mergeRun a b l).length ≤ l.length + 1 ∧
      (l.any (fun r => decide (r.1 ≤ b) && decide (a ≤ r.2)) = true → (mergeRun a b l).length ≤ l.length) := by
  induction l generalizing a b lo with
  | nil => simp [mergeRun]
  | cons r l ih =>
    obtain ⟨c, d⟩ := r
    have hr := apart_first h
    simp only [apart, Bool.and_eq_true, decide_eq_true_eq] at h
    have hl := apart_first h.2
    unfold mergeRun
    split
    · rename_i hb
      refine ⟨by simp, fun ht => ?_⟩
      simp only [List.any_cons, List.any_eq_true, Bool.or_eq_true, Bool.and_eq_true, decide_eq_true_eq] at ht
      rcases ht with ht | ⟨q, hq, ht⟩
      · omega
      · have := hl q hq; omega
    · split
      · rename_i hda
        refine ⟨by have := (ih a b h.2).1; simp; omega, fun ht => ?_⟩
        simp only [List.any_cons, Bool.or_eq_true, Bool.and_eq_true, decide_eq_true_eq] at ht
        have := (ih a b h.2).2 (ht.resolve_left (by omega))
        simp; omega
      · have := (ih (min a c) (max b d) h.2).1
        simp only [List.length_cons]
        exact ⟨by omega, fun _ => this⟩

theorem ringDist_lt {z : Nat} (hz : 0 < z) (a b : Nat) : ringDist z a b < z := by
  unfold ringDist
  rw [if_neg (by omega)]
  exact Nat.mod_lt _ hz

/-- From a place to the place `n` further round. -/
theorem ringDist_add {z : Nat} (hz : 0 < z) (a n : Nat) (hn : n < z) : ringDist z a ((a + n) % z) = n := by
  unfold ringDist
  rw [if_neg (by omega)]
  have ha := Nat.mod_lt a hz
  have e : (a + n) % z = (a % z + n) % z := by rw [Nat.mod_add_mod]
  rw [e]
  by_cases hw : a % z + n < z
  · rw [Nat.mod_eq_of_lt hw]
    have : a % z + n + z - a % z = n + z := by omega
    rw [this, Nat.add_mod_right, Nat.mod_eq_of_lt hn]
  · have h2 : (a % z + n) % z = a % z + n - z := by
      rw [Nat.mod_eq_sub_mod (by omega), Nat.mod_eq_of_lt (by omega)]
    rw [h2]
    have : a % z + n - z + z - a % z = n := by omega
    rw [this, Nat.mod_eq_of_lt hn]

/-- Runs that stand apart are those of the spans made of them. -/
theorem spanFrom_toSpans {z f hi : Nat} (hz : 0 < z) {lo : Nat} {l : List (Nat × Nat)} (h : apart hi lo l = true) (hh : hi ≤ z)
    (hl : ∀ r ∈ l, r.1 < z) : (toSpans z f l).map (spanFrom z f) = l := by
  induction l generalizing lo with
  | nil => rfl
  | cons r l ih =>
    obtain ⟨a, b⟩ := r
    simp only [apart, Bool.and_eq_true, decide_eq_true_eq] at h
    have ha := hl (a, b) (by simp)
    have e1 : ringDist z f ((f + a) % z) = a := ringDist_add hz f a ha
    have e2 : ringDist z ((f + a) % z) ((f + b) % z) = b - a := by
      have e : (f + b) % z = ((f + a) % z + (b - a)) % z := by
        rw [Nat.mod_add_mod]; congr 1; omega
      rw [e]
      exact ringDist_add hz _ (b - a) (by simp only at ha; omega)
    have := ih h.2 (fun r hr => hl r (by simp [hr]))
    simp only [toSpans, List.map_cons, spanFrom, e1, e2] at this ⊢
    rw [show a + (b - a) = b by omega, List.map_map] at *
    simpa [toSpans, List.map_map] using this

theorem spanFrom_first_lt {z f : Nat} (hz : 0 < z) (spans : List Span) : ∀ r ∈ spans.map (spanFrom z f), r.1 < z := by
  intro r hr
  obtain ⟨x, -, rfl⟩ := List.mem_map.mp hr
  exact ringDist_lt hz f x.start

theorem mergeRun_first_lt {z : Nat} {a b : Nat} {l : List (Nat × Nat)} (hl : ∀ r ∈ l, r.1 < z) (ha : a < z) :
    ∀ r ∈ mergeRun a b l, r.1 < z := by
  induction l generalizing a b with
  | nil => simp [mergeRun, ha]
  | cons q l ih =>
    obtain ⟨c, d⟩ := q
    have hc := hl (c, d) (by simp)
    have hr : ∀ r ∈ l, r.1 < z := fun r h => hl r (by simp [h])
    unfold mergeRun
    split
    · intro r h
      rcases List.mem_cons.mp h with rfl | h
      · exact ha
      · exact hl r h
    · split
      · intro r h
        rcases List.mem_cons.mp h with rfl | h
        · exact hc
        · exact ih hr ha r h
      · exact ih hr (by simp only at hc; omega)

/-- A write judged ahead of the frontier leaves the span table lawful (R77). -/
theorem spansLawful_ahead {z release rl d n : Nat} {spans : List Span} (h : spansLawful z release rl spans = true) (hz : 0 < z)
    (hd : d ≠ 0) (hdz : d < z) (hn : d + n ≤ z - rl) (hf : spans.length < 8 ∨
      (spans.map (spanFrom z ((release + rl) % z))).any (fun r => decide (r.1 ≤ d + n) && decide (d ≤ r.2)) = true) :
    spansLawful z release rl (toSpans z ((release + rl) % z) (mergeRun d (d + n) (spans.map (spanFrom z ((release + rl) % z))))) = true := by
  simp only [spansLawful, Bool.and_eq_true, decide_eq_true_eq, if_neg (show ¬ z = 0 by omega)] at h ⊢
  obtain ⟨⟨h1, h2⟩, h3⟩ := h
  have ha := apart_mergeRun h3 (a := d) (b := d + n) (by omega) (by omega) hn
  refine ⟨⟨h1, ?_⟩, ?_⟩
  · have := mergeRun_length d (d + n) h3
    simp only [toSpans, List.length_map] at this ⊢
    rcases hf with hf | hf
    · omega
    · have := this.2 hf; omega
  · rw [spanFrom_toSpans hz ha (by omega) (mergeRun_first_lt (spanFrom_first_lt hz spans) hdz)]
    exact ha

/-- What a frontier advance absorbs: it advances no further than the bound, and leaves runs beyond it, apart (R76). -/
theorem absorb_apart {hi lo adv : Nat} {l : List (Nat × Nat)} (h : apart hi lo l = true) (ha : adv ≤ hi) :
    adv ≤ (absorb adv l).1 ∧ (absorb adv l).1 ≤ hi ∧ apart hi (absorb adv l).1 (absorb adv l).2 = true ∧ (absorb adv l).2.length ≤ l.length ∧
      (∀ r ∈ (absorb adv l).2, r ∈ l) := by
  induction l generalizing adv lo with
  | nil => exact ⟨Nat.le_refl _, ha, rfl, Nat.le_refl _, fun r h => h⟩
  | cons q l ih =>
    obtain ⟨c, d⟩ := q
    simp only [apart, Bool.and_eq_true, decide_eq_true_eq] at h
    unfold absorb
    split
    · obtain ⟨k1, k2, k3, k4, k5⟩ := ih (adv := max adv d) h.2 (by omega)
      exact ⟨by omega, k2, k3, by simp; omega, fun r hr => by simp [k5 r hr]⟩
    · rename_i hc
      refine ⟨Nat.le_refl _, ha, ?_, Nat.le_refl _, fun r h => h⟩
      simp only [apart, Bool.and_eq_true, decide_eq_true_eq]
      exact ⟨⟨⟨by omega, h.1.1.2⟩, h.1.2⟩, h.2⟩

theorem apart_shift {hi n lo : Nat} {l : List (Nat × Nat)} (h : apart hi (lo + n) l = true) :
    apart (hi - n) lo (l.map (fun r => (r.1 - n, r.2 - n))) = true := by
  induction l generalizing lo with
  | nil => rfl
  | cons q l ih =>
    obtain ⟨c, d⟩ := q
    simp only [apart, List.map_cons, Bool.and_eq_true, decide_eq_true_eq] at h ⊢
    refine ⟨⟨⟨by omega, by omega⟩, by omega⟩, ih ?_⟩
    rw [show d - n + n = d by omega]
    exact h.2

theorem ringDist_sub {z f n x : Nat} (hz : 0 < z) (hn : n ≤ ringDist z f x) : ringDist z ((f + n) % z) x = ringDist z f x - n := by
  have hl := ringDist_lt hz f x
  have key : ∀ g, ringDist z g x = (x + (z - g % z)) % z := by
    intro g
    have := Nat.mod_lt g hz
    unfold ringDist
    rw [if_neg (by omega)]
    congr 1
    omega
  rw [key f] at hn hl ⊢
  rw [key]
  have hf := Nat.mod_lt f hz
  rw [Nat.mod_mod]
  have e : (f + n) % z = (f % z + n) % z := by rw [Nat.mod_add_mod]
  rw [e]
  generalize f % z = g at *
  have hx := Nat.mod_lt x hz
  have e1 : ∀ y, (x + y) % z = (x % z + y) % z := fun y => by rw [Nat.mod_add_mod]
  rw [e1] at hn hl ⊢
  rw [e1 (z - g)]
  generalize x % z = y at *
  have m1 : (g + n) % z = if g + n < z then g + n else g + n - z := by
    split
    · exact Nat.mod_eq_of_lt ‹_›
    · rw [Nat.mod_eq_sub_mod (by omega), Nat.mod_eq_of_lt (by omega)]
  have m2 : (y + (z - g)) % z = if y + (z - g) < z then y + (z - g) else y - g := by
    split
    · exact Nat.mod_eq_of_lt ‹_›
    · rw [Nat.mod_eq_sub_mod (by omega), Nat.mod_eq_of_lt (by omega)]; omega
  have m3 : ∀ w, w < 2 * z → w % z = if w < z then w else w - z := by
    intro w hw
    split
    · exact Nat.mod_eq_of_lt ‹_›
    · rw [Nat.mod_eq_sub_mod (by omega), Nat.mod_eq_of_lt (by omega)]
  rw [m2] at hn
  rw [m1, m2]
  rw [m3 _ (by split <;> omega)]
  split at hn <;> (repeat' split) <;> omega

/-- The frontier advances over absorbed spans: those left keep their places, counted from the new frontier (R76). -/
theorem spansLawful_advance {z release rl n : Nat} {spans : List Span} (h : spansLawful z release rl spans = true) (hz : 0 < z)
    (hn : n ≤ z - rl) :
    spansLawful z release (min z (rl + (absorb n (spans.map (spanFrom z ((release + rl) % z)))).1))
      (toSpans z ((release + rl) % z) (absorb n (spans.map (spanFrom z ((release + rl) % z)))).2) = true := by
  simp only [spansLawful, Bool.and_eq_true, decide_eq_true_eq, if_neg (show ¬ z = 0 by omega)] at h ⊢
  obtain ⟨⟨h1, h2⟩, h3⟩ := h
  obtain ⟨k1, k2, k3, k4, k5⟩ := absorb_apart h3 hn
  generalize hr : absorb n (spans.map (spanFrom z ((release + rl) % z))) = r at *
  have hlt : ∀ q ∈ r.2, q.1 < z := fun q hq => spanFrom_first_lt hz spans q (k5 q hq)
  rw [Nat.min_eq_right (by omega)]
  refine ⟨⟨by omega, by simp only [toSpans, List.length_map] at k4 ⊢; omega⟩, ?_⟩
  have e := spanFrom_toSpans (f := (release + rl) % z) hz k3 (by omega) hlt
  have e2 : (toSpans z ((release + rl) % z) r.2).map (spanFrom z ((release + (rl + r.1)) % z)) =
      ((toSpans z ((release + rl) % z) r.2).map (spanFrom z ((release + rl) % z))).map (fun q => (q.1 - r.1, q.2 - r.1)) := by
    rw [List.map_map]
    apply List.map_congr_left
    intro x hx
    have hm : spanFrom z ((release + rl) % z) x ∈ r.2 := by
      rw [← e]; exact List.mem_map_of_mem hx
    have hg := apart_first k3 _ hm
    have : ringDist z ((release + (rl + r.1)) % z) x.start = ringDist z ((release + rl) % z) x.start - r.1 := by
      have := ringDist_sub (f := (release + rl) % z) (n := r.1) (x := x.start) hz (by simp only [spanFrom] at hg; omega)
      rw [← this, Nat.mod_add_mod, Nat.add_assoc]
    simp only [spanFrom, Function.comp_apply] at hg ⊢
    rw [this]
    simp only [Prod.mk.injEq, true_and]
    omega
  rw [e2, e]
  have := apart_shift (lo := 0) (n := r.1) (hi := z - rl) (l := r.2) (by rw [Nat.zero_add]; exact k3)
  rw [show z - (rl + r.1) = z - rl - r.1 by omega]
  exact this

/-- The release point moves on towards the frontier (R79). -/
theorem spansLawful_release {z release rl k : Nat} {spans : List Span} (h : spansLawful z release rl spans = true) (hk : k ≤ rl) :
    spansLawful z (if z = 0 then 0 else (release + k) % z) (rl - k) spans = true := by
  simp only [spansLawful, Bool.and_eq_true, decide_eq_true_eq] at h ⊢
  obtain ⟨⟨h1, h2⟩, h3⟩ := h
  refine ⟨⟨by omega, h2⟩, ?_⟩
  have e : (if z = 0 then 0 else ((if z = 0 then 0 else (release + k) % z) + (rl - k)) % z) = if z = 0 then 0 else (release + rl) % z := by
    split
    · rfl
    · rw [Nat.mod_add_mod]; congr 1; omega
  rw [e]
  exact apart_mono h3 (by omega) (Nat.le_refl 0)

/-! ### All of them -/

/-- The laws over the fields they read. -/
theorem lawful_eq (s : State) : lawful s =
    (slotsLawful s.sm.slots s.sm.free && spansLawful (ringZ s) s.bp.release s.bp.rl s.bp.spans && decide (s.cq.queue.length ≤ 8) &&
      decide (s.bp.starve ≤ 8)) := by
  simp only [lawful, watchLawful_eq]

theorem lawful_iff (s : State) : lawful s = true ↔
    slotsLawful s.sm.slots s.sm.free = true ∧ spansLawful (ringZ s) s.bp.release s.bp.rl s.bp.spans = true ∧ s.cq.queue.length ≤ 8 ∧
      s.bp.starve ≤ 8 := by
  simp only [lawful_eq, Bool.and_eq_true, decide_eq_true_eq, and_assoc]

/-- States that agree in what the laws read. -/
theorem lawful_congr {s t : State}
    (e : (t.sm.slots, t.sm.free, t.cq.queue, t.bp.starve, t.bp.layout, t.bp.release, t.bp.rl, t.bp.spans) =
      (s.sm.slots, s.sm.free, s.cq.queue, s.bp.starve, s.bp.layout, s.bp.release, s.bp.rl, s.bp.spans)) : lawful t = lawful s := by
  simp only [Prod.mk.injEq] at e
  obtain ⟨e1, e2, e3, e4, e5, e6, e7, e8⟩ := e
  simp only [lawful_eq, ringZ, e1, e2, e3, e4, e5, e6, e7, e8]

end Sys2Proof.Machine
end

