-- ==== Sys2Proof/Laws/Frame.lean ====
section
/-! SUPPORT. What every operation of the part but the memory port's grant and the resets leaves alone: the buffer memory, the queue
of waiting commands and the strap address; and that it keeps the bands legal (Law 7) and the laws of `lawful` (Law 1, the span table, the
queues). One lemma for each operation. -/

namespace Sys2Proof.Machine

/-- From `s` to `t` the memory, the queue and the strap stay; legal bands stay legal, and the laws hold on. -/
structure Keeps (s t : State) : Prop where
  mem : t.mem = s.mem
  pending : t.pending = s.pending
  strap : t.li.strap = s.li.strap
  bands : bandsLegal s = true → bandsLegal t = true
  laws : lawful s = true → lawful t = true

theorem Keeps.refl (s : State) : Keeps s s := ⟨rfl, rfl, rfl, id, id⟩

theorem Keeps.trans {s t u : State} (h : Keeps s t) (k : Keeps t u) : Keeps s u :=
  ⟨k.mem.trans h.mem, k.pending.trans h.pending, k.strap.trans h.strap, k.bands ∘ h.bands, k.laws ∘ h.laws⟩

theorem Keeps.ite {s a b : State} {c : Prop} [Decidable c] (h : Keeps s a) (k : Keeps s b) : Keeps s (if c then a else b) := by
  split <;> assumption

theorem bandsLegal_iff (s : State) : bandsLegal s = true ↔
    s.mo.band ≤ 7 ∧ s.mo.bandTo.getD 0 ≤ 7 ∧ s.sp.c ≤ 7 ∧ s.sp.dwellHigh ≤ 7 ∧ s.sp.policy.bandMin ≤ 7 ∧ s.sp.policy.bandMax ≤ 7 ∧
      s.sp.policy.readBand ≤ 7 := by
  simp [bandsLegal]

theorem bandsLegal_congr {s t : State}
    (e : (t.mo.band, t.mo.bandTo, t.sp.c, t.sp.dwellHigh, t.sp.policy) = (s.mo.band, s.mo.bandTo, s.sp.c, s.sp.dwellHigh, s.sp.policy)) :
    bandsLegal t = bandsLegal s := by
  simp only [Prod.mk.injEq] at e
  simp only [bandsLegal, e.1, e.2.1, e.2.2.1, e.2.2.2.1, e.2.2.2.2]

theorem getD_le {o : Option Nat} {n : Nat} (h : o.getD 0 ≤ 7) (k : n ≤ 7) : o.getD n ≤ 7 := by
  cases o with
  | none => exact k
  | some m => exact h

/-- A record update that leaves the memory, the queue, the strap, the bands and what the laws read as they are. -/
theorem Keeps.upd {s x : State} {bp ci cq ri sm wr rd ch re pw mo sp he li frees}
    (e : (li.strap, (mo.band, mo.bandTo, sp.c, sp.dwellHigh, sp.policy),
          (sm.slots, sm.free, cq.queue, bp.starve, bp.layout, bp.release, bp.rl, bp.spans)) =
      (x.li.strap, (x.mo.band, x.mo.bandTo, x.sp.c, x.sp.dwellHigh, x.sp.policy),
          (x.sm.slots, x.sm.free, x.cq.queue, x.bp.starve, x.bp.layout, x.bp.release, x.bp.rl, x.bp.spans))) (h : Keeps s x) :
    Keeps s ⟨x.mem, bp, ci, cq, ri, sm, wr, rd, ch, re, pw, mo, sp, he, li, frees, x.pending⟩ := by
  obtain ⟨e1, e⟩ := Prod.mk.inj e
  obtain ⟨e2, e3⟩ := Prod.mk.inj e
  exact ⟨h.mem, h.pending, e1.trans h.strap, fun k => (bandsLegal_congr e2).trans (h.bands k), fun k => (lawful_congr e3).trans (h.laws k)⟩

/-- A record update that drops the band a ramp leads to and leaves the rest of them as they are. -/
theorem Keeps.drop {s x : State} {bp ci cq ri sm wr rd ch re pw mo sp he li frees}
    (e : (li.strap, (mo.band, mo.bandTo, sp.c, sp.dwellHigh, sp.policy),
          (sm.slots, sm.free, cq.queue, bp.starve, bp.layout, bp.release, bp.rl, bp.spans)) =
      (x.li.strap, (x.mo.band, none, x.sp.c, x.sp.dwellHigh, x.sp.policy),
          (x.sm.slots, x.sm.free, x.cq.queue, x.bp.starve, x.bp.layout, x.bp.release, x.bp.rl, x.bp.spans))) (h : Keeps s x) :
    Keeps s ⟨x.mem, bp, ci, cq, ri, sm, wr, rd, ch, re, pw, mo, sp, he, li, frees, x.pending⟩ := by
  have k0 : Keeps s { x with mo.bandTo := none } :=
    ⟨h.mem, h.pending, h.strap, fun k => by
      have := (bandsLegal_iff x).mp (h.bands k)
      rw [bandsLegal_iff]
      exact ⟨this.1, Nat.zero_le 7, this.2.2⟩, fun k => (lawful_congr rfl).trans (h.laws k)⟩
  exact Keeps.upd (x := { x with mo.bandTo := none }) e k0

/-- A record update that sets bands to legal ones. -/
theorem Keeps.set {s x : State} {bp ci cq ri sm wr rd ch re pw mo sp he li frees}
    (e : (li.strap, (sm.slots, sm.free, cq.queue, bp.starve, bp.layout, bp.release, bp.rl, bp.spans)) =
      (x.li.strap, (x.sm.slots, x.sm.free, x.cq.queue, x.bp.starve, x.bp.layout, x.bp.release, x.bp.rl, x.bp.spans)))
    (hb : bandsLegal s = true → bandsLegal x = true → bandsLegal ⟨x.mem, bp, ci, cq, ri, sm, wr, rd, ch, re, pw, mo, sp, he, li, frees, x.pending⟩ = true)
    (h : Keeps s x) : Keeps s ⟨x.mem, bp, ci, cq, ri, sm, wr, rd, ch, re, pw, mo, sp, he, li, frees, x.pending⟩ := by
  obtain ⟨e1, e2⟩ := Prod.mk.inj e
  exact ⟨h.mem, h.pending, e1.trans h.strap, fun k => hb k (h.bands k), fun k => (lawful_congr e2).trans (h.laws k)⟩

/-- A change of what the laws read that keeps them. -/
theorem Keeps.law {s x t : State} (e : (t.mem, t.pending, t.li.strap) = (x.mem, x.pending, x.li.strap))
    (eb : (t.mo.band, t.mo.bandTo, t.sp.c, t.sp.dwellHigh, t.sp.policy) = (x.mo.band, x.mo.bandTo, x.sp.c, x.sp.dwellHigh, x.sp.policy))
    (hl : lawful x = true → lawful t = true) (h : Keeps s x) : Keeps s t := by
  obtain ⟨e1, e⟩ := Prod.mk.inj e
  obtain ⟨e2, e3⟩ := Prod.mk.inj e
  exact ⟨e1.trans h.mem, e2.trans h.pending, e3.trans h.strap, fun k => (bandsLegal_congr eb).trans (h.bands k), fun k => hl (h.laws k)⟩

theorem foldl_keeps {α : Type} (f : State → α → State) (l : List α) {s x : State} (k : ∀ (a : α) (t : State), Keeps s t → Keeps s (f t a))
    (h : Keeps s x) : Keeps s (l.foldl f x) := by
  induction l generalizing x with
  | nil => exact h
  | cons a l ih => exact ih (k a x h)

theorem foldl_keeps' {α : Type} (f : State → α → State) (l : List α) {s x : State} (k : ∀ (t : State) (a : α), Keeps s t → Keeps s (f t a))
    (h : Keeps s x) : Keeps s (l.foldl f x) := foldl_keeps f l (fun a t => k t a) h

theorem clampNat_le {x lo hi : Nat} (hlo : lo ≤ 7) (hhi : hi ≤ 7) : clampNat x lo hi ≤ 7 := by
  simp only [clampNat]; omega

theorem bandTarget_le {s : State} (h : bandsLegal s = true) : bandTarget s ≤ 7 := by
  rw [bandsLegal_iff] at h
  unfold bandTarget
  split
  · omega
  · exact clampNat_le (by omega) (by omega)

theorem issueWrite_keeps (cls : ReqClass) (a : Nat) (bs : List Byte) (what : Purpose) {s x : State} (h : Keeps s x) : Keeps s (issueWrite cls a bs what x) := by
  unfold issueWrite
  repeat' first
    | with_reducible exact h
    | with_reducible apply Keeps.ite
    | fail_if_no_progress (with_reducible refine Keeps.upd rfl ?_)

theorem issueRead_keeps (cls : ReqClass) (a : Nat) (n : Nat) (what : Purpose) {s x : State} (h : Keeps s x) : Keeps s (issueRead cls a n what x) := by
  unfold issueRead
  repeat' first
    | with_reducible exact h
    | with_reducible apply Keeps.ite
    | fail_if_no_progress (with_reducible refine Keeps.upd rfl ?_)

theorem forgetAll_keeps (p : Purpose) {s x : State} (h : Keeps s x) : Keeps s (forgetAll p x) := by
  unfold forgetAll
  repeat' first
    | with_reducible exact h
    | with_reducible apply Keeps.ite
    | fail_if_no_progress (with_reducible refine Keeps.upd rfl ?_)

theorem consult_keeps (a : Nat) (n : Nat) {s x : State} (h : Keeps s x) : Keeps s (consult a n x) := by
  unfold consult
  repeat' first
    | with_reducible exact h
    | with_reducible apply issueRead_keeps

theorem usedFree_keeps {s x : State} (h : Keeps s x) : Keeps s (usedFree x) := by
  unfold usedFree
  repeat' first
    | with_reducible exact h
    | with_reducible apply Keeps.ite
    | fail_if_no_progress (with_reducible refine Keeps.upd rfl ?_)

theorem setJob_keeps (j : JobId) (v : Job) {s x : State} (h : Keeps s x) : Keeps s (x.setJob j v) := by
  cases j <;> exact Keeps.upd rfl h

theorem readSlot_keeps (k : SlotReadKind) {s x : State} (h : Keeps s x) : Keeps s (readSlot k x) := by
  unfold readSlot
  repeat' first
    | with_reducible exact h
    | with_reducible apply issueRead_keeps
    | with_reducible apply Keeps.ite
    | fail_if_no_progress (with_reducible refine Keeps.upd rfl ?_)
    | fail_if_no_progress (with_reducible refine Keeps.drop rfl ?_)
    | split

theorem endRunning_keeps (j : JobId) {s x : State} (h : Keeps s x) : Keeps s (endRunning j x) := by
  unfold endRunning
  repeat' first
    | with_reducible exact h
    | with_reducible apply readSlot_keeps
    | with_reducible apply setJob_keeps
    | with_reducible apply Keeps.ite
    | fail_if_no_progress (with_reducible refine Keeps.upd rfl ?_)
    | fail_if_no_progress (with_reducible refine Keeps.drop rfl ?_)
    | split
    | dsimp only

/-- A record enters the internal queue where there is room (R185). -/
theorem cqPush_keeps (r : Record) {s x : State} (hr : x.cq.queue.length < 8) (h : Keeps s x) : Keeps s (cqPush r x) := by
  refine Keeps.law (x := x) (t := cqPush r x) rfl rfl (fun k => ?_) h
  rw [lawful_iff] at k ⊢
  exact ⟨k.1, k.2.1, by simp only [cqPush, List.length_append, List.length_singleton]; omega, k.2.2.2⟩

theorem cqOpen_room {s : State} (h : cqOpen s = true) : s.cq.queue.length < 8 := by
  simp only [cqOpen, Bool.and_eq_true, decide_eq_true_eq] at h
  exact h.1

theorem postAt_keeps (k : WaitKey) (r : Record) {s x : State} (h : Keeps s x) : Keeps s (postAt k r x) := by
  unfold postAt
  repeat' first
    | with_reducible exact h
    | exact cqOpen_room (by assumption)
    | with_reducible apply cqPush_keeps
    | fail_if_no_progress (with_reducible refine Keeps.upd rfl ?_)
    | split

theorem postNotice_keeps (k : NoticeKind) (content : List Byte) {s x : State} (h : Keeps s x) : Keeps s (postNotice k content x) := by
  unfold postNotice
  repeat' first
    | with_reducible exact h
    | with_reducible apply postAt_keeps

theorem noteStatus_keeps (st : Status) {s x : State} (h : Keeps s x) : Keeps s (noteStatus st x) := by
  unfold noteStatus
  repeat' first
    | with_reducible exact h
    | with_reducible apply Keeps.ite
    | fail_if_no_progress (with_reducible refine Keeps.upd rfl ?_)

theorem postJobEnd_keeps (j : JobId) (r : Record) {s x : State} (h : Keeps s x) : Keeps s (postJobEnd j r x) := by
  unfold postJobEnd
  repeat' first
    | with_reducible exact h
    | exact cqOpen_room (by assumption)
    | with_reducible apply cqPush_keeps
    | with_reducible apply endRunning_keeps
    | with_reducible apply setJob_keeps
    | fail_if_no_progress (with_reducible refine Keeps.upd rfl ?_)
    | split

theorem rearmAfter_keeps (j : JobId) {s x : State} (h : Keeps s x) : Keeps s (rearmAfter j x) := by
  unfold rearmAfter
  repeat' first
    | with_reducible exact h
    | with_reducible apply Keeps.ite
    | fail_if_no_progress (with_reducible refine Keeps.upd rfl ?_)

theorem complete_keeps (j : JobId) (st : Status) (sub : Nat) (r : Results) {s x : State} (h : Keeps s x) : Keeps s (complete j st sub r x) := by
  unfold complete
  repeat' first
    | with_reducible exact h
    | with_reducible apply rearmAfter_keeps
    | with_reducible apply postJobEnd_keeps
    | with_reducible apply noteStatus_keeps
    | with_reducible apply Keeps.ite
    | fail_if_no_progress (with_reducible refine Keeps.upd rfl ?_)
    | fail_if_no_progress (with_reducible refine Keeps.drop rfl ?_)
    | split
    | dsimp only

theorem completeWith_keeps (j : JobId) (st : Status) {s x : State} (h : Keeps s x) : Keeps s (completeWith j st x) := by
  unfold completeWith
  repeat' first
    | with_reducible exact h
    | with_reducible apply complete_keeps

theorem refuse_keeps (j : JobId) (c : SubCode) {s x : State} (h : Keeps s x) : Keeps s (refuse j c x) := by
  unfold refuse
  repeat' first
    | with_reducible exact h
    | with_reducible apply complete_keeps

theorem setService_keeps {s x : State} (h : Keeps s x) : Keeps s (setService x) := by
  unfold setService
  repeat' first
    | with_reducible exact h
    | with_reducible apply Keeps.ite
    | fail_if_no_progress (with_reducible refine Keeps.upd rfl ?_)
    | fail_if_no_progress (with_reducible refine Keeps.drop rfl ?_)
    | split

theorem consultCart_keeps {s x : State} (h : Keeps s x) : Keeps s (consultCart x) := by
  unfold consultCart
  repeat' first
    | with_reducible exact h
    | with_reducible apply consult_keeps
    | with_reducible apply Keeps.ite
    | fail_if_no_progress (with_reducible refine Keeps.upd rfl ?_)
    | fail_if_no_progress (with_reducible refine Keeps.drop rfl ?_)
    | split

theorem consultHead_keeps {s x : State} (h : Keeps s x) : Keeps s (consultHead x) := by
  unfold consultHead
  repeat' first
    | with_reducible exact h
    | with_reducible apply consult_keeps
    | with_reducible apply Keeps.ite
    | fail_if_no_progress (with_reducible refine Keeps.upd rfl ?_)
    | fail_if_no_progress (with_reducible refine Keeps.drop rfl ?_)
    | split

theorem consultBounds_keeps {s x : State} (h : Keeps s x) : Keeps s (consultBounds x) := by
  unfold consultBounds
  repeat' first
    | with_reducible exact h
    | with_reducible apply consultHead_keeps
    | with_reducible apply consult_keeps
    | with_reducible apply Keeps.ite
    | fail_if_no_progress (with_reducible refine Keeps.upd rfl ?_)
    | fail_if_no_progress (with_reducible refine Keeps.drop rfl ?_)
    | split

theorem putCart_keeps (c : Cart) {s x : State} (h : Keeps s x) : Keeps s (putCart c x) := by
  unfold putCart
  repeat' first
    | with_reducible exact h
    | with_reducible apply consultCart_keeps
    | with_reducible apply issueWrite_keeps
    | with_reducible apply Keeps.ite
    | fail_if_no_progress (with_reducible refine Keeps.upd rfl ?_)
    | fail_if_no_progress (with_reducible refine Keeps.drop rfl ?_)
    | split

theorem consultSlot_keeps (k : Nat) (off : Nat) (n : Nat) {s x : State} (h : Keeps s x) : Keeps s (consultSlot k off n x) := by
  unfold consultSlot
  repeat' first
    | with_reducible exact h
    | with_reducible apply consult_keeps

theorem consultLast_keeps (k : Nat) {s x : State} (h : Keeps s x) : Keeps s (consultLast k x) := by
  unfold consultLast
  repeat' first
    | with_reducible exact h
    | with_reducible apply consultSlot_keeps

theorem noteActivity_keeps {s x : State} (h : Keeps s x) : Keeps s (noteActivity x) := by
  unfold noteActivity
  repeat' first
    | with_reducible exact h
    | with_reducible apply Keeps.ite
    | fail_if_no_progress (with_reducible refine Keeps.upd rfl ?_)

theorem startAttention_keeps {s x : State} (h : Keeps s x) : Keeps s (startAttention x) := by
  unfold startAttention
  repeat' first
    | with_reducible exact h
    | with_reducible apply Keeps.ite
    | fail_if_no_progress (with_reducible refine Keeps.upd rfl ?_)

theorem alarmCheck_keeps (n : Nat) {s x : State} (h : Keeps s x) : Keeps s (alarmCheck n x) := by
  unfold alarmCheck
  repeat' first
    | with_reducible exact h
    | with_reducible apply postAt_keeps
    | with_reducible apply Keeps.ite
    | fail_if_no_progress (with_reducible refine Keeps.upd rfl ?_)

theorem bumpCounter_keeps (n : Nat) (k : Nat) {s x : State} (h : Keeps s x) : Keeps s (bumpCounter n k x) := by
  unfold bumpCounter
  repeat' first
    | with_reducible exact h
    | with_reducible apply alarmCheck_keeps
    | with_reducible apply Keeps.ite
    | fail_if_no_progress (with_reducible refine Keeps.upd rfl ?_)

theorem offerEvent_keeps (e : Ev) (n : Nat) {s x : State} (h : Keeps s x) : Keeps s (offerEvent e x n) := by
  unfold offerEvent
  repeat' first
    | with_reducible exact h
    | with_reducible apply event_keeps
    | with_reducible apply bumpCounter_keeps
    | with_reducible apply Keeps.ite

theorem offerLevel_keeps (v : Nat → Nat) (n : Nat) {s x : State} (h : Keeps s x) : Keeps s (offerLevel v x n) := by
  unfold offerLevel
  repeat' first
    | with_reducible exact h
    | with_reducible apply bumpCounter_keeps
    | with_reducible apply Keeps.ite
    | fail_if_no_progress (with_reducible refine Keeps.upd rfl ?_)
    | fail_if_no_progress (with_reducible refine Keeps.drop rfl ?_)
    | split
    | dsimp only

theorem offerAll_keeps {f : State → Nat → State} {s x : State} (h : Keeps s x) (k : ∀ (t : State) (n : Nat), Keeps s t → Keeps s (f t n)) :
    Keeps s (offerAll f x) := foldl_keeps' _ _ k h

theorem offerToCounters_keeps (e : Ev) {s x : State} (h : Keeps s x) : Keeps s (offerToCounters e x) :=
  offerAll_keeps h fun _ n k => offerEvent_keeps e n k

theorem forceBand_keeps {s x : State} (h : Keeps s x) : Keeps s (forceBand x) := by
  unfold forceBand
  repeat' first
    | with_reducible exact h
    | with_reducible apply offerToCounters_keeps
    | with_reducible apply Keeps.ite
    | fail_if_no_progress (with_reducible refine Keeps.upd rfl ?_)
    | fail_if_no_progress (with_reducible refine Keeps.drop rfl ?_)
    | split
    | dsimp only
    | fail_if_no_progress (refine Keeps.set rfl (fun k₀ k => ?_) ?_; (rw [bandsLegal_iff] at k₀ k ⊢; have := getD_le k.2.1 k.1; dsimp only; (repeat' split) <;> (try simp only [Option.getD_some, Option.getD_none]) <;> omega))

theorem changeClean_keeps (new : CleanState) (cause : CleanCause) {s x : State} (h : Keeps s x) : Keeps s (changeClean new cause x) := by
  unfold changeClean
  repeat' first
    | with_reducible exact h
    | with_reducible apply forceBand_keeps
    | with_reducible apply startAttention_keeps
    | with_reducible apply postNotice_keeps
    | with_reducible apply Keeps.ite
    | fail_if_no_progress (with_reducible refine Keeps.upd rfl ?_)

theorem usageCheck_keeps {s x : State} (h : Keeps s x) : Keeps s (usageCheck x) := by
  unfold usageCheck
  repeat' first
    | with_reducible exact h
    | with_reducible apply changeClean_keeps
    | with_reducible apply Keeps.ite

theorem escalationCheck_keeps {s x : State} (h : Keeps s x) : Keeps s (escalationCheck x) := by
  unfold escalationCheck
  repeat' first
    | with_reducible exact h
    | with_reducible apply changeClean_keeps
    | with_reducible apply Keeps.ite

theorem enterCleaning_keeps {s x : State} (h : Keeps s x) : Keeps s (enterCleaning x) := by
  unfold enterCleaning
  repeat' first
    | with_reducible exact h
    | with_reducible apply startAttention_keeps
    | with_reducible apply postNotice_keeps
    | with_reducible apply usedFree_keeps
    | with_reducible apply Keeps.ite
    | fail_if_no_progress (with_reducible refine Keeps.upd rfl ?_)

theorem cleaningFailed_keeps {s x : State} (h : Keeps s x) : Keeps s (cleaningFailed x) := by
  unfold cleaningFailed
  repeat' first
    | with_reducible exact h
    | with_reducible apply changeClean_keeps
    | with_reducible apply Keeps.ite
    | fail_if_no_progress (with_reducible refine Keeps.upd rfl ?_)

theorem checkpoint_keeps {s x : State} (h : Keeps s x) : Keeps s (checkpoint x) := by
  unfold checkpoint
  repeat' first
    | with_reducible exact h
    | with_reducible apply changeClean_keeps
    | with_reducible apply consultCart_keeps
    | with_reducible apply postNotice_keeps
    | with_reducible apply Keeps.ite
    | fail_if_no_progress (with_reducible refine Keeps.upd rfl ?_)

theorem event_keeps (e : Ev) {s x : State} (h : Keeps s x) : Keeps s (event e x) := by
  unfold event
  repeat' first
    | with_reducible exact h
    | with_reducible apply checkpoint_keeps
    | with_reducible apply offerToCounters_keeps
    | with_reducible apply Keeps.ite
    | fail_if_no_progress (with_reducible refine Keeps.upd rfl ?_)

theorem meterEvent_keeps {s x : State} (h : Keeps s x) : Keeps s (meterEvent x) := by
  unfold meterEvent
  repeat' first
    | with_reducible exact h
    | with_reducible apply event_keeps
    | with_reducible apply usageCheck_keeps
    | with_reducible apply Keeps.ite
    | fail_if_no_progress (with_reducible refine Keeps.upd rfl ?_)

theorem backhitchEvent_keeps {s x : State} (h : Keeps s x) : Keeps s (backhitchEvent x) := by
  unfold backhitchEvent
  repeat' first
    | with_reducible exact h
    | with_reducible apply event_keeps
    | with_reducible apply Keeps.ite
    | fail_if_no_progress (with_reducible refine Keeps.upd rfl ?_)

theorem loadTally_keeps {s x : State} (h : Keeps s x) : Keeps s (loadTally x) := by
  unfold loadTally
  repeat' first
    | with_reducible exact h
    | with_reducible apply escalationCheck_keeps
    | with_reducible apply Keeps.ite
    | fail_if_no_progress (with_reducible refine Keeps.upd rfl ?_)

theorem writePersistent_keeps {s x : State} (h : Keeps s x) : Keeps s (writePersistent x) := by
  unfold writePersistent
  repeat' first
    | with_reducible exact h
    | with_reducible apply issueWrite_keeps
    | with_reducible apply Keeps.ite

theorem loadSummary_keeps {s x : State} (h : Keeps s x) : Keeps s (loadSummary x) := by
  unfold loadSummary
  repeat' first
    | with_reducible exact h
    | with_reducible apply putCart_keeps
    | with_reducible apply Keeps.ite
    | fail_if_no_progress (with_reducible refine Keeps.upd rfl ?_)

theorem healthAtTagWrite_keeps {s x : State} (h : Keeps s x) : Keeps s (healthAtTagWrite x) := by
  unfold healthAtTagWrite
  repeat' first
    | with_reducible exact h
    | with_reducible apply loadSummary_keeps
    | with_reducible apply writePersistent_keeps
    | with_reducible apply checkpoint_keeps
    | with_reducible apply Keeps.ite

theorem readHistory_keeps {s x : State} (h : Keeps s x) : Keeps s (readHistory x) := by
  unfold readHistory
  repeat' first
    | with_reducible exact h
    | with_reducible apply consult_keeps
    | with_reducible apply Keeps.ite
    | fail_if_no_progress (with_reducible refine Keeps.upd rfl ?_)

theorem execHealthTick_keeps {s t : State} (e : execHealthTick s = .next t) : Keeps s t := by
  obtain rfl := Host.Outcome.next.inj e
  exact Keeps.ite (offerAll_keeps (Keeps.refl s) fun t n k => offerLevel_keeps _ n k) (Keeps.refl s)

theorem judgeSetMonitor_keeps (m : MonitorOperands) {s x : State} (h : Keeps s x) : Keeps s (judgeSetMonitor m x) := by
  unfold judgeSetMonitor
  repeat' first
    | with_reducible exact h
    | with_reducible apply completeWith_keeps
    | with_reducible apply Keeps.ite
    | fail_if_no_progress (with_reducible refine Keeps.upd rfl ?_)
    | fail_if_no_progress (with_reducible refine Keeps.drop rfl ?_)
    | split

theorem judgeSetCleanLimits_keeps (l : CleanOperands) {s x : State} (h : Keeps s x) : Keeps s (judgeSetCleanLimits l x) := by
  unfold judgeSetCleanLimits
  repeat' first
    | with_reducible exact h
    | with_reducible apply escalationCheck_keeps
    | with_reducible apply usageCheck_keeps
    | with_reducible apply completeWith_keeps
    | with_reducible apply Keeps.ite
    | fail_if_no_progress (with_reducible refine Keeps.upd rfl ?_)

theorem judgeHealthSnapshot_keeps {s x : State} (h : Keeps s x) : Keeps s (judgeHealthSnapshot x) := by
  unfold judgeHealthSnapshot
  repeat' first
    | with_reducible exact h
    | with_reducible apply writePersistent_keeps
    | with_reducible apply completeWith_keeps
    | with_reducible apply issueWrite_keeps

theorem noteTarget_keeps {s x : State} (h : Keeps s x) : Keeps s (noteTarget x) := by
  unfold noteTarget
  repeat' first
    | with_reducible exact h
    | with_reducible apply noteActivity_keeps
    | with_reducible apply Keeps.ite
    | fail_if_no_progress (with_reducible refine Keeps.upd rfl ?_)

theorem carryMovement_keeps (delta : Int) {s x : State} (h : Keeps s x) : Keeps s (carryMovement delta x) := by
  unfold carryMovement
  repeat' first
    | with_reducible exact h
    | with_reducible apply Keeps.ite
    | fail_if_no_progress (with_reducible refine Keeps.upd rfl ?_)

theorem fillWindow_keeps {s x : State} (h : Keeps s x) : Keeps s (fillWindow x) := by
  unfold fillWindow
  repeat' first
    | with_reducible exact h
    | with_reducible apply Keeps.ite
    | fail_if_no_progress (with_reducible refine Keeps.upd rfl ?_)

theorem openWindow_keeps {s x : State} (h : Keeps s x) : Keeps s (openWindow x) := by
  unfold openWindow
  repeat' first
    | with_reducible exact h
    | with_reducible apply Keeps.ite
    | fail_if_no_progress (with_reducible refine Keeps.upd rfl ?_)

theorem zeroReels_keeps {s x : State} (h : Keeps s x) : Keeps s (zeroReels x) := by
  unfold zeroReels
  repeat' first
    | with_reducible exact h
    | with_reducible apply Keeps.ite
    | fail_if_no_progress (with_reducible refine Keeps.upd rfl ?_)

theorem zeroAll_keeps {s x : State} (h : Keeps s x) : Keeps s (zeroAll x) := by
  unfold zeroAll
  repeat' first
    | with_reducible exact h
    | with_reducible apply zeroReels_keeps
    | with_reducible apply Keeps.ite
    | fail_if_no_progress (with_reducible refine Keeps.upd rfl ?_)

theorem holdIdle_keeps {s x : State} (h : Keeps s x) : Keeps s (holdIdle x) := by
  unfold holdIdle
  repeat' first
    | with_reducible exact h
    | with_reducible apply Keeps.ite
    | fail_if_no_progress (with_reducible refine Keeps.upd rfl ?_)

theorem driveArm_keeps (d : ArmDir) {s x : State} (h : Keeps s x) : Keeps s (driveArm d x) := by
  unfold driveArm
  repeat' first
    | with_reducible exact h
    | with_reducible apply Keeps.ite
    | fail_if_no_progress (with_reducible refine Keeps.upd rfl ?_)

theorem stopArm_keeps {s x : State} (h : Keeps s x) : Keeps s (stopArm x) := by
  unfold stopArm
  repeat' first
    | with_reducible exact h
    | with_reducible apply Keeps.ite
    | fail_if_no_progress (with_reducible refine Keeps.upd rfl ?_)

theorem clearMarkers_keeps {s x : State} (h : Keeps s x) : Keeps s (clearMarkers x) := by
  unfold clearMarkers
  repeat' first
    | with_reducible exact h
    | with_reducible apply issueWrite_keeps
    | with_reducible apply Keeps.ite
    | fail_if_no_progress (with_reducible refine Keeps.upd rfl ?_)
    | fail_if_no_progress (with_reducible refine Keeps.drop rfl ?_)
    | split

theorem emptyStack_keeps {s x : State} (h : Keeps s x) : Keeps s (emptyStack x) := by
  unfold emptyStack
  repeat' first
    | with_reducible exact h
    | with_reducible apply clearMarkers_keeps
    | with_reducible apply Keeps.ite
    | fail_if_no_progress (with_reducible refine Keeps.upd rfl ?_)

theorem endRecovery_keeps {s x : State} (h : Keeps s x) : Keeps s (endRecovery x) := by
  unfold endRecovery
  repeat' first
    | with_reducible exact h
    | with_reducible apply emptyStack_keeps
    | with_reducible apply Keeps.ite
    | fail_if_no_progress (with_reducible refine Keeps.upd rfl ?_)

theorem enterSleep_keeps {s x : State} (h : Keeps s x) : Keeps s (enterSleep x) := by
  unfold enterSleep
  repeat' first
    | with_reducible exact h
    | with_reducible apply zeroAll_keeps
    | with_reducible apply Keeps.ite
    | fail_if_no_progress (with_reducible refine Keeps.upd rfl ?_)

theorem followPower_keeps (old : Power) (new : Power) {s x : State} (h : Keeps s x) : Keeps s (followPower old new x) := by
  unfold followPower
  repeat' first
    | with_reducible exact h
    | with_reducible apply enterSleep_keeps
    | with_reducible apply openWindow_keeps
    | with_reducible apply Keeps.ite

theorem losePosition_keeps {s x : State} (h : Keeps s x) : Keeps s (losePosition x) := by
  unfold losePosition
  repeat' first
    | with_reducible exact h
    | with_reducible apply Keeps.ite
    | fail_if_no_progress (with_reducible refine Keeps.upd rfl ?_)

theorem leaveActive_keeps {s x : State} (h : Keeps s x) : Keeps s (leaveActive x) := by
  unfold leaveActive
  repeat' first
    | with_reducible exact h
    | with_reducible apply endRecovery_keeps
    | with_reducible apply Keeps.ite
    | fail_if_no_progress (with_reducible refine Keeps.upd rfl ?_)
    | fail_if_no_progress (with_reducible refine Keeps.drop rfl ?_)

theorem enterEffects_keeps (t : Transport) {s x : State} (h : Keeps s x) : Keeps s (enterEffects t x) := by
  unfold enterEffects
  repeat' first
    | with_reducible exact h
    | with_reducible apply losePosition_keeps
    | with_reducible apply Keeps.ite
    | fail_if_no_progress (with_reducible refine Keeps.upd rfl ?_)
    | fail_if_no_progress (with_reducible refine Keeps.drop rfl ?_)
    | split

theorem setTransport_keeps (t : Transport) {s x : State} (h : Keeps s x) : Keeps s (setTransport t x) := by
  unfold setTransport
  repeat' first
    | with_reducible exact h
    | with_reducible apply enterEffects_keeps
    | with_reducible apply leaveActive_keeps
    | with_reducible apply followPower_keeps
    | with_reducible apply holdIdle_keeps
    | with_reducible apply noteTarget_keeps
    | with_reducible apply Keeps.ite
    | fail_if_no_progress (with_reducible refine Keeps.upd rfl ?_)

theorem setStep_keeps (x_ : Step) {s x : State} (h : Keeps s x) : Keeps s (setStep x_ x) := by
  unfold setStep
  repeat' first
    | with_reducible exact h
    | with_reducible apply holdIdle_keeps
    | with_reducible apply noteTarget_keeps
    | with_reducible apply Keeps.ite
    | fail_if_no_progress (with_reducible refine Keeps.upd rfl ?_)

theorem toReady_keeps {s x : State} (h : Keeps s x) : Keeps s (toReady x) := by
  unfold toReady
  repeat' first
    | with_reducible exact h
    | with_reducible apply setTransport_keeps
    | with_reducible apply Keeps.ite
    | fail_if_no_progress (with_reducible refine Keeps.upd rfl ?_)

theorem cancelDwell_keeps (j : JobId) {s x : State} (h : Keeps s x) : Keeps s (cancelDwell j x) := by
  unfold cancelDwell
  repeat' first
    | with_reducible exact h
    | with_reducible apply event_keeps
    | with_reducible apply Keeps.ite
    | fail_if_no_progress (with_reducible refine Keeps.upd rfl ?_)

theorem cancelDwellByRestart_keeps {s x : State} (h : Keeps s x) : Keeps s (cancelDwellByRestart x) := by
  unfold cancelDwellByRestart
  repeat' first
    | with_reducible exact h
    | with_reducible apply event_keeps
    | with_reducible apply Keeps.ite
    | fail_if_no_progress (with_reducible refine Keeps.upd rfl ?_)

theorem wake_keeps {s x : State} (h : Keeps s x) : Keeps s (wake x) := by
  unfold wake
  repeat' first
    | with_reducible exact h
    | with_reducible apply setTransport_keeps
    | with_reducible apply Keeps.ite
    | fail_if_no_progress (with_reducible refine Keeps.upd rfl ?_)

theorem park_keeps {s x : State} (h : Keeps s x) : Keeps s (park x) := by
  unfold park
  repeat' first
    | with_reducible exact h
    | with_reducible apply setTransport_keeps

theorem postWake_keeps (src : WakeSource) (t : Transport) (made : Bool) {s x : State} (h : Keeps s x) : Keeps s (postWake src t made x) := by
  unfold postWake
  repeat' first
    | with_reducible exact h
    | with_reducible apply wake_keeps
    | with_reducible apply postNotice_keeps

theorem offerLinkWake_keeps {s x : State} (h : Keeps s x) : Keeps s (offerLinkWake x) := by
  unfold offerLinkWake
  repeat' first
    | with_reducible exact h
    | with_reducible apply postWake_keeps
    | with_reducible apply wake_keeps
    | with_reducible apply Keeps.ite

theorem offerData_keeps {s x : State} (h : Keeps s x) : Keeps s (offerData x) := by
  unfold offerData
  repeat' first
    | with_reducible exact h
    | with_reducible apply postWake_keeps
    | with_reducible apply wake_keeps
    | with_reducible apply Keeps.ite
    | fail_if_no_progress (with_reducible refine Keeps.upd rfl ?_)

theorem judgeSetPowerPolicy_keeps (enables : Nat) (dwell : Nat) {s x : State} (h : Keeps s x) : Keeps s (judgeSetPowerPolicy enables dwell x) := by
  unfold judgeSetPowerPolicy
  repeat' first
    | with_reducible exact h
    | with_reducible apply completeWith_keeps
    | with_reducible apply Keeps.ite
    | fail_if_no_progress (with_reducible refine Keeps.upd rfl ?_)

theorem motionStart_keeps {s x : State} (h : Keeps s x) : Keeps s (motionStart x) := by
  unfold motionStart
  repeat' first
    | with_reducible exact h
    | with_reducible apply Keeps.ite
    | fail_if_no_progress (with_reducible refine Keeps.upd rfl ?_)

theorem enterActive_keeps {s x : State} (h : Keeps s x) : Keeps s (enterActive x) := by
  unfold enterActive
  repeat' first
    | with_reducible exact h
    | with_reducible apply setTransport_keeps
    | with_reducible apply Keeps.ite

theorem checkStop_keeps {s x : State} (h : Keeps s x) : Keeps s (checkStop x) := by
  unfold checkStop
  repeat' first
    | with_reducible exact h
    | with_reducible apply Keeps.ite
    | fail_if_no_progress (with_reducible refine Keeps.upd rfl ?_)
    | fail_if_no_progress (with_reducible refine Keeps.drop rfl ?_)
    | split

theorem awaitPass_keeps (p : Nat) (m : MotionMode) (legs : List Leg) {s x : State} (h : Keeps s x) : Keeps s (awaitPass p m legs x) := by
  unfold awaitPass
  repeat' first
    | with_reducible exact h
    | with_reducible apply Keeps.ite
    | fail_if_no_progress (with_reducible refine Keeps.upd rfl ?_)

theorem beginLegs_keeps (legs : List Leg) {s x : State} (h : Keeps s x) : Keeps s (beginLegs legs x) := by
  induction legs generalizing x with
  | nil => exact Keeps.upd rfl h
  | cons leg rest ih =>
    unfold beginLegs
    repeat' first
      | with_reducible exact h
      | with_reducible apply ih
      | with_reducible apply awaitPass_keeps
      | with_reducible apply checkStop_keeps
      | with_reducible apply Keeps.ite
      | fail_if_no_progress (with_reducible refine Keeps.upd rfl ?_)
      | split

theorem startPlan_keeps (legs : List Leg) (g : Goal) {s x : State} (h : Keeps s x) : Keeps s (startPlan legs g x) := by
  unfold startPlan
  repeat' first
    | with_reducible exact h
    | with_reducible apply beginLegs_keeps
    | with_reducible apply enterActive_keeps
    | with_reducible apply motionStart_keeps
    | with_reducible apply noteTarget_keeps
    | with_reducible apply Keeps.ite
    | fail_if_no_progress (with_reducible refine Keeps.upd rfl ?_)
    | fail_if_no_progress (with_reducible refine Keeps.drop rfl ?_)

theorem planMotion_keeps (legs : List Leg) (g : Goal) {s x : State} (h : Keeps s x) : Keeps s (planMotion legs g x) := by
  unfold planMotion
  repeat' first
    | with_reducible exact h
    | with_reducible apply startPlan_keeps
    | with_reducible apply Keeps.ite
    | fail_if_no_progress (with_reducible refine Keeps.upd rfl ?_)

theorem stopThen_keeps (g : Goal) {s x : State} (h : Keeps s x) : Keeps s (stopThen g x) := by
  unfold stopThen
  repeat' first
    | with_reducible exact h
    | with_reducible apply planMotion_keeps

theorem backhitchTo_keeps (p : Pos) (g : Goal) {s x : State} (h : Keeps s x) : Keeps s (backhitchTo p g x) := by
  unfold backhitchTo
  repeat' first
    | with_reducible exact h
    | with_reducible apply planMotion_keeps

theorem locateTo_keeps (place : Pos) (g : Goal) {s x : State} (h : Keeps s x) : Keeps s (locateTo place g x) := by
  unfold locateTo
  repeat' first
    | with_reducible exact h
    | with_reducible apply planMotion_keeps

theorem rampInto_keeps (m : MotionMode) {s x : State} (h : Keeps s x) : Keeps s (rampInto m x) := by
  unfold rampInto
  repeat' first
    | with_reducible exact h
    | with_reducible apply enterActive_keeps
    | with_reducible apply motionStart_keeps
    | with_reducible apply noteTarget_keeps
    | with_reducible apply Keeps.ite
    | fail_if_no_progress (with_reducible refine Keeps.upd rfl ?_)
    | fail_if_no_progress (with_reducible refine Keeps.drop rfl ?_)

theorem rampWrite_keeps (p : Pos) {s x : State} (h : Keeps s x) : Keeps s (rampWrite p x) := by
  unfold rampWrite
  repeat' first
    | with_reducible exact h
    | with_reducible apply rampInto_keeps
    | with_reducible apply Keeps.ite
    | fail_if_no_progress (with_reducible refine Keeps.upd rfl ?_)

theorem rampRead_keeps {s x : State} (h : Keeps s x) : Keeps s (rampRead x) := by
  unfold rampRead
  repeat' first
    | with_reducible exact h
    | with_reducible apply rampInto_keeps
    | with_reducible apply Keeps.ite
    | fail_if_no_progress (with_reducible refine Keeps.upd rfl ?_)
    | fail_if_no_progress (with_reducible refine Keeps.drop rfl ?_)
    | split
    | dsimp only
    | fail_if_no_progress (refine Keeps.set rfl (fun k₀ k => ?_) ?_; (rw [bandsLegal_iff] at k₀ k ⊢; have := getD_le k.2.1 k.1; dsimp only; (repeat' split) <;> (try simp only [Option.getD_some, Option.getD_none]) <;> omega))

theorem enterWaitData_keeps {s x : State} (h : Keeps s x) : Keeps s (enterWaitData x) := by
  unfold enterWaitData
  repeat' first
    | with_reducible exact h
    | with_reducible apply enterActive_keeps
    | with_reducible apply toReady_keeps
    | with_reducible apply noteTarget_keeps
    | with_reducible apply Keeps.ite
    | fail_if_no_progress (with_reducible refine Keeps.upd rfl ?_)

theorem restart_keeps {s x : State} (h : Keeps s x) : Keeps s (restart x) := by
  unfold restart
  repeat' first
    | with_reducible exact h
    | with_reducible apply rampWrite_keeps
    | with_reducible apply backhitchTo_keeps
    | with_reducible apply cancelDwellByRestart_keeps
    | with_reducible apply Keeps.ite
    | fail_if_no_progress (with_reducible refine Keeps.upd rfl ?_)
    | fail_if_no_progress (with_reducible refine Keeps.drop rfl ?_)
    | split
    | dsimp only
    | fail_if_no_progress (refine Keeps.set rfl (fun k₀ k => ?_) ?_; (rw [bandsLegal_iff] at k₀ k ⊢; have := getD_le k.2.1 k.1; dsimp only; (repeat' split) <;> (try simp only [Option.getD_some, Option.getD_none]) <;> omega))

theorem promote_keeps (target : Nat) {s x : State} (ht : bandsLegal s = true → target ≤ 7) (h : Keeps s x) : Keeps s (promote target x) := by
  unfold promote
  repeat' first
    | with_reducible exact h
    | with_reducible apply event_keeps
    | with_reducible apply Keeps.ite
    | fail_if_no_progress (with_reducible refine Keeps.upd rfl ?_)
    | fail_if_no_progress (refine Keeps.set rfl (fun k₀ k => ?_) ?_; (have := ht k₀; rw [bandsLegal_iff] at k₀ k ⊢; dsimp only at k ⊢; omega))

theorem demote_keeps (target : Nat) {s x : State} (ht : bandsLegal s = true → target ≤ 7) (h : Keeps s x) : Keeps s (demote target x) := by
  unfold demote
  repeat' first
    | with_reducible exact h
    | with_reducible apply event_keeps
    | with_reducible apply Keeps.ite
    | fail_if_no_progress (with_reducible refine Keeps.upd rfl ?_)
    | fail_if_no_progress (refine Keeps.set rfl (fun k₀ k => ?_) ?_; (have := ht k₀; rw [bandsLegal_iff] at k₀ k ⊢; dsimp only at k ⊢; omega))

theorem decideBand_keeps (target : Nat) {s x : State} (ht : bandsLegal s = true → target ≤ 7) (h : Keeps s x) : Keeps s (decideBand target x) := by
  unfold decideBand
  repeat' first
    | with_reducible exact h
    | with_reducible exact promote_keeps target ht h
    | with_reducible exact demote_keeps target ht h
    | with_reducible apply event_keeps
    | with_reducible apply Keeps.ite
    | fail_if_no_progress (with_reducible refine Keeps.upd rfl ?_)

theorem countResidency_keeps {s x : State} (h : Keeps s x) : Keeps s (countResidency x) := by
  unfold countResidency
  repeat' first
    | with_reducible exact h
    | with_reducible apply Keeps.ite
    | fail_if_no_progress (with_reducible refine Keeps.upd rfl ?_)

theorem execIntervalExpiry_keeps {s t : State} (e : execIntervalExpiry s = .next t) : Keeps s t := by
  obtain rfl := Host.Outcome.next.inj e
  have h := Keeps.refl s
  apply Keeps.ite
  · have k : Keeps s (countResidency { s with sp.hist := (s.sp.hist ++ [s.sp.sum]).drop 1, sp.sum := 0 }) :=
      countResidency_keeps (Keeps.upd rfl h)
    exact decideBand_keeps _ (fun b => bandTarget_le (k.bands b)) k
  · exact h

theorem startSpeed_keeps {s x : State} (h : Keeps s x) : Keeps s (startSpeed x) := by
  unfold startSpeed
  repeat' first
    | with_reducible exact h
    | with_reducible apply Keeps.ite
    | fail_if_no_progress (with_reducible refine Keeps.upd rfl ?_)
    | fail_if_no_progress (with_reducible refine Keeps.drop rfl ?_)
    | split
    | dsimp only
    | fail_if_no_progress (refine Keeps.set rfl (fun k₀ k => ?_) ?_; (rw [bandsLegal_iff] at k₀ k ⊢; have := getD_le k.2.1 k.1; dsimp only; (repeat' split) <;> (try simp only [Option.getD_some, Option.getD_none]) <;> omega))

theorem stopSpeed_keeps {s x : State} (h : Keeps s x) : Keeps s (stopSpeed x) := by
  unfold stopSpeed
  repeat' first
    | with_reducible exact h
    | with_reducible apply Keeps.ite
    | fail_if_no_progress (with_reducible refine Keeps.upd rfl ?_)

theorem applyPolicy_keeps {p : StreamOperands} (hp : policyGood p = true) {s x : State} (h : Keeps s x) : Keeps s (applyPolicy p x) := by
  simp only [policyGood, Bool.and_eq_true, decide_eq_true_eq] at hp
  unfold applyPolicy
  apply Keeps.ite
  · refine Keeps.set (x := x) rfl (fun _ k => ?_) h
    rw [bandsLegal_iff] at k ⊢
    exact ⟨k.1, k.2.1, k.2.2.1, k.2.2.2.1, hp.1.1.1, hp.1.1.2, hp.1.2⟩
  · refine Keeps.set (x := x) rfl (fun _ k => ?_) h
    rw [bandsLegal_iff] at k ⊢
    exact ⟨k.1, k.2.1, clampNat_le hp.1.1.1 hp.1.1.2, k.2.2.2.1, hp.1.1.1, hp.1.1.2, hp.1.2⟩

theorem judgeSetStreamPolicy_keeps (p : StreamOperands) {s x : State} (h : Keeps s x) : Keeps s (judgeSetStreamPolicy p x) := by
  unfold judgeSetStreamPolicy
  split
  · exact completeWith_keeps _ _ (applyPolicy_keeps (by assumption) h)
  · exact completeWith_keeps _ _ h

/-- A slot in use is replaced by one in use: it becomes FILLING only where no other is, and ON_TAPE only where fewer than two are. -/
theorem setSlot_law {k : Nat} {v : Slot} {s x : State}
    (hf : isFilling v.st = true → isFilling (slotAt x k).st = true ∨ (x.sm.slots.filter (fun y => isFilling y.st)).length = 0)
    (ho : isOnTape v.st = true → isOnTape (slotAt x k).st = true ∨ (x.sm.slots.filter (fun y => isOnTape y.st)).length < 2)
    (h : Keeps s x) : Keeps s (setSlot k v x) := by
  refine Keeps.law (x := x) (t := setSlot k v x) rfl rfl (fun l => ?_) h
  rw [lawful_iff] at l ⊢
  refine ⟨?_, l.2⟩
  simp only [setSlot]
  split
  · exact l.1
  · rename_i hq
    rw [not_or] at hq
    exact slotsLawful_set l.1 hq.1 hq.2 hf ho

/-- A slot in use is replaced by one that is neither FILLING nor ON_TAPE, or is in the same state. -/
theorem setSlot_keeps (k : Nat) (v : Slot) {s x : State}
    (hv : (isFilling v.st = false ∧ isOnTape v.st = false) ∨ v.st = (slotAt x k).st) (h : Keeps s x) : Keeps s (setSlot k v x) := by
  refine setSlot_law (fun q => ?_) (fun q => ?_) h
  · rcases hv with hv | hv
    · rw [hv.1] at q; exact absurd q (by decide)
    · left; rw [hv] at q; exact q
  · rcases hv with hv | hv
    · rw [hv.2] at q; exact absurd q (by decide)
    · left; rw [hv] at q; exact q

theorem mem_insertBySeg (s : State) (k j : Nat) (l : List Nat) : j ∈ insertBySeg s k l ↔ j = k ∨ j ∈ l := by
  induction l with
  | nil => simp [insertBySeg]
  | cons a l ih =>
    unfold insertBySeg
    split
    · simp
    · simp only [List.mem_cons, ih]; tauto

theorem mem_slotsIn (f : SlotState → Bool) (s : State) (j : Nat) : j ∈ slotsIn f s ↔ j < s.sm.slots.length ∧ f (slotAt s j).st = true := by
  have : ∀ l : List Nat, j ∈ bySeg s l ↔ j ∈ l := by
    intro l
    induction l with
    | nil => simp [bySeg]
    | cons a l ih =>
      have e : bySeg s (a :: l) = insertBySeg s a (bySeg s l) := rfl
      rw [e, mem_insertBySeg, ih, List.mem_cons]
  simp [slotsIn, this]

/-- What is FILLING after slots have been freed was so before, and was not among them. -/
theorem filling_freeSlots (ks : List Nat) (s : State) (j : Nat) (h : isFilling (slotAt (freeSlots ks s) j).st = true) :
    isFilling (slotAt s j).st = true ∧ j ∉ ks := by
  induction ks generalizing s with
  | nil => exact ⟨h, by simp⟩
  | cons k ks ih =>
    obtain ⟨h1, h2⟩ := ih (freeSlot k s) h
    have e : slotAt (freeSlot k s) j = if (slotAt s k).st = .free then slotAt s j else
        if j = k ∧ k < s.sm.slots.length then freshSlot .free 0 else slotAt s j := by
      unfold freeSlot
      by_cases hf : (slotAt s k).st = .free
      · simp only [hf, decide_true, if_true]
      · simp only [hf, decide_false, if_false, Bool.false_eq_true]
        exact getD_set _ _ _ _ _
    rw [e] at h1
    have hj : j ≠ k := by
      rintro rfl
      split at h1
      · rename_i q; rw [q] at h1; exact absurd h1 (by decide)
      · split at h1
        · exact absurd h1 (by decide)
        · rename_i q1 q2
          have : ¬ j < s.sm.slots.length := fun c => q2 ⟨rfl, c⟩
          exact q1 (by simp [slotAt, List.getD, List.getElem?_eq_none (Nat.le_of_not_lt this), freshSlot])
    refine ⟨?_, by simp [hj, h2]⟩
    split at h1
    · exact h1
    · rw [if_neg (fun c => hj c.1)] at h1; exact h1

theorem freeSlot_keeps (k : Nat) {s x : State} (h : Keeps s x) : Keeps s (freeSlot k x) := by
  refine Keeps.law (x := x) (t := freeSlot k x) rfl rfl (fun l => ?_) h
  rw [lawful_iff] at l ⊢
  refine ⟨?_, l.2⟩
  by_cases hf : (slotAt x k).st = .free
  · simpa [freeSlot, hf] using l.1
  · simpa [freeSlot, hf] using slotsLawful_free l.1 hf

theorem freeSlots_keeps (ks : List Nat) {s x : State} (h : Keeps s x) : Keeps s (freeSlots ks x) := by
  induction ks generalizing x with
  | nil => exact h
  | cons k ks ih => exact ih (freeSlot_keeps k h)

/-- The head of the free list is taken into a read-side state. -/
theorem takeFree_keeps {st : SlotState} {seg k : Nat} {s x t : State} (hst : st ≠ .free ∧ isFilling st = false ∧ isOnTape st = false) (h : Keeps s x)
    (e : takeFree st seg x = some (k, t)) : Keeps s t := by
  unfold takeFree at e
  split at e
  · cases e
  · rename_i hq
    cases e
    refine Keeps.law (x := x) rfl rfl (fun l => ?_) h
    rw [lawful_iff] at l ⊢
    refine ⟨?_, l.2⟩
    rw [hq] at l
    exact slotsLawful_take l.1 hst.1 (fun q => absurd (hst.2.1.symm.trans q) (by decide)) (fun q => absurd (hst.2.2.symm.trans q) (by decide))

theorem writeEntry_keeps (k : Nat) (j : Nat) (bs : List Byte) {s x : State} (h : Keeps s x) : Keeps s (writeEntry k j bs x) := by
  unfold writeEntry
  repeat' first
    | with_reducible exact h
    | with_reducible apply issueWrite_keeps

theorem serveParity_keeps {s x : State} (h : Keeps s x) : Keeps s (serveParity x) := by
  unfold serveParity
  repeat' first
    | with_reducible exact h
    | with_reducible apply issueRead_keeps
    | with_reducible apply Keeps.ite
    | fail_if_no_progress (with_reducible refine Keeps.upd rfl ?_)
    | fail_if_no_progress (with_reducible refine Keeps.drop rfl ?_)
    | split

theorem joinParity_keeps (k : Nat) {s x : State} (h : Keeps s x) : Keeps s (joinParity k x) := by
  unfold joinParity
  repeat' first
    | with_reducible exact h
    | with_reducible apply serveParity_keeps
    | with_reducible apply setSlot_keeps
    | with_reducible apply Keeps.ite
    | fail_if_no_progress (with_reducible refine Keeps.upd rfl ?_)
    | exact .inl ⟨rfl, rfl⟩

theorem stopParity_keeps {s x : State} (h : Keeps s x) : Keeps s (stopParity x) := by
  unfold stopParity
  repeat' first
    | with_reducible exact h
    | with_reducible apply forgetAll_keeps
    | with_reducible apply Keeps.ite
    | fail_if_no_progress (with_reducible refine Keeps.upd rfl ?_)

theorem closeFragment_keeps (k : Nat) {s x : State} (h : Keeps s x) : Keeps s (closeFragment k x) := by
  unfold closeFragment
  repeat' first
    | with_reducible exact h
    | with_reducible apply writeEntry_keeps
    | with_reducible apply Keeps.ite
    | fail_if_no_progress (with_reducible refine Keeps.upd rfl ?_)
    | fail_if_no_progress (with_reducible refine Keeps.drop rfl ?_)
    | split

theorem sealSlot_keeps {s x : State} (h : Keeps s x) : Keeps s (sealSlot x) := by
  unfold sealSlot
  repeat' first
    | with_reducible exact h
    | with_reducible apply closeFragment_keeps
    | with_reducible apply consultSlot_keeps
    | with_reducible apply joinParity_keeps
    | with_reducible apply writeEntry_keeps
    | with_reducible apply issueWrite_keeps
    | with_reducible apply Keeps.ite
    | fail_if_no_progress (with_reducible refine Keeps.upd rfl ?_)
    | fail_if_no_progress (with_reducible refine Keeps.drop rfl ?_)
    | split

theorem freeEmptyFilling_keeps {s x : State} (h : Keeps s x) : Keeps s (freeEmptyFilling x) := by
  unfold freeEmptyFilling
  repeat' first
    | with_reducible exact h
    | with_reducible apply freeSlot_keeps
    | with_reducible apply Keeps.ite
    | fail_if_no_progress (with_reducible refine Keeps.upd rfl ?_)
    | fail_if_no_progress (with_reducible refine Keeps.drop rfl ?_)
    | split

theorem stopWatch_keeps {s x : State} (h : Keeps s x) : Keeps s (stopWatch x) := by
  refine Keeps.law (x := x) (t := stopWatch x) rfl rfl (fun l => ?_) h
  rw [lawful_iff] at l ⊢
  exact ⟨l.1, spansLawful_nil (Nat.zero_le _), l.2.2⟩

theorem stopIntake_keeps {s x : State} (h : Keeps s x) : Keeps s (stopIntake x) := by
  unfold stopIntake
  repeat' first
    | with_reducible exact h
    | with_reducible apply forgetAll_keeps
    | with_reducible apply Keeps.ite
    | fail_if_no_progress (with_reducible refine Keeps.upd rfl ?_)

theorem postSessionError_keeps (st : Status) {s x : State} (h : Keeps s x) : Keeps s (postSessionError st x) := by
  unfold postSessionError
  repeat' first
    | with_reducible exact h
    | with_reducible apply sessionError_keeps
    | with_reducible apply noteStatus_keeps
    | with_reducible apply postNotice_keeps

theorem backToSealed_keeps (k : Nat) {s x : State} (h : Keeps s x) : Keeps s (backToSealed k x) := by
  unfold backToSealed
  repeat' first
    | with_reducible exact h
    | with_reducible apply setSlot_keeps
    | exact .inl ⟨rfl, rfl⟩

theorem allBackToSealed_keeps (ks : List Nat) {s x : State} (h : Keeps s x) : Keeps s (allBackToSealed ks x) := by
  induction ks generalizing x with
  | nil => exact h
  | cons k ks ih => exact ih (backToSealed_keeps k h)

theorem dropWriter_keeps {s x : State} (h : Keeps s x) : Keeps s (dropWriter x) := by
  unfold dropWriter
  repeat' first
    | with_reducible exact h
    | with_reducible apply Keeps.ite
    | fail_if_no_progress (with_reducible refine Keeps.upd rfl ?_)
    | fail_if_no_progress (with_reducible refine Keeps.drop rfl ?_)

theorem dropOnTape_keeps {s x : State} (h : Keeps s x) : Keeps s (dropOnTape x) := by
  unfold dropOnTape
  repeat' first
    | with_reducible exact h
    | with_reducible apply dropWriter_keeps
    | with_reducible apply freeSlots_keeps
    | with_reducible apply Keeps.ite

theorem sessionError_keeps (st : Status) {s x : State} (h : Keeps s x) : Keeps s (sessionError st x) := by
  unfold sessionError
  repeat' first
    | with_reducible exact h
    | with_reducible apply dropOnTape_keeps
    | with_reducible apply dropWriter_keeps
    | with_reducible apply allBackToSealed_keeps
    | with_reducible apply postSessionError_keeps
    | with_reducible apply stopIntake_keeps
    | with_reducible apply stopWatch_keeps
    | with_reducible apply freeEmptyFilling_keeps
    | with_reducible apply sealSlot_keeps
    | with_reducible apply Keeps.ite
    | fail_if_no_progress (with_reducible refine Keeps.upd rfl ?_)
    | fail_if_no_progress (with_reducible refine Keeps.drop rfl ?_)

theorem closeSession_keeps {s x : State} (h : Keeps s x) : Keeps s (closeSession x) := by
  unfold closeSession
  repeat' first
    | with_reducible exact h
    | with_reducible apply stopIntake_keeps
    | with_reducible apply stopWatch_keeps
    | with_reducible apply stopSpeed_keeps
    | with_reducible apply Keeps.ite
    | fail_if_no_progress (with_reducible refine Keeps.upd rfl ?_)

theorem endWriter_keeps {s x : State} (h : Keeps s x) : Keeps s (endWriter x) := by
  unfold endWriter
  repeat' first
    | with_reducible exact h
    | with_reducible apply toReady_keeps
    | with_reducible apply Keeps.ite
    | fail_if_no_progress (with_reducible refine Keeps.upd rfl ?_)

theorem checkFlush_keeps {s x : State} (h : Keeps s x) : Keeps s (checkFlush x) := by
  unfold checkFlush
  repeat' first
    | with_reducible exact h
    | with_reducible apply complete_keeps
    | with_reducible apply Keeps.ite
    | fail_if_no_progress (with_reducible refine Keeps.upd rfl ?_)
    | fail_if_no_progress (with_reducible refine Keeps.drop rfl ?_)
    | split

theorem checkClose_keeps {s x : State} (h : Keeps s x) : Keeps s (checkClose x) := by
  unfold checkClose
  repeat' first
    | with_reducible exact h
    | with_reducible apply endWriter_keeps
    | with_reducible apply closeSession_keeps
    | with_reducible apply freeEmptyFilling_keeps
    | with_reducible apply freeSlots_keeps
    | with_reducible apply complete_keeps
    | with_reducible apply Keeps.ite
    | fail_if_no_progress (with_reducible refine Keeps.upd rfl ?_)
    | fail_if_no_progress (with_reducible refine Keeps.drop rfl ?_)
    | split

theorem abortWaiting_keeps {s x : State} (h : Keeps s x) : Keeps s (abortWaiting x) := by
  unfold abortWaiting
  repeat' first
    | with_reducible exact h
    | with_reducible apply completeWith_keeps
    | with_reducible apply Keeps.ite
    | fail_if_no_progress (with_reducible refine Keeps.upd rfl ?_)
    | fail_if_no_progress (with_reducible refine Keeps.drop rfl ?_)
    | split

theorem abortSession_keeps {s x : State} (h : Keeps s x) : Keeps s (abortSession x) := by
  unfold abortSession
  repeat' first
    | with_reducible exact h
    | with_reducible apply closeSession_keeps
    | with_reducible apply dropWriter_keeps
    | with_reducible apply stopParity_keeps
    | with_reducible apply freeSlots_keeps
    | with_reducible apply Keeps.ite
    | fail_if_no_progress (with_reducible refine Keeps.upd rfl ?_)

theorem endMotion_keeps (atSlot : Bool) (unload : Bool) {s x : State} (h : Keeps s x) : Keeps s (endMotion atSlot unload x) := by
  unfold endMotion
  repeat' first
    | with_reducible exact h
    | with_reducible apply dropOnTape_keeps
    | with_reducible apply stopThen_keeps
    | with_reducible apply toReady_keeps
    | with_reducible apply endRecovery_keeps
    | with_reducible apply Keeps.ite
    | fail_if_no_progress (with_reducible refine Keeps.upd rfl ?_)
    | fail_if_no_progress (with_reducible refine Keeps.drop rfl ?_)
    | split

theorem checkRestart_keeps {s x : State} (h : Keeps s x) : Keeps s (checkRestart x) := by
  unfold checkRestart
  repeat' first
    | with_reducible exact h
    | with_reducible apply restart_keeps
    | with_reducible apply Keeps.ite

theorem checkExhaustion_keeps {s x : State} (h : Keeps s x) : Keeps s (checkExhaustion x) := by
  unfold checkExhaustion
  repeat' first
    | with_reducible exact h
    | with_reducible apply wake_keeps
    | with_reducible apply Keeps.ite

theorem advanceCursor_keeps (n : Nat) {s x : State} (h : Keeps s x) : Keeps s (advanceCursor n x) := by
  unfold advanceCursor
  repeat' first
    | with_reducible exact h
    | with_reducible apply Keeps.ite
    | fail_if_no_progress (with_reducible refine Keeps.upd rfl ?_)

theorem releaseBytes_keeps (n : Nat) {s x : State} (h : Keeps s x) : Keeps s (releaseBytes n x) := by
  refine Keeps.law (x := x) (t := releaseBytes n x) rfl rfl (fun l => ?_) h
  rw [lawful_iff] at l ⊢
  exact ⟨l.1, spansLawful_release l.2.1 (Nat.min_le_right n x.bp.rl), l.2.2⟩

theorem takePad_keeps (n : Nat) {s x : State} (h : Keeps s x) : Keeps s (takePad n x) := by
  unfold takePad
  repeat' first
    | with_reducible exact h
    | with_reducible apply releaseBytes_keeps
    | with_reducible apply advanceCursor_keeps
    | with_reducible apply Keeps.ite
    | fail_if_no_progress (with_reducible refine Keeps.upd rfl ?_)

theorem placeMarker_keeps (num : Nat) {s x : State} (h : Keeps s x) : Keeps s (placeMarker num x) := by
  unfold placeMarker
  repeat' first
    | with_reducible exact h
    | with_reducible apply writeEntry_keeps
    | with_reducible apply Keeps.ite
    | fail_if_no_progress (with_reducible refine Keeps.upd rfl ?_)
    | fail_if_no_progress (with_reducible refine Keeps.drop rfl ?_)
    | split

theorem finishStop_keeps {s x : State} (h : Keeps s x) : Keeps s (finishStop x) := by
  unfold finishStop
  repeat' first
    | with_reducible exact h
    | with_reducible apply freeEmptyFilling_keeps
    | with_reducible apply sealSlot_keeps
    | with_reducible apply Keeps.ite
    | fail_if_no_progress (with_reducible refine Keeps.upd rfl ?_)

theorem takeSlot_keeps {s x t : State} (h : Keeps s x) (e : takeSlot x = some t) : Keeps s t := by
  unfold takeSlot at e
  split at e
  · cases e
  · rename_i k y hy
    cases e
    refine Keeps.upd rfl ?_
    split at hy
    · cases hy
    · rename_i hn
      unfold takeFree at hy
      split at hy
      · cases hy
      · rename_i hq
        cases hy
        refine Keeps.law (x := x) rfl rfl (fun l => ?_) h
        rw [lawful_iff] at l ⊢
        refine ⟨?_, l.2⟩
        rw [hq] at l
        refine slotsLawful_take l.1 (fun q => SlotState.noConfusion q) (fun _ => ?_) (fun q => absurd (show isOnTape .filling = true from q) (by decide))
        rw [List.length_eq_zero_iff, List.filter_eq_nil_iff]
        intro a ha hc
        exact hn (List.any_eq_true.mpr ⟨a, ha, hc⟩)

theorem markRecord_keeps (cur : Option RecordInProgress) {s x : State} (h : Keeps s x) : Keeps s (markRecord cur x) := by
  unfold markRecord
  repeat' first
    | with_reducible exact h
    | with_reducible refine takeSlot_keeps ?_ (by assumption)
    | with_reducible apply finishStop_keeps
    | with_reducible apply placeMarker_keeps
    | with_reducible apply writeEntry_keeps
    | with_reducible apply Keeps.ite
    | fail_if_no_progress (with_reducible refine Keeps.upd rfl ?_)
    | fail_if_no_progress (with_reducible refine Keeps.drop rfl ?_)
    | split

theorem stopSession_keeps (st : Status) {s x : State} (h : Keeps s x) : Keeps s (stopSession st x) := by
  unfold stopSession
  repeat' first
    | with_reducible exact h
    | with_reducible apply markRecord_keeps
    | with_reducible apply finishStop_keeps
    | with_reducible apply placeMarker_keeps
    | with_reducible apply postSessionError_keeps
    | with_reducible apply stopIntake_keeps
    | with_reducible apply stopWatch_keeps
    | with_reducible apply writeEntry_keeps
    | with_reducible refine takeSlot_keeps ?_ (by assumption)
    | with_reducible apply Keeps.ite
    | fail_if_no_progress (with_reducible refine Keeps.upd rfl ?_)

theorem placeFilemark_keeps (k : Nat) {s x : State} (h : Keeps s x) : Keeps s (placeFilemark k x) := by
  unfold placeFilemark
  repeat' first
    | with_reducible exact h
    | with_reducible apply releaseBytes_keeps
    | with_reducible apply writeEntry_keeps
    | with_reducible apply Keeps.ite
    | fail_if_no_progress (with_reducible refine Keeps.upd rfl ?_)

theorem readStaging_keeps (off : Nat) (n : Nat) (what : Purpose) {s x : State} (h : Keeps s x) : Keeps s (readStaging off n what x) := by
  unfold readStaging
  repeat' first
    | with_reducible exact h
    | with_reducible apply issueRead_keeps
    | with_reducible apply Keeps.ite
    | fail_if_no_progress (with_reducible refine Keeps.upd rfl ?_)
    | fail_if_no_progress (with_reducible refine Keeps.drop rfl ?_)
    | split

theorem fetchChunk_keeps (raw : Nat) {s x : State} (h : Keeps s x) : Keeps s (fetchChunk raw x) := by
  unfold fetchChunk
  repeat' first
    | with_reducible exact h
    | with_reducible apply readStaging_keeps
    | with_reducible apply Keeps.ite
    | fail_if_no_progress (with_reducible refine Keeps.upd rfl ?_)

theorem startRecompress_keeps (raw : Nat) {s x : State} (h : Keeps s x) : Keeps s (startRecompress raw x) := by
  unfold startRecompress
  repeat' first
    | with_reducible exact h
    | with_reducible apply fetchChunk_keeps
    | with_reducible apply Keeps.ite
    | fail_if_no_progress (with_reducible refine Keeps.upd rfl ?_)

theorem startPlacement_keeps (raw : Nat) (compressed : Bool) {s x : State} (h : Keeps s x) : Keeps s (startPlacement raw compressed x) := by
  unfold startPlacement
  repeat' first
    | with_reducible exact h
    | with_reducible apply fetchChunk_keeps
    | with_reducible apply Keeps.ite

theorem tryPlace_keeps {s x : State} (h : Keeps s x) : Keeps s (tryPlace x) := by
  unfold tryPlace
  repeat' first
    | with_reducible exact h
    | with_reducible apply startPlacement_keeps
    | with_reducible apply closeFragment_keeps
    | with_reducible apply startRecompress_keeps
    | with_reducible apply placeFilemark_keeps
    | with_reducible apply sealSlot_keeps
    | with_reducible refine takeSlot_keeps ?_ (by assumption)
    | with_reducible apply Keeps.ite
    | fail_if_no_progress (with_reducible refine Keeps.upd rfl ?_)
    | fail_if_no_progress (with_reducible refine Keeps.drop rfl ?_)
    | split
    | dsimp only

theorem finishChunk_keeps {s x : State} (h : Keeps s x) : Keeps s (finishChunk x) := by
  unfold finishChunk
  repeat' first
    | with_reducible exact h
    | with_reducible apply tryPlace_keeps
    | with_reducible apply Keeps.ite
    | fail_if_no_progress (with_reducible refine Keeps.upd rfl ?_)

theorem startChunk_keeps {s x : State} (h : Keeps s x) : Keeps s (startChunk x) := by
  unfold startChunk
  repeat' first
    | with_reducible exact h
    | with_reducible apply Keeps.ite
    | fail_if_no_progress (with_reducible refine Keeps.upd rfl ?_)

theorem parseHeader_keeps {s x : State} (h : Keeps s x) : Keeps s (parseHeader x) := by
  unfold parseHeader
  repeat' first
    | with_reducible exact h
    | with_reducible apply startChunk_keeps
    | with_reducible apply tryPlace_keeps
    | with_reducible apply stopSession_keeps
    | with_reducible apply Keeps.ite
    | fail_if_no_progress (with_reducible refine Keeps.upd rfl ?_)

theorem consume_keeps (n : Nat) (bs : List Byte) {s x : State} (h : Keeps s x) : Keeps s (consume n bs x) := by
  induction n generalizing x bs with
  | zero => exact h
  | succ n ih =>
    unfold consume
    repeat' first
      | with_reducible exact h
      | with_reducible apply ih
      | with_reducible apply finishChunk_keeps
      | with_reducible apply parseHeader_keeps
      | with_reducible apply advanceCursor_keeps
      | with_reducible apply releaseBytes_keeps
      | with_reducible apply Keeps.ite
      | fail_if_no_progress (with_reducible refine Keeps.upd rfl ?_)
      | split

theorem startFetch_keeps {s x : State} (h : Keeps s x) : Keeps s (startFetch x) := by
  unfold startFetch
  repeat' first
    | with_reducible exact h
    | with_reducible apply issueRead_keeps
    | with_reducible apply Keeps.ite
    | fail_if_no_progress (with_reducible refine Keeps.upd rfl ?_)
    | fail_if_no_progress (with_reducible refine Keeps.drop rfl ?_)
    | split

theorem countPlaced_keeps (n : Nat) {s x : State} (h : Keeps s x) : Keeps s (countPlaced n x) := by
  unfold countPlaced
  repeat' first
    | with_reducible exact h
    | with_reducible apply Keeps.ite
    | fail_if_no_progress (with_reducible refine Keeps.upd rfl ?_)

theorem placeChunk_keeps (k : Nat) (c : RecordInProgress) (raw : Nat) (comp : Bool) {s x : State} (h : Keeps s x) : Keeps s (placeChunk k c raw comp x) := by
  unfold placeChunk
  repeat' first
    | with_reducible exact h
    | with_reducible apply countPlaced_keeps
    | with_reducible apply startChunk_keeps
    | with_reducible apply takePad_keeps
    | with_reducible apply releaseBytes_keeps
    | with_reducible apply writeEntry_keeps
    | with_reducible apply issueWrite_keeps
    | with_reducible apply Keeps.ite
    | fail_if_no_progress (with_reducible refine Keeps.upd rfl ?_)

theorem restartChunk_keeps {s x : State} (h : Keeps s x) : Keeps s (restartChunk x) := by
  unfold restartChunk
  repeat' first
    | with_reducible exact h
    | with_reducible apply startRecompress_keeps
    | with_reducible apply sealSlot_keeps
    | with_reducible refine takeSlot_keeps ?_ (by assumption)
    | with_reducible apply Keeps.ite
    | fail_if_no_progress (with_reducible refine Keeps.upd rfl ?_)
    | fail_if_no_progress (with_reducible refine Keeps.drop rfl ?_)
    | split
    | dsimp only

theorem requestSeal_keeps {s x : State} (h : Keeps s x) : Keeps s (requestSeal x).1 := by
  unfold requestSeal
  repeat' first
    | with_reducible exact h
    | with_reducible apply restartChunk_keeps
    | with_reducible apply sealSlot_keeps
    | with_reducible apply Keeps.ite
    | fail_if_no_progress (with_reducible refine Keeps.upd rfl ?_)
    | fail_if_no_progress (with_reducible refine Keeps.drop rfl ?_)
    | split

theorem sealWhenIdle_keeps {s x : State} (h : Keeps s x) : Keeps s (sealWhenIdle x) := by
  unfold sealWhenIdle
  repeat' first
    | with_reducible exact h
    | with_reducible apply sealSlot_keeps
    | with_reducible apply Keeps.ite

theorem wakeForData_keeps {s x : State} (h : Keeps s x) : Keeps s (wakeForData x) := by
  unfold wakeForData
  repeat' first
    | with_reducible exact h
    | with_reducible apply wake_keeps
    | with_reducible apply Keeps.ite

theorem judgeFlush_keeps {s x : State} (h : Keeps s x) : Keeps s (judgeFlush x) := by
  unfold judgeFlush
  repeat' first
    | with_reducible exact h
    | with_reducible apply wakeForData_keeps
    | with_reducible apply requestSeal_keeps
    | with_reducible apply checkFlush_keeps
    | with_reducible apply refuse_keeps
    | with_reducible apply Keeps.ite
    | fail_if_no_progress (with_reducible refine Keeps.upd rfl ?_)
    | fail_if_no_progress (with_reducible refine Keeps.drop rfl ?_)
    | split

theorem enterClosing_keeps {s x : State} (h : Keeps s x) : Keeps s (enterClosing x) := by
  unfold enterClosing
  repeat' first
    | with_reducible exact h
    | with_reducible apply sealWhenIdle_keeps
    | with_reducible apply Keeps.ite
    | fail_if_no_progress (with_reducible refine Keeps.upd rfl ?_)

theorem judgeWriteClose_keeps {s x : State} (h : Keeps s x) : Keeps s (judgeWriteClose x) := by
  unfold judgeWriteClose
  repeat' first
    | with_reducible exact h
    | with_reducible apply enterClosing_keeps
    | with_reducible apply wakeForData_keeps
    | with_reducible apply checkClose_keeps
    | with_reducible apply refuse_keeps
    | with_reducible apply Keeps.ite
    | fail_if_no_progress (with_reducible refine Keeps.upd rfl ?_)
    | fail_if_no_progress (with_reducible refine Keeps.drop rfl ?_)
    | split

theorem bindingWord_keeps {s x : State} (h : Keeps s x) : Keeps s (bindingWord x) := by
  unfold bindingWord
  repeat' first
    | with_reducible exact h
    | with_reducible apply issueRead_keeps
    | with_reducible apply Keeps.ite
    | fail_if_no_progress (with_reducible refine Keeps.upd rfl ?_)

theorem sequenceBreak_keeps (value : Nat) {s x : State} (h : Keeps s x) : Keeps s (sequenceBreak value x) := by
  unfold sequenceBreak
  repeat' first
    | with_reducible exact h
    | with_reducible apply postNotice_keeps

theorem sequenceWord_keeps (slot : Nat) (value : Nat) {s x : State} (h : Keeps s x) : Keeps s (sequenceWord slot value x) := by
  unfold sequenceWord
  repeat' first
    | with_reducible exact h
    | with_reducible apply sequenceBreak_keeps
    | with_reducible apply readSlot_keeps
    | with_reducible apply Keeps.ite

theorem consumerWord_keeps (n : Nat) (w : Nat) {s x : State} (h : Keeps s x) : Keeps s (consumerWord n w x) := by
  unfold consumerWord
  repeat' first
    | with_reducible exact h
    | with_reducible apply setService_keeps
    | with_reducible apply Keeps.ite
    | fail_if_no_progress (with_reducible refine Keeps.upd rfl ?_)

/-- A write judged to advance the frontier moves it on; the spans it reaches are absorbed (R76). -/
theorem advanceFrontier_keeps (data : List Byte) {s x : State} (hn : data.length ≤ ringZ x - x.bp.rl) (h : Keeps s x) :
    Keeps s (advanceFrontier (ringZ x) data x) := by
  have k : Keeps s { x with
      bp.rl := min (ringZ x) (x.bp.rl + (absorb data.length (x.bp.spans.map (spanFrom (ringZ x) (frontier x)))).1),
      bp.spans := toSpans (ringZ x) (frontier x) (absorb data.length (x.bp.spans.map (spanFrom (ringZ x) (frontier x)))).2 } := by
    refine Keeps.law (x := x) rfl rfl (fun l => ?_) h
    rw [lawful_iff] at l ⊢
    refine ⟨l.1, ?_, l.2.2⟩
    have l2 := l.2.1
    rw [frontier_eq]
    change spansLawful (ringZ x) x.bp.release _ _ = true
    by_cases hz : ringZ x = 0
    · rw [hz] at l2 hn ⊢
      simp only [spansLawful, Bool.and_eq_true, decide_eq_true_eq, if_true] at l2 ⊢
      cases hs : x.bp.spans with
      | nil => simp [absorb, toSpans, apart]
      | cons a as =>
        rw [hs] at l2
        simp [apart, spanFrom, ringDist] at l2
    · rw [if_neg hz]
      exact spansLawful_advance l2 (Nat.pos_of_ne_zero hz) hn
  unfold advanceFrontier
  dsimp only
  split
  · exact consume_keeps _ _ (offerData_keeps k)
  · exact offerData_keeps k

theorem forwardWrite_keeps (w : FrontWrite) {s x : State} (h : Keeps s x) : Keeps s (forwardWrite w x) := by
  unfold forwardWrite
  repeat' first
    | with_reducible exact h
    | with_reducible apply Keeps.ite
    | fail_if_no_progress (with_reducible refine Keeps.upd rfl ?_)

theorem recognise_keeps (w : FrontWrite) {s x : State} (h : Keeps s x) : Keeps s (recognise w x) := by
  unfold recognise
  repeat' first
    | with_reducible exact h
    | with_reducible apply consumerWord_keeps
    | with_reducible apply sequenceWord_keeps
    | with_reducible apply bindingWord_keeps
    | with_reducible apply Keeps.ite
    | fail_if_no_progress (with_reducible refine Keeps.upd rfl ?_)
    | fail_if_no_progress (with_reducible refine Keeps.drop rfl ?_)
    | split

theorem takeWrite_keeps (w : FrontWrite) {s x : State} (h : Keeps s x) : Keeps s (takeWrite w x) := by
  have hf : ∀ {y : State}, Keeps s y → Keeps s (forwardWrite w y) := fun k => forwardWrite_keeps w k
  unfold takeWrite
  split
  · exact Keeps.upd rfl h
  · rename_i hv
    unfold stagingVerdict at hv
    split at hv
    · cases hv
    · rename_i l hl
      split at hv
      · have ez : (x.bp.layout.map Layout.z).getD 0 = ringZ (forwardWrite w x) := rfl
        rw [ez]
        refine advanceFrontier_keeps _ ?_ (hf h)
        have er : ringZ (forwardWrite w x) = l.z := by
          change (x.bp.layout.map Layout.z).getD 0 = l.z
          rw [hl]; rfl
        have el : ∀ (y : State) (a : Nat) (bs : List (Option Byte)), (inFlight y a bs).length = bs.length := by
          intro y a bs
          induction bs generalizing a with
          | nil => rfl
          | cons b bs ih => cases b <;> simp [inFlight, ih]
        rw [el, er]
        change w.data.length ≤ l.z - x.bp.rl
        simp only [Option.some.injEq] at hv
        unfold judgeStaging at hv
        dsimp only at hv
        split at hv
        · cases hv
        · omega
      · cases hv
  · rename_i spans hv
    refine hf ?_
    unfold stagingVerdict at hv
    split at hv
    · cases hv
    · rename_i l hl
      split at hv
      · rename_i hr
        simp only [Option.some.injEq] at hv
        unfold judgeStaging at hv
        dsimp only at hv
        split at hv
        · cases hv
        · rename_i hroom
          split at hv
          · cases hv
          · rename_i hd
            split at hv
            · cases hv
            · rename_i hfull
              cases hv
              refine Keeps.law (x := x) rfl rfl (fun q => ?_) h
              rw [lawful_iff] at q ⊢
              refine ⟨q.1, ?_, q.2.2⟩
              have er : ringZ x = l.z := by unfold ringZ; rw [hl]; rfl
              have hz : 0 < l.z := by
                simp only [insideRegion, Bool.and_eq_true, decide_eq_true_eq] at hr
                omega
              have q2 := q.2.1
              change spansLawful (ringZ x) x.bp.release x.bp.rl _ = true
              rw [er] at q2 ⊢
              rw [frontier_eq, er, if_neg (by omega)] at hd hfull hroom ⊢
              refine spansLawful_ahead q2 hz hd (ringDist_lt hz _ _) (by omega) ?_
              rw [not_and_or] at hfull
              rcases hfull with hfull | hfull
              · right; simpa using hfull
              · left; simp only [List.length_map] at hfull; omega
      · cases hv
  · exact recognise_keeps _ (hf h)

theorem takeBehind_keeps (ws : List FrontWrite) {s x : State} (h : Keeps s x) : Keeps s (takeBehind ws x) := by
  induction ws generalizing x with
  | nil => exact h
  | cons w ws ih =>
    unfold takeBehind
    apply Keeps.ite
    · exact Keeps.upd rfl h
    · exact ih (takeWrite_keeps w h)

theorem releaseHeld_keeps (w : FrontWrite) {s x : State} (h : Keeps s x) : Keeps s (releaseHeld w x) := by
  unfold releaseHeld
  repeat' first
    | with_reducible exact h
    | with_reducible apply takeBehind_keeps
    | with_reducible apply takeWrite_keeps
    | with_reducible apply Keeps.ite
    | fail_if_no_progress (with_reducible refine Keeps.upd rfl ?_)

theorem rejudgeHeld_keeps {s x : State} (h : Keeps s x) : Keeps s (rejudgeHeld x) := by
  unfold rejudgeHeld
  repeat' first
    | with_reducible exact h
    | with_reducible apply releaseHeld_keeps
    | with_reducible apply Keeps.ite
    | fail_if_no_progress (with_reducible refine Keeps.upd rfl ?_)
    | fail_if_no_progress (with_reducible refine Keeps.drop rfl ?_)
    | split

theorem startRunning_keeps (c : FwCmd) {s x : State} (h : Keeps s x) : Keeps s (startRunning c x) := by
  unfold startRunning
  repeat' first
    | with_reducible exact h
    | with_reducible apply cancelDwell_keeps
    | with_reducible apply setJob_keeps
    | with_reducible apply Keeps.ite

theorem judgeLate_keeps (j : JobId) {s x : State} (h : Keeps s x) : Keeps s (judgeLate x j) := by
  unfold judgeLate
  repeat' first
    | with_reducible exact h
    | with_reducible apply startRunning_keeps
    | with_reducible apply judgeWriteClose_keeps
    | with_reducible apply judgeFlush_keeps
    | with_reducible apply judgeSetStreamPolicy_keeps
    | with_reducible apply judgeSetPowerPolicy_keeps
    | with_reducible apply Keeps.ite
    | fail_if_no_progress (with_reducible refine Keeps.upd rfl ?_)
    | fail_if_no_progress (with_reducible refine Keeps.drop rfl ?_)
    | split

theorem judgeDeferred_keeps {s x : State} (h : Keeps s x) : Keeps s (judgeDeferred x) := by
  unfold judgeDeferred
  exact Keeps.ite h (foldl_keeps' _ _ (fun t j k => judgeLate_keeps j k) (Keeps.upd rfl h))

theorem settle_keeps {s x : State} (h : Keeps s x) : Keeps s (settle x) := by
  unfold settle
  repeat' first
    | with_reducible exact h
    | with_reducible apply judgeDeferred_keeps
    | with_reducible apply rejudgeHeld_keeps
    | with_reducible apply startFetch_keeps
    | with_reducible apply checkExhaustion_keeps
    | with_reducible apply checkRestart_keeps
    | with_reducible apply checkClose_keeps
    | with_reducible apply checkFlush_keeps
    | with_reducible apply noteTarget_keeps

theorem frontWrite_keeps {m : Master} {addr : Nat} {data : List (Option Byte)} {s t : State} (e : frontWrite m addr data s = .next t) : Keeps s t := by
  unfold frontWrite at e
  have h := Keeps.refl s
  split at e
  · cases e
  · dsimp only at e
    split at e <;> obtain rfl := Host.Outcome.next.inj e
    · exact Keeps.upd rfl h
    · exact settle_keeps (takeWrite_keeps _ h)

theorem deliveryRead_keeps (zd : Nat) (off : Nat) (len : Nat) {s x : State} (h : Keeps s x) : Keeps s (deliveryRead zd off len x) := by
  unfold deliveryRead
  repeat' first
    | with_reducible exact h
    | with_reducible apply Keeps.ite
    | fail_if_no_progress (with_reducible refine Keeps.upd rfl ?_)

theorem frontRead_keeps {m : Master} {addr len : Nat} {s t : State} (e : frontRead m addr len s = .next t) : Keeps s t := by
  unfold frontRead at e
  have h := issueRead_keeps .front addr len (.frontRead m) (Keeps.refl s)
  split at e
  · cases e
  · dsimp only at e
    split at e <;> obtain rfl := Host.Outcome.next.inj e
    · exact h
    · apply Keeps.ite
      · exact deliveryRead_keeps _ _ _ h
      · exact h

theorem holdExpiry_keeps {s x : State} (h : Keeps s x) : Keeps s (holdExpiry x) := by
  unfold holdExpiry
  repeat' first
    | with_reducible exact h
    | with_reducible apply settle_keeps
    | with_reducible apply takeBehind_keeps
    | with_reducible apply forwardWrite_keeps
    | with_reducible apply stopSession_keeps
    | with_reducible apply Keeps.ite
    | fail_if_no_progress (with_reducible refine Keeps.upd rfl ?_)
    | fail_if_no_progress (with_reducible refine Keeps.drop rfl ?_)
    | split

theorem recordGranted_keeps {s x : State} (h : Keeps s x) : Keeps s (recordGranted x) := by
  unfold recordGranted
  repeat' first
    | with_reducible exact h
    | with_reducible apply setService_keeps
    | with_reducible apply Keeps.ite
    | fail_if_no_progress (with_reducible refine Keeps.upd rfl ?_)
    | fail_if_no_progress (with_reducible refine Keeps.drop rfl ?_)
    | split

theorem writeDelivery_keeps (base : Nat) (zd : Nat) (off : Nat) (bs : List Byte) {s x : State} (h : Keeps s x) : Keeps s (writeDelivery base zd off bs x) := by
  unfold writeDelivery
  repeat' first
    | with_reducible exact h
    | with_reducible apply issueWrite_keeps

theorem writePiece_keeps (a : PieceAsk) (data : List Byte) {s x : State} (h : Keeps s x) : Keeps s (writePiece a data x) := by
  unfold writePiece
  repeat' first
    | with_reducible exact h
    | with_reducible apply writeDelivery_keeps
    | with_reducible apply issueWrite_keeps
    | with_reducible apply Keeps.ite
    | fail_if_no_progress (with_reducible refine Keeps.upd rfl ?_)
    | fail_if_no_progress (with_reducible refine Keeps.drop rfl ?_)
    | split

theorem withdrawPiece_keeps {s x : State} (h : Keeps s x) : Keeps s (withdrawPiece x) := by
  unfold withdrawPiece
  repeat' first
    | with_reducible exact h
    | with_reducible apply Keeps.ite
    | fail_if_no_progress (with_reducible refine Keeps.upd rfl ?_)
    | fail_if_no_progress (with_reducible refine Keeps.drop rfl ?_)
    | split

theorem pieceReady_keeps (d : Drain) (a : PieceAsk) {s x : State} (h : Keeps s x) : Keeps s (pieceReady d a x) := by
  unfold pieceReady
  repeat' first
    | with_reducible exact h
    | with_reducible apply writePiece_keeps
    | with_reducible apply Keeps.ite
    | fail_if_no_progress (with_reducible refine Keeps.upd rfl ?_)

theorem finishFill_keeps (n : Nat) {s x : State} (h : Keeps s x) : Keeps s (finishFill n x) := by
  induction n generalizing x with
  | zero => exact withdrawPiece_keeps h
  | succ n ih =>
    unfold finishFill
    repeat' first
      | with_reducible exact h
      | with_reducible apply ih
      | with_reducible apply withdrawPiece_keeps
      | with_reducible apply pieceReady_keeps
      | with_reducible apply consultSlot_keeps
      | with_reducible apply Keeps.ite
      | fail_if_no_progress (with_reducible refine Keeps.upd rfl ?_)
      | split
      | dsimp only

theorem stopDrain_keeps {s x : State} (h : Keeps s x) : Keeps s (stopDrain x) := by
  unfold stopDrain
  repeat' first
    | with_reducible exact h
    | with_reducible apply finishFill_keeps
    | with_reducible apply forgetAll_keeps
    | with_reducible apply Keeps.ite
    | fail_if_no_progress (with_reducible refine Keeps.upd rfl ?_)

theorem freeReadSlots_keeps {s x : State} (h : Keeps s x) : Keeps s (freeReadSlots x) := by
  unfold freeReadSlots
  repeat' first
    | with_reducible exact h
    | with_reducible apply stopDrain_keeps
    | with_reducible apply freeSlots_keeps
    | with_reducible apply forgetAll_keeps
    | with_reducible apply Keeps.ite
    | fail_if_no_progress (with_reducible refine Keeps.upd rfl ?_)

theorem readerIdle_keeps {s x : State} (h : Keeps s x) : Keeps s (readerIdle x) := by
  unfold readerIdle
  repeat' first
    | with_reducible exact h
    | with_reducible apply Keeps.ite
    | fail_if_no_progress (with_reducible refine Keeps.upd rfl ?_)

theorem serveRebuild_keeps {s x : State} (h : Keeps s x) : Keeps s (serveRebuild x) := by
  unfold serveRebuild
  split
  · exact h
  · exact foldl_keeps' _ _ (fun t i k => issueRead_keeps _ _ _ _ k) (Keeps.upd rfl h)

theorem joinRebuild_keeps (k : Nat) {s x : State} (h : Keeps s x) : Keeps s (joinRebuild k x) := by
  unfold joinRebuild
  repeat' first
    | with_reducible exact h
    | with_reducible apply serveRebuild_keeps
    | with_reducible apply Keeps.ite
    | fail_if_no_progress (with_reducible refine Keeps.upd rfl ?_)

theorem leaveRebuild_keeps (gone : Nat → Bool) {s x : State} (h : Keeps s x) : Keeps s (leaveRebuild gone x) := by
  unfold leaveRebuild
  repeat' first
    | with_reducible exact h
    | with_reducible apply serveRebuild_keeps
    | with_reducible apply forgetAll_keeps
    | with_reducible apply Keeps.ite
    | fail_if_no_progress (with_reducible refine Keeps.upd rfl ?_)

theorem raiseX_keeps (k : Nat) {s x : State} (h : Keeps s x) : Keeps s (raiseX k x) := by
  unfold raiseX
  repeat' first
    | with_reducible exact h
    | with_reducible apply Keeps.ite
    | fail_if_no_progress (with_reducible refine Keeps.upd rfl ?_)

theorem countRecord_keeps (a : PieceAsk) {s x : State} (h : Keeps s x) : Keeps s (countRecord a x) := by
  unfold countRecord
  repeat' first
    | with_reducible exact h
    | with_reducible apply consultHead_keeps
    | with_reducible apply Keeps.ite
    | fail_if_no_progress (with_reducible refine Keeps.upd rfl ?_)

theorem countOut_keeps {s x : State} (h : Keeps s x) : Keeps s (countOut x) := by
  unfold countOut
  repeat' first
    | with_reducible exact h
    | with_reducible apply countRecord_keeps
    | with_reducible apply Keeps.ite
    | fail_if_no_progress (with_reducible refine Keeps.upd rfl ?_)
    | fail_if_no_progress (with_reducible refine Keeps.drop rfl ?_)
    | split

theorem endRead_keeps (st : Status) {s x : State} (h : Keeps s x) : Keeps s (endRead st x) := by
  unfold endRead
  repeat' first
    | with_reducible exact h
    | with_reducible apply freeReadSlots_keeps
    | with_reducible apply backhitchTo_keeps
    | with_reducible apply stopThen_keeps
    | with_reducible apply Keeps.ite
    | fail_if_no_progress (with_reducible refine Keeps.upd rfl ?_)
    | fail_if_no_progress (with_reducible refine Keeps.drop rfl ?_)
    | split
    | dsimp only

theorem failRead_keeps {s x : State} (h : Keeps s x) : Keeps s (failRead x) := by
  unfold failRead
  repeat' first
    | with_reducible exact h
    | with_reducible apply countOut_keeps
    | with_reducible apply readerIdle_keeps
    | with_reducible apply freeReadSlots_keeps
    | with_reducible apply complete_keeps
    | with_reducible apply Keeps.ite
    | fail_if_no_progress (with_reducible refine Keeps.upd rfl ?_)

theorem abortRead_keeps {s x : State} (h : Keeps s x) : Keeps s (abortRead x) := by
  unfold abortRead
  repeat' first
    | with_reducible exact h
    | with_reducible apply countOut_keeps
    | with_reducible apply readerIdle_keeps
    | with_reducible apply freeReadSlots_keeps
    | with_reducible apply complete_keeps
    | with_reducible apply Keeps.ite
    | fail_if_no_progress (with_reducible refine Keeps.upd rfl ?_)

theorem beginScan_keeps (u : ReadUser) (target : Option Nat) {s x : State} (h : Keeps s x) : Keeps s (beginScan u target x) := by
  unfold beginScan
  repeat' first
    | with_reducible exact h
    | with_reducible apply locateTo_keeps
    | with_reducible apply Keeps.ite
    | fail_if_no_progress (with_reducible refine Keeps.upd rfl ?_)

theorem locatePlace_keeps (place : Pos) (st : Status) (lp : Option Nat) (sp : Option StartPoint) {s x : State} (h : Keeps s x) : Keeps s (locatePlace place st lp sp x) := by
  unfold locatePlace
  repeat' first
    | with_reducible exact h
    | with_reducible apply locateTo_keeps
    | with_reducible apply complete_keeps
    | with_reducible apply Keeps.ite
    | fail_if_no_progress (with_reducible refine Keeps.upd rfl ?_)

theorem beginLocate_keeps (target : Nat) (r : Nat) {s x : State} (h : Keeps s x) : Keeps s (beginLocate target r x) := by
  unfold beginLocate
  repeat' first
    | with_reducible exact h
    | with_reducible apply locatePlace_keeps
    | with_reducible apply beginScan_keeps
    | with_reducible apply consultCart_keeps
    | with_reducible apply Keeps.ite
    | fail_if_no_progress (with_reducible refine Keeps.upd rfl ?_)
    | fail_if_no_progress (with_reducible refine Keeps.drop rfl ?_)
    | split

theorem scanFound_keeps (m : Met) {s x : State} (h : Keeps s x) : Keeps s (scanFound m x) := by
  unfold scanFound
  repeat' first
    | with_reducible exact h
    | with_reducible apply freeReadSlots_keeps
    | with_reducible apply backhitchTo_keeps
    | with_reducible apply Keeps.ite
    | fail_if_no_progress (with_reducible refine Keeps.upd rfl ?_)

theorem scanEnded_keeps (st : Status) {s x : State} (h : Keeps s x) : Keeps s (scanEnded st x) := by
  unfold scanEnded
  repeat' first
    | with_reducible exact h
    | with_reducible apply consultHead_keeps
    | with_reducible apply readerIdle_keeps
    | with_reducible apply freeReadSlots_keeps
    | with_reducible apply locateTo_keeps
    | with_reducible apply stopThen_keeps
    | with_reducible apply Keeps.ite
    | fail_if_no_progress (with_reducible refine Keeps.upd rfl ?_)
    | fail_if_no_progress (with_reducible refine Keeps.drop rfl ?_)
    | split
    | dsimp only

theorem passTrailer_keeps (k : Nat) {s x : State} (h : Keeps s x) : Keeps s (passTrailer k x) := by
  unfold passTrailer
  repeat' first
    | with_reducible exact h
    | with_reducible apply consultLast_keeps
    | with_reducible apply consultSlot_keeps
    | with_reducible apply putCart_keeps
    | with_reducible apply consultHead_keeps
    | with_reducible apply Keeps.ite
    | fail_if_no_progress (with_reducible refine Keeps.upd rfl ?_)

theorem scanAdvance_keeps {s x : State} (h : Keeps s x) : Keeps s (scanAdvance x) := by
  unfold scanAdvance
  split
  · exact h
  · have k := freeSlots_keeps (slotsIn (fun x => decide (x = .decoded)) ((passable x).foldl (fun t k => passTrailer k t) x))
      (foldl_keeps (fun t k => passTrailer k t) (passable x) (fun k t q => passTrailer_keeps k q) h)
    dsimp only
    split
    · exact k
    · split
      · exact scanFound_keeps _ k
      · exact Keeps.upd rfl k

theorem stopConfirm_keeps {s x : State} (h : Keeps s x) : Keeps s (stopConfirm x) := by
  unfold stopConfirm
  repeat' first
    | with_reducible exact h
    | with_reducible apply readerIdle_keeps
    | with_reducible apply freeReadSlots_keeps
    | with_reducible apply locateTo_keeps
    | with_reducible apply putCart_keeps
    | with_reducible apply Keeps.ite
    | fail_if_no_progress (with_reducible refine Keeps.upd rfl ?_)

theorem confirmSegment_keeps (k : Nat) {s x : State} (h : Keeps s x) : Keeps s (confirmSegment k x) := by
  unfold confirmSegment
  repeat' first
    | with_reducible exact h
    | with_reducible apply consultLast_keeps
    | with_reducible apply stopConfirm_keeps
    | with_reducible apply freeSlot_keeps
    | with_reducible apply putCart_keeps
    | with_reducible apply Keeps.ite

theorem confirmAdvance_keeps (n : Nat) {s x : State} (h : Keeps s x) : Keeps s (confirmAdvance n x) := by
  induction n generalizing x with
  | zero => exact h
  | succ n ih =>
    unfold confirmAdvance
    repeat' first
      | with_reducible exact h
      | with_reducible apply ih
      | with_reducible apply confirmSegment_keeps
      | with_reducible apply stopConfirm_keeps
      | with_reducible apply Keeps.ite
      | split

theorem foldl_issueRead_sm (f : Nat → Nat) (n : Nat) (p : Purpose) (l : List Nat) (s : State) :
    (l.foldl (fun t i => issueRead .internal (f i) n p t) s).sm = s.sm := by
  induction l generalizing s with
  | nil => rfl
  | cons a l ih =>
    rw [List.foldl_cons, ih]
    unfold issueRead
    split <;> rfl

theorem leaveRebuild_sm (gone : Nat → Bool) (s : State) : (leaveRebuild gone s).sm = s.sm := by
  unfold leaveRebuild
  dsimp only
  split
  · unfold serveRebuild
    split
    · rfl
    · exact foldl_issueRead_sm _ _ _ _ _
  · rfl

theorem spliceDecoded_keeps (k : Nat) {s x : State} (h : Keeps s x) : Keeps s (spliceDecoded k x) := by
  unfold spliceDecoded
  dsimp only
  apply backhitchTo_keeps
  refine Keeps.upd rfl ?_
  refine setSlot_law (fun _ => ?_) (fun q => absurd (show isOnTape .filling = true from q) (by decide))
    (freeSlots_keeps _ (leaveRebuild_keeps _ h))
  by_cases hk : isFilling (slotAt (freeSlots ((readSlots x ++ slotsIn isFilling x).filter (fun j => decide (j ≠ k))) (leaveRebuild (fun _ => true) x)) k).st = true
  · exact Or.inl hk
  · right
    rw [List.length_eq_zero_iff, List.filter_eq_nil_iff]
    intro y hy hc
    obtain ⟨j, hj, rfl⟩ := List.getElem_of_mem hy
    have e : slotAt (freeSlots ((readSlots x ++ slotsIn isFilling x).filter (fun j => decide (j ≠ k))) (leaveRebuild (fun _ => true) x)) j =
        (freeSlots ((readSlots x ++ slotsIn isFilling x).filter (fun j => decide (j ≠ k))) (leaveRebuild (fun _ => true) x)).sm.slots[j] := by
      simp only [slotAt, List.getD, List.getElem?_eq_getElem hj, Option.getD_some]
    rw [← e] at hc
    obtain ⟨h1, h2⟩ := filling_freeSlots _ _ _ hc
    have e2 : slotAt (leaveRebuild (fun _ => true) x) j = slotAt x j := by unfold slotAt; rw [leaveRebuild_sm]
    rw [e2] at h1
    have hl : j < x.sm.slots.length := by
      by_contra c
      have : slotAt x j = freshSlot .free 0 := by simp [slotAt, List.getD, List.getElem?_eq_none (Nat.le_of_not_lt c)]
      rw [this] at h1
      exact absurd (show isFilling .free = true from h1) (by decide)
    have hjk : j ≠ k := by rintro rfl; exact hk hc
    exact h2 (List.mem_filter.mpr ⟨List.mem_append_right _ ((mem_slotsIn _ _ _).mpr ⟨hl, h1⟩), by simpa using hjk⟩)

theorem spliceEnds_keeps (st : Status) {s x : State} (h : Keeps s x) : Keeps s (spliceEnds st x) := by
  unfold spliceEnds
  repeat' first
    | with_reducible exact h
    | with_reducible apply readerIdle_keeps
    | with_reducible apply freeReadSlots_keeps
    | with_reducible apply freeSlot_keeps
    | with_reducible apply completeWith_keeps
    | with_reducible apply Keeps.ite
    | fail_if_no_progress (with_reducible refine Keeps.upd rfl ?_)
    | fail_if_no_progress (with_reducible refine Keeps.drop rfl ?_)
    | split

theorem drainOnly_keeps {s x : State} (h : Keeps s x) : Keeps s (drainOnly x) := by
  unfold drainOnly
  repeat' first
    | with_reducible exact h
    | with_reducible apply stopThen_keeps
    | with_reducible apply Keeps.ite
    | fail_if_no_progress (with_reducible refine Keeps.upd rfl ?_)

theorem blankEod_keeps {s x : State} (h : Keeps s x) : Keeps s (blankEod x) := by
  unfold blankEod
  repeat' first
    | with_reducible exact h
    | with_reducible apply putCart_keeps
    | with_reducible apply Keeps.ite
    | fail_if_no_progress (with_reducible refine Keeps.upd rfl ?_)
    | fail_if_no_progress (with_reducible refine Keeps.drop rfl ?_)
    | split
    | dsimp only

theorem scanDataEnd_keeps {s x : State} (h : Keeps s x) : Keeps s (scanDataEnd x) := by
  unfold scanDataEnd
  repeat' first
    | with_reducible exact h
    | with_reducible apply consultHead_keeps
    | with_reducible apply blankEod_keeps
    | with_reducible apply scanEnded_keeps
    | with_reducible apply scanFound_keeps
    | with_reducible apply Keeps.ite
    | fail_if_no_progress (with_reducible refine Keeps.upd rfl ?_)
    | fail_if_no_progress (with_reducible refine Keeps.drop rfl ?_)
    | split
    | dsimp only

theorem spliceLost_keeps {s x : State} (h : Keeps s x) : Keeps s (spliceLost x) := by
  unfold spliceLost
  repeat' first
    | with_reducible exact h
    | with_reducible apply stopThen_keeps
    | with_reducible apply Keeps.ite
    | fail_if_no_progress (with_reducible refine Keeps.upd rfl ?_)

theorem dataEnded_keeps {s x : State} (h : Keeps s x) : Keeps s (dataEnded x) := by
  unfold dataEnded
  repeat' first
    | with_reducible exact h
    | with_reducible apply spliceLost_keeps
    | with_reducible apply scanDataEnd_keeps
    | with_reducible apply drainOnly_keeps
    | with_reducible apply stopConfirm_keeps
    | with_reducible apply stopThen_keeps
    | with_reducible apply Keeps.ite
    | fail_if_no_progress (with_reducible refine Keeps.upd rfl ?_)
    | fail_if_no_progress (with_reducible refine Keeps.drop rfl ?_)
    | split
    | dsimp only

theorem freeAbove_keeps (n : Nat) (keep : Option Nat) {s x : State} (h : Keeps s x) : Keeps s (freeAbove n keep x) := by
  unfold freeAbove
  repeat' first
    | with_reducible exact h
    | with_reducible apply freeSlots_keeps

theorem badSegment_keeps (k : Nat) (n : Nat) {s x : State} (h : Keeps s x) : Keeps s (badSegment k n x) := by
  unfold badSegment
  repeat' first
    | with_reducible exact h
    | with_reducible apply freeAbove_keeps
    | with_reducible apply drainOnly_keeps
    | with_reducible apply leaveRebuild_keeps
    | with_reducible apply freeSlots_keeps
    | with_reducible apply freeSlot_keeps
    | with_reducible apply Keeps.ite
    | fail_if_no_progress (with_reducible refine Keeps.upd rfl ?_)

theorem readErrorAt_keeps (k : Nat) {s x : State} (h : Keeps s x) : Keeps s (readErrorAt k x) := by
  unfold readErrorAt
  repeat' first
    | with_reducible exact h
    | with_reducible apply freeAbove_keeps
    | with_reducible apply spliceLost_keeps
    | with_reducible apply drainOnly_keeps
    | with_reducible apply raiseX_keeps
    | with_reducible apply leaveRebuild_keeps
    | with_reducible apply badSegment_keeps
    | with_reducible apply stopConfirm_keeps
    | with_reducible apply scanEnded_keeps
    | with_reducible apply freeReadSlots_keeps
    | with_reducible apply freeSlot_keeps
    | with_reducible apply stopThen_keeps
    | with_reducible apply event_keeps
    | with_reducible apply Keeps.ite
    | fail_if_no_progress (with_reducible refine Keeps.upd rfl ?_)
    | fail_if_no_progress (with_reducible refine Keeps.drop rfl ?_)
    | split
    | dsimp only

theorem afterLost_keeps (k : Nat) {s x : State} (h : Keeps s x) : Keeps s (afterLost k x) := by
  unfold afterLost
  repeat' first
    | with_reducible exact h
    | with_reducible apply raiseX_keeps
    | with_reducible apply drainOnly_keeps
    | with_reducible apply freeSlot_keeps
    | with_reducible apply Keeps.ite
    | fail_if_no_progress (with_reducible refine Keeps.upd rfl ?_)

theorem retrySegment_keeps (k : Nat) {s x : State} (h : Keeps s x) : Keeps s (retrySegment k x) := by
  unfold retrySegment
  repeat' first
    | with_reducible exact h
    | with_reducible apply setSlot_keeps
    | with_reducible apply backhitchTo_keeps
    | with_reducible apply event_keeps
    | with_reducible apply Keeps.ite
    | fail_if_no_progress (with_reducible refine Keeps.upd rfl ?_)
    | exact .inl ⟨rfl, rfl⟩

theorem afterDecoded_keeps (k : Nat) {s x : State} (h : Keeps s x) : Keeps s (afterDecoded k x) := by
  unfold afterDecoded
  repeat' first
    | with_reducible exact h
    | with_reducible apply consultSlot_keeps
    | with_reducible apply drainOnly_keeps
    | with_reducible apply freeSlot_keeps
    | with_reducible apply Keeps.ite
    | fail_if_no_progress (with_reducible refine Keeps.upd rfl ?_)

theorem settleEod_keeps (k : Nat) {s x : State} (h : Keeps s x) : Keeps s (settleEod k x) := by
  unfold settleEod
  repeat' first
    | with_reducible exact h
    | with_reducible apply consultLast_keeps
    | with_reducible apply putCart_keeps
    | with_reducible apply Keeps.ite
    | fail_if_no_progress (with_reducible refine Keeps.upd rfl ?_)
    | fail_if_no_progress (with_reducible refine Keeps.drop rfl ?_)
    | split

theorem takeDecoded_keeps (k : Nat) {s x : State} (h : Keeps s x) : Keeps s (takeDecoded k x) := by
  unfold takeDecoded
  repeat' first
    | with_reducible exact h
    | with_reducible apply confirmAdvance_keeps
    | with_reducible apply settleEod_keeps
    | with_reducible apply afterDecoded_keeps
    | with_reducible apply spliceDecoded_keeps
    | with_reducible apply confirmSegment_keeps
    | with_reducible apply scanAdvance_keeps
    | with_reducible apply setSlot_keeps
    | with_reducible apply Keeps.ite
    | fail_if_no_progress (with_reducible refine Keeps.upd rfl ?_)
    | fail_if_no_progress (with_reducible refine Keeps.drop rfl ?_)
    | split
    | dsimp only
    | exact .inl ⟨rfl, rfl⟩

theorem trailerFails_keeps (k : Nat) {s x : State} (h : Keeps s x) : Keeps s (trailerFails k x).1 := by
  unfold trailerFails
  repeat' first
    | with_reducible exact h
    | with_reducible apply freeSlot_keeps
    | with_reducible apply retrySegment_keeps
    | with_reducible apply afterLost_keeps
    | with_reducible apply readErrorAt_keeps
    | with_reducible apply setSlot_keeps
    | with_reducible apply Keeps.ite
    | fail_if_no_progress (with_reducible refine Keeps.upd rfl ?_)
    | fail_if_no_progress (with_reducible refine Keeps.drop rfl ?_)
    | split
    | dsimp only
    | exact .inl ⟨rfl, rfl⟩

theorem slotDecoded_keeps (k : Nat) {s x : State} (h : Keeps s x) : Keeps s (slotDecoded k x).1 := by
  have hc := consultSlot_keeps k Config.trailerAt 64 h
  unfold slotDecoded
  extract_lets good t
  have ht : Keeps s t := hc
  clear_value t good
  split
  · exact takeDecoded_keeps k ht
  · exact trailerFails_keeps k ht

theorem completeSegment_keeps (k : Nat) {s x : State} (h : Keeps s x) : Keeps s (completeSegment k x).1 := by
  unfold completeSegment
  repeat' first
    | with_reducible exact h
    | with_reducible apply drainOnly_keeps
    | with_reducible apply raiseX_keeps
    | with_reducible apply slotDecoded_keeps
    | with_reducible apply retrySegment_keeps
    | with_reducible apply afterLost_keeps
    | with_reducible apply readErrorAt_keeps
    | with_reducible apply scanAdvance_keeps
    | with_reducible apply joinRebuild_keeps
    | with_reducible apply freeSlot_keeps
    | with_reducible apply setSlot_keeps
    | with_reducible apply Keeps.ite
    | fail_if_no_progress (with_reducible refine Keeps.upd rfl ?_)
    | fail_if_no_progress (with_reducible refine Keeps.drop rfl ?_)
    | split
    | dsimp only
    | exact .inl ⟨rfl, rfl⟩

theorem completeAll_keeps (ks : List Nat) {s x : State} (h : Keeps s x) : Keeps s (completeAll ks x).1 := by
  induction ks generalizing x with
  | nil => exact h
  | cons k ks ih =>
    unfold completeAll
    repeat' first
      | exact completeSegment_keeps k h
      | exact ih h
      | exact ih (completeSegment_keeps k h)
      | split
      | dsimp only

theorem endOfStream_keeps {s x : State} (h : Keeps s x) : Keeps s (endOfStream x) := by
  unfold endOfStream
  repeat' first
    | with_reducible exact h
    | with_reducible apply completeAll_keeps
    | with_reducible apply dataEnded_keeps
    | with_reducible apply Keeps.ite

theorem openSegment_keeps {k : Nat} {lead : Option Pos} {s x t : State} (h : Keeps s x) (e : openSegment lead x = some (k, t)) :
    Keeps s t := by
  unfold openSegment at e
  dsimp only at e
  split at e
  · split at e
    · cases e
    · cases e
      exact setSlot_keeps _ _ (.inl ⟨rfl, rfl⟩) (Keeps.upd rfl (takeFree_keeps (st := .fetching) (by decide) h (by assumption)))
  · cases e

theorem pauseRead_keeps (p : Pos) {s x : State} (h : Keeps s x) : Keeps s (pauseRead p x) := by
  unfold pauseRead
  repeat' first
    | with_reducible exact h
    | with_reducible apply backhitchTo_keeps
    | with_reducible apply Keeps.ite
    | fail_if_no_progress (with_reducible refine Keeps.upd rfl ?_)

theorem stampSlot_st (id : FrameId) (p : Pos) (y : Slot) : (stampSlot id p y).st = y.st := by
  unfold stampSlot
  repeat' split
  all_goals rfl

theorem slotAt_setSlot_st {k : Nat} {v : Slot} {x : State} (h : v.st = (slotAt x k).st) (j : Nat) :
    (slotAt (setSlot k v x) j).st = (slotAt x j).st := by
  unfold setSlot slotAt
  dsimp only
  split
  · rfl
  · rw [getD_set]
    split
    · rename_i hj; rw [hj.1]; exact h
    · rfl

theorem mergeFrame_keeps (k : Nat) (id : FrameId) (st : FrameStatus) (p : Pos) (data : List Byte) {s x : State} (h : Keeps s x) :
    Keeps s (mergeFrame k id st p data x) := by
  unfold mergeFrame
  dsimp only
  have e : (stampSlot id p (slotAt x k)).st = (slotAt x k).st := stampSlot_st id p _
  have k1 := setSlot_keeps (s := s) (x := { x with rd.scan := x.rd.scan.map (followMet id p (slotAt x k).stamp) }) k
    (stampSlot id p (slotAt x k)) (.inr e) (Keeps.upd rfl h)
  split
  · apply issueWrite_keeps
    exact setSlot_keeps _ _ (.inr (e.trans (slotAt_setSlot_st (x := { x with rd.scan := _ }) e k).symm)) k1
  · exact k1

theorem openUpTo_keeps (id : FrameId) (start : Pos) (fuel : Nat) {s x : State} (h : Keeps s x) :
    Keeps s (openUpTo id start fuel x).1 := by
  induction fuel generalizing x with
  | zero => exact h
  | succ fuel ih =>
    unfold openUpTo
    repeat' first
      | with_reducible exact h
      | with_reducible refine openSegment_keeps ?_ (by assumption)
      | with_reducible apply ih
      | with_reducible apply pauseRead_keeps
      | with_reducible apply completeSegment_keeps
      | fail_if_no_progress (with_reducible refine Keeps.upd rfl ?_)
      | split
      | dsimp only

theorem takeMerged_keeps (k : Nat) (id : FrameId) (st : FrameStatus) (p : Pos) (data : List Byte) {s x : State} (h : Keeps s x) : Keeps s (takeMerged k id st p data x) := by
  unfold takeMerged
  repeat' first
    | with_reducible exact h
    | with_reducible apply mergeFrame_keeps
    | with_reducible apply scanAdvance_keeps

theorem restIfDone_keeps {s x : State} (h : Keeps s x) : Keeps s (restIfDone x) := by
  unfold restIfDone
  repeat' first
    | with_reducible exact h
    | with_reducible apply drainOnly_keeps
    | with_reducible apply Keeps.ite

theorem frameAbove_keeps (id : FrameId) (st : FrameStatus) (p : Pos) (data : List Byte) {s x : State} (h : Keeps s x) : Keeps s (frameAbove id st p data x) := by
  unfold frameAbove
  repeat' first
    | with_reducible exact h
    | with_reducible apply restIfDone_keeps
    | with_reducible apply takeMerged_keeps
    | with_reducible apply openUpTo_keeps
    | with_reducible apply completeAll_keeps
    | with_reducible apply Keeps.ite
    | fail_if_no_progress (with_reducible refine Keeps.upd rfl ?_)
    | fail_if_no_progress (with_reducible refine Keeps.drop rfl ?_)
    | split
    | dsimp only

theorem judgeFrame_keeps (id : FrameId) (st : FrameStatus) (p : Pos) (data : List Byte) {s x : State} (h : Keeps s x) : Keeps s (judgeFrame id st p data x) := by
  unfold judgeFrame
  repeat' first
    | with_reducible exact h
    | with_reducible apply frameAbove_keeps
    | with_reducible apply takeMerged_keeps
    | with_reducible apply Keeps.ite
    | fail_if_no_progress (with_reducible refine Keeps.upd rfl ?_)
    | fail_if_no_progress (with_reducible refine Keeps.drop rfl ?_)
    | split

theorem takeFrame_keeps (id : FrameId) (st : FrameStatus) (start : Nat) (data : List Byte) {s x : State} (h : Keeps s x) : Keeps s (takeFrame id st start data x) := by
  unfold takeFrame
  repeat' first
    | with_reducible exact h
    | with_reducible apply consultBounds_keeps
    | with_reducible apply judgeFrame_keeps
    | with_reducible apply Keeps.ite
    | fail_if_no_progress (with_reducible refine Keeps.upd rfl ?_)

theorem drainReadAt_keeps (d : Drain) (off : Nat) (n : Nat) (what : DrainRead) {s x : State} (h : Keeps s x) : Keeps s (drainReadAt d off n what x) := by
  unfold drainReadAt
  repeat' first
    | with_reducible exact h
    | with_reducible apply issueRead_keeps
    | with_reducible apply Keeps.ite
    | fail_if_no_progress (with_reducible refine Keeps.upd rfl ?_)

theorem drainBegin_keeps (k : Nat) {s x : State} (h : Keeps s x) : Keeps s (drainBegin k x) := by
  unfold drainBegin
  repeat' first
    | with_reducible exact h
    | with_reducible apply drainReadAt_keeps
    | with_reducible apply setSlot_keeps
    | with_reducible apply Keeps.ite
    | fail_if_no_progress (with_reducible refine Keeps.upd rfl ?_)
    | exact .inl ⟨rfl, rfl⟩

theorem drainEntry_keeps (d : Drain) {s x : State} (h : Keeps s x) : Keeps s (drainEntry d x) := by
  unfold drainEntry
  repeat' first
    | with_reducible exact h
    | with_reducible apply drainReadAt_keeps
    | with_reducible apply Keeps.ite
    | fail_if_no_progress (with_reducible refine Keeps.upd rfl ?_)

theorem drainWalk_keeps (d : Drain) {s x : State} (h : Keeps s x) : Keeps s (drainWalk d x) := by
  unfold drainWalk
  repeat' first
    | with_reducible exact h
    | with_reducible apply drainEntry_keeps
    | with_reducible apply drainReadAt_keeps
    | with_reducible apply pieceReady_keeps
    | with_reducible apply writePiece_keeps
    | with_reducible apply Keeps.ite
    | fail_if_no_progress (with_reducible refine Keeps.upd rfl ?_)
    | fail_if_no_progress (with_reducible refine Keeps.drop rfl ?_)
    | split

theorem drainNext_keeps {s x : State} (h : Keeps s x) : Keeps s (drainNext x) := by
  unfold drainNext
  repeat' first
    | with_reducible exact h
    | with_reducible apply drainWalk_keeps
    | with_reducible apply drainBegin_keeps
    | with_reducible apply Keeps.ite
    | fail_if_no_progress (with_reducible refine Keeps.upd rfl ?_)
    | fail_if_no_progress (with_reducible refine Keeps.drop rfl ?_)
    | split

theorem checkDataEnd_keeps {s x : State} (h : Keeps s x) : Keeps s (checkDataEnd x) := by
  unfold checkDataEnd
  repeat' first
    | with_reducible exact h
    | with_reducible apply consultHead_keeps
    | with_reducible apply endRead_keeps
    | with_reducible apply Keeps.ite
    | fail_if_no_progress (with_reducible refine Keeps.upd rfl ?_)

theorem drain_keeps {s x : State} (h : Keeps s x) : Keeps s (drain x) := by
  unfold drain
  repeat' first
    | with_reducible exact h
    | with_reducible apply checkDataEnd_keeps
    | with_reducible apply drainNext_keeps

theorem decodeFault_keeps (d : Drain) {s x : State} (h : Keeps s x) : Keeps s (decodeFault d x) := by
  unfold decodeFault
  repeat' first
    | with_reducible exact h
    | with_reducible apply drain_keeps
    | with_reducible apply readErrorAt_keeps
    | with_reducible apply withdrawPiece_keeps
    | with_reducible apply Keeps.ite
    | fail_if_no_progress (with_reducible refine Keeps.upd rfl ?_)

theorem entryRead_keeps (d : Drain) (e : Entry) {s x : State} (h : Keeps s x) : Keeps s (entryRead d e x) := by
  unfold entryRead
  repeat' first
    | with_reducible exact h
    | with_reducible apply decodeFault_keeps
    | with_reducible apply drain_keeps
    | with_reducible apply drainEntry_keeps
    | with_reducible apply Keeps.ite
    | fail_if_no_progress (with_reducible refine Keeps.upd rfl ?_)

theorem chunkRead_keeps (d : Drain) (body : List Byte) (compressed : Bool) {s x : State} (h : Keeps s x) : Keeps s (chunkRead d body compressed x) := by
  unfold chunkRead
  repeat' first
    | with_reducible exact h
    | with_reducible apply decodeFault_keeps
    | with_reducible apply drain_keeps
    | with_reducible apply Keeps.ite
    | fail_if_no_progress (with_reducible refine Keeps.upd rfl ?_)
    | fail_if_no_progress (with_reducible refine Keeps.drop rfl ?_)
    | split

theorem drainReturned_keeps (bs : List Byte) {s x : State} (h : Keeps s x) : Keeps s (drainReturned bs x) := by
  unfold drainReturned
  repeat' first
    | with_reducible exact h
    | with_reducible apply chunkRead_keeps
    | with_reducible apply entryRead_keeps
    | with_reducible apply decodeFault_keeps
    | with_reducible apply drain_keeps
    | with_reducible apply drainReadAt_keeps
    | with_reducible apply Keeps.ite
    | fail_if_no_progress (with_reducible refine Keeps.upd rfl ?_)
    | fail_if_no_progress (with_reducible refine Keeps.drop rfl ?_)
    | split

theorem recordDelivered_keeps (a : PieceAsk) {s x : State} (h : Keeps s x) : Keeps s (recordDelivered a x) := by
  unfold recordDelivered
  repeat' first
    | with_reducible exact h
    | with_reducible apply countRecord_keeps
    | with_reducible apply endRead_keeps
    | with_reducible apply Keeps.ite
    | fail_if_no_progress (with_reducible refine Keeps.upd rfl ?_)

theorem headerGranted_keeps (start : Nat) {s x : State} (h : Keeps s x) : Keeps s (headerGranted start x) := by
  unfold headerGranted
  repeat' first
    | with_reducible exact h
    | with_reducible apply recordDelivered_keeps
    | with_reducible apply drain_keeps
    | with_reducible apply Keeps.ite
    | fail_if_no_progress (with_reducible refine Keeps.upd rfl ?_)
    | fail_if_no_progress (with_reducible refine Keeps.drop rfl ?_)
    | split
    | dsimp only

theorem grantRoom_keeps {s x : State} (h : Keeps s x) : Keeps s (grantRoom x) := by
  unfold grantRoom
  repeat' first
    | with_reducible exact h
    | with_reducible apply drain_keeps
    | with_reducible apply writePiece_keeps
    | with_reducible apply Keeps.ite
    | fail_if_no_progress (with_reducible refine Keeps.upd rfl ?_)
    | fail_if_no_progress (with_reducible refine Keeps.drop rfl ?_)
    | split

theorem slotDrained_keeps {s x : State} (h : Keeps s x) : Keeps s (slotDrained x) := by
  unfold slotDrained
  repeat' first
    | with_reducible exact h
    | with_reducible apply drain_keeps
    | with_reducible apply freeSlot_keeps
    | with_reducible apply Keeps.ite
    | fail_if_no_progress (with_reducible refine Keeps.upd rfl ?_)
    | fail_if_no_progress (with_reducible refine Keeps.drop rfl ?_)
    | split

theorem unloadDone_keeps (st : Status) (payload : List Byte) {s x : State} (h : Keeps s x) : Keeps s (unloadDone st payload x) := by
  unfold unloadDone
  repeat' first
    | with_reducible exact h
    | with_reducible apply startAttention_keeps
    | with_reducible apply postJobEnd_keeps
    | with_reducible apply noteStatus_keeps
    | with_reducible apply Keeps.ite
    | fail_if_no_progress (with_reducible refine Keeps.upd rfl ?_)

theorem endTransport_keeps (st : Status) {s x : State} (h : Keeps s x) : Keeps s (endTransport st x) := by
  unfold endTransport
  repeat' first
    | with_reducible exact h
    | with_reducible apply unloadDone_keeps
    | with_reducible apply completeWith_keeps
    | with_reducible apply complete_keeps
    | with_reducible apply postJobEnd_keeps
    | with_reducible apply noteStatus_keeps
    | with_reducible apply Keeps.ite
    | fail_if_no_progress (with_reducible refine Keeps.upd rfl ?_)
    | fail_if_no_progress (with_reducible refine Keeps.drop rfl ?_)
    | split

theorem loseOperations_keeps {s x : State} (h : Keeps s x) : Keeps s (loseOperations x) := by
  unfold loseOperations
  repeat' first
    | with_reducible exact h
    | with_reducible apply spliceEnds_keeps
    | with_reducible apply failRead_keeps
    | with_reducible apply readerIdle_keeps
    | with_reducible apply freeReadSlots_keeps
    | with_reducible apply sessionError_keeps
    | with_reducible apply completeWith_keeps
    | with_reducible apply Keeps.ite
    | fail_if_no_progress (with_reducible refine Keeps.upd rfl ?_)
    | fail_if_no_progress (with_reducible refine Keeps.drop rfl ?_)
    | split

theorem enterFaulted_keeps (st : Status) {s x : State} (h : Keeps s x) : Keeps s (enterFaulted st x) := by
  unfold enterFaulted
  repeat' first
    | with_reducible exact h
    | with_reducible apply loseOperations_keeps
    | with_reducible apply endTransport_keeps
    | with_reducible apply settle_keeps
    | with_reducible apply setTransport_keeps
    | with_reducible apply endRecovery_keeps
    | with_reducible apply holdIdle_keeps
    | with_reducible apply zeroAll_keeps
    | with_reducible apply cleaningFailed_keeps
    | with_reducible apply Keeps.ite
    | fail_if_no_progress (with_reducible refine Keeps.upd rfl ?_)

theorem finishEject_keeps {s x : State} (h : Keeps s x) : Keeps s (finishEject x) := by
  unfold finishEject
  repeat' first
    | with_reducible exact h
    | with_reducible apply endTransport_keeps
    | with_reducible apply setTransport_keeps
    | with_reducible apply postNotice_keeps
    | with_reducible apply Keeps.ite
    | fail_if_no_progress (with_reducible refine Keeps.upd rfl ?_)

theorem startEject_keeps {s x : State} (h : Keeps s x) : Keeps s (startEject x) := by
  unfold startEject
  repeat' first
    | with_reducible exact h
    | with_reducible apply finishEject_keeps
    | with_reducible apply setStep_keeps
    | with_reducible apply Keeps.ite

theorem startTagWrite_keeps {s x : State} (h : Keeps s x) : Keeps s (startTagWrite x) := by
  unfold startTagWrite
  repeat' first
    | with_reducible exact h
    | with_reducible apply startEject_keeps
    | with_reducible apply setStep_keeps
    | with_reducible apply healthAtTagWrite_keeps
    | with_reducible apply putCart_keeps
    | with_reducible apply Keeps.ite
    | fail_if_no_progress (with_reducible refine Keeps.upd rfl ?_)

theorem startHubRelease_keeps {s x : State} (h : Keeps s x) : Keeps s (startHubRelease x) := by
  unfold startHubRelease
  repeat' first
    | with_reducible exact h
    | with_reducible apply startTagWrite_keeps
    | with_reducible apply setStep_keeps
    | with_reducible apply Keeps.ite

theorem startPinRelease_keeps {s x : State} (h : Keeps s x) : Keeps s (startPinRelease x) := by
  unfold startPinRelease
  repeat' first
    | with_reducible exact h
    | with_reducible apply startHubRelease_keeps
    | with_reducible apply setStep_keeps
    | with_reducible apply Keeps.ite

theorem startThreadReturn_keeps {s x : State} (h : Keeps s x) : Keeps s (startThreadReturn x) := by
  unfold startThreadReturn
  repeat' first
    | with_reducible exact h
    | with_reducible apply setStep_keeps
    | with_reducible apply driveArm_keeps

theorem startTensionDown_keeps (x_ : Step) {s x : State} (h : Keeps s x) : Keeps s (startTensionDown x_ x) := by
  unfold startTensionDown
  repeat' first
    | with_reducible exact h
    | with_reducible apply Keeps.ite
    | fail_if_no_progress (with_reducible refine Keeps.upd rfl ?_)

theorem startSearch_keeps (g : Goal) {s x : State} (h : Keeps s x) : Keeps s (startSearch g x) := by
  unfold startSearch
  repeat' first
    | with_reducible exact h
    | with_reducible apply motionStart_keeps
    | with_reducible apply Keeps.ite
    | fail_if_no_progress (with_reducible refine Keeps.upd rfl ?_)

theorem startRewind_keeps {s x : State} (h : Keeps s x) : Keeps s (startRewind x) := by
  unfold startRewind
  repeat' first
    | with_reducible exact h
    | with_reducible apply startSearch_keeps
    | with_reducible apply startPlan_keeps
    | with_reducible apply motionStart_keeps
    | with_reducible apply setTransport_keeps
    | with_reducible apply Keeps.ite
    | fail_if_no_progress (with_reducible refine Keeps.upd rfl ?_)

theorem startUnloadFaulted_keeps {s x : State} (h : Keeps s x) : Keeps s (startUnloadFaulted x) := by
  unfold startUnloadFaulted
  repeat' first
    | with_reducible exact h
    | with_reducible apply startRewind_keeps
    | with_reducible apply startThreadReturn_keeps
    | with_reducible apply startTagWrite_keeps
    | with_reducible apply setStep_keeps
    | with_reducible apply setTransport_keeps
    | with_reducible apply Keeps.ite

theorem startAdopt_keeps {s x : State} (h : Keeps s x) : Keeps s (startAdopt x) := by
  unfold startAdopt
  repeat' first
    | with_reducible exact h
    | with_reducible apply setStep_keeps

theorem beginUnload_keeps {s x : State} (h : Keeps s x) : Keeps s (beginUnload x) := by
  unfold beginUnload
  repeat' first
    | with_reducible exact h
    | with_reducible apply startAdopt_keeps
    | with_reducible apply startUnloadFaulted_keeps
    | with_reducible apply startRewind_keeps
    | with_reducible apply Keeps.ite
    | fail_if_no_progress (with_reducible refine Keeps.upd rfl ?_)
    | fail_if_no_progress (with_reducible refine Keeps.drop rfl ?_)
    | split

theorem unloadFails_keeps {s x : State} (h : Keeps s x) : Keeps s (unloadFails x) := by
  unfold unloadFails
  repeat' first
    | with_reducible exact h
    | with_reducible apply enterFaulted_keeps

theorem beginLoad_keeps {s x : State} (h : Keeps s x) : Keeps s (beginLoad x) := by
  unfold beginLoad
  repeat' first
    | with_reducible exact h
    | with_reducible apply setStep_keeps
    | with_reducible apply setTransport_keeps
    | with_reducible apply Keeps.ite
    | fail_if_no_progress (with_reducible refine Keeps.upd rfl ?_)

theorem startThreadPull_keeps {s x : State} (h : Keeps s x) : Keeps s (startThreadPull x) := by
  unfold startThreadPull
  repeat' first
    | with_reducible exact h
    | with_reducible apply setStep_keeps
    | with_reducible apply driveArm_keeps

theorem startPinCapture_keeps {s x : State} (h : Keeps s x) : Keeps s (startPinCapture x) := by
  unfold startPinCapture
  repeat' first
    | with_reducible exact h
    | with_reducible apply startThreadPull_keeps
    | with_reducible apply setStep_keeps
    | with_reducible apply driveArm_keeps
    | with_reducible apply Keeps.ite

theorem startHubEngage_keeps {s x : State} (h : Keeps s x) : Keeps s (startHubEngage x) := by
  unfold startHubEngage
  repeat' first
    | with_reducible exact h
    | with_reducible apply startPinCapture_keeps
    | with_reducible apply setStep_keeps
    | with_reducible apply Keeps.ite

theorem loadEject_keeps (st : Status) {s x : State} (h : Keeps s x) : Keeps s (loadEject st x) := by
  unfold loadEject
  repeat' first
    | with_reducible exact h
    | with_reducible apply startEject_keeps
    | with_reducible apply Keeps.ite
    | fail_if_no_progress (with_reducible refine Keeps.upd rfl ?_)

theorem afterBackHub_keeps {s x : State} (h : Keeps s x) : Keeps s (afterBackHub x) := by
  unfold afterBackHub
  repeat' first
    | with_reducible exact h
    | with_reducible apply loadEject_keeps
    | with_reducible apply startHubEngage_keeps
    | with_reducible apply Keeps.ite

theorem startBackHub_keeps {s x : State} (h : Keeps s x) : Keeps s (startBackHub x) := by
  unfold startBackHub
  repeat' first
    | with_reducible exact h
    | with_reducible apply afterBackHub_keeps
    | with_reducible apply setStep_keeps
    | with_reducible apply Keeps.ite

theorem startBackArm_keeps {s x : State} (h : Keeps s x) : Keeps s (startBackArm x) := by
  unfold startBackArm
  repeat' first
    | with_reducible exact h
    | with_reducible apply setStep_keeps
    | with_reducible apply driveArm_keeps

theorem loadStepFails_keeps {s x : State} (h : Keeps s x) : Keeps s (loadStepFails x) := by
  unfold loadStepFails
  repeat' first
    | with_reducible exact h
    | with_reducible apply startBackArm_keeps
    | with_reducible apply loadEject_keeps
    | with_reducible apply startTensionDown_keeps
    | with_reducible apply setStep_keeps
    | with_reducible apply stopArm_keeps
    | with_reducible apply driveArm_keeps
    | with_reducible apply cleaningFailed_keeps
    | with_reducible apply Keeps.ite
    | fail_if_no_progress (with_reducible refine Keeps.upd rfl ?_)
    | fail_if_no_progress (with_reducible refine Keeps.drop rfl ?_)
    | split
    | dsimp only

theorem decideCartridge_keeps {s x : State} (h : Keeps s x) : Keeps s (decideCartridge x) := by
  unfold decideCartridge
  repeat' first
    | with_reducible exact h
    | with_reducible apply loadEject_keeps
    | with_reducible apply startHubEngage_keeps
    | with_reducible apply enterCleaning_keeps
    | with_reducible apply Keeps.ite

theorem putRaw_keeps (bs : List Byte) {s x : State} (h : Keeps s x) : Keeps s (putRaw bs x) := by
  unfold putRaw
  repeat' first
    | with_reducible exact h
    | with_reducible apply issueWrite_keeps
    | with_reducible apply Keeps.ite
    | fail_if_no_progress (with_reducible refine Keeps.upd rfl ?_)
    | fail_if_no_progress (with_reducible refine Keeps.drop rfl ?_)
    | split

theorem putImage_keeps (bs : List Byte) {s x : State} (h : Keeps s x) : Keeps s (putImage bs x) := by
  unfold putImage
  repeat' first
    | with_reducible exact h
    | with_reducible apply issueWrite_keeps
    | with_reducible apply Keeps.ite
    | fail_if_no_progress (with_reducible refine Keeps.upd rfl ?_)
    | fail_if_no_progress (with_reducible refine Keeps.drop rfl ?_)
    | split

theorem adopted_keeps (unreadable : Bool) {s x : State} (h : Keeps s x) : Keeps s (adopted unreadable x) := by
  unfold adopted
  repeat' first
    | with_reducible exact h
    | with_reducible apply noteTarget_keeps
    | with_reducible apply Keeps.ite
    | fail_if_no_progress (with_reducible refine Keeps.upd rfl ?_)

theorem adoptRecord_keeps (tag : Option (List Byte)) {s x : State} (h : Keeps s x) : Keeps s (adoptRecord tag x) := by
  unfold adoptRecord
  repeat' first
    | with_reducible exact h
    | with_reducible apply adopted_keeps
    | with_reducible apply putImage_keeps
    | with_reducible apply putRaw_keeps
    | with_reducible apply putCart_keeps
    | with_reducible apply consultCart_keeps
    | with_reducible apply Keeps.ite
    | fail_if_no_progress (with_reducible refine Keeps.upd rfl ?_)
    | fail_if_no_progress (with_reducible refine Keeps.drop rfl ?_)
    | split

theorem beginRecalibrate_keeps {s x : State} (h : Keeps s x) : Keeps s (beginRecalibrate x) := by
  unfold beginRecalibrate
  repeat' first
    | with_reducible exact h
    | with_reducible apply startSearch_keeps
    | with_reducible apply setTransport_keeps
    | with_reducible apply Keeps.ite
    | fail_if_no_progress (with_reducible refine Keeps.upd rfl ?_)

theorem afterAdopt_keeps {s x : State} (h : Keeps s x) : Keeps s (afterAdopt x) := by
  unfold afterAdopt
  repeat' first
    | with_reducible exact h
    | with_reducible apply beginRecalibrate_keeps
    | with_reducible apply startRewind_keeps
    | with_reducible apply Keeps.ite
    | fail_if_no_progress (with_reducible refine Keeps.upd rfl ?_)
    | fail_if_no_progress (with_reducible refine Keeps.drop rfl ?_)
    | split

theorem tagReadEnds_keeps (img : Option (List Byte)) {s x : State} (h : Keeps s x) : Keeps s (tagReadEnds img x) := by
  unfold tagReadEnds
  repeat' first
    | with_reducible exact h
    | with_reducible apply afterAdopt_keeps
    | with_reducible apply adoptRecord_keeps
    | with_reducible apply putImage_keeps
    | with_reducible apply putRaw_keeps
    | with_reducible apply decideCartridge_keeps
    | with_reducible apply setStep_keeps
    | with_reducible apply putCart_keeps
    | with_reducible apply Keeps.ite
    | fail_if_no_progress (with_reducible refine Keeps.upd rfl ?_)
    | fail_if_no_progress (with_reducible refine Keeps.drop rfl ?_)
    | split

theorem countLoad_keeps {s x : State} (h : Keeps s x) : Keeps s (countLoad x) := by
  unfold countLoad
  repeat' first
    | with_reducible exact h
    | with_reducible apply putCart_keeps

theorem finishLoad_keeps {s x : State} (h : Keeps s x) : Keeps s (finishLoad x) := by
  unfold finishLoad
  repeat' first
    | with_reducible exact h
    | with_reducible apply endTransport_keeps
    | with_reducible apply toReady_keeps
    | with_reducible apply loadTally_keeps
    | with_reducible apply Keeps.ite
    | fail_if_no_progress (with_reducible refine Keeps.upd rfl ?_)

theorem beginConfirm_keeps {s x : State} (h : Keeps s x) : Keeps s (beginConfirm x) := by
  unfold beginConfirm
  repeat' first
    | with_reducible exact h
    | with_reducible apply locateTo_keeps
    | with_reducible apply setTransport_keeps
    | with_reducible apply consultCart_keeps
    | with_reducible apply Keeps.ite
    | fail_if_no_progress (with_reducible refine Keeps.upd rfl ?_)

theorem loadComplete_keeps {s x : State} (h : Keeps s x) : Keeps s (loadComplete x) := by
  unfold loadComplete
  repeat' first
    | with_reducible exact h
    | with_reducible apply beginConfirm_keeps
    | with_reducible apply finishLoad_keeps
    | with_reducible apply countLoad_keeps
    | with_reducible apply Keeps.ite
    | fail_if_no_progress (with_reducible refine Keeps.upd rfl ?_)

theorem beginCleanRun_keeps {s x : State} (h : Keeps s x) : Keeps s (beginCleanRun x) := by
  unfold beginCleanRun
  repeat' first
    | with_reducible exact h
    | with_reducible apply countLoad_keeps
    | with_reducible apply setTransport_keeps
    | with_reducible apply Keeps.ite
    | fail_if_no_progress (with_reducible refine Keeps.upd rfl ?_)

theorem cleaningDone_keeps {s x : State} (h : Keeps s x) : Keeps s (cleaningDone x) := by
  unfold cleaningDone
  repeat' first
    | with_reducible exact h
    | with_reducible apply startRewind_keeps
    | with_reducible apply changeClean_keeps
    | with_reducible apply Keeps.ite
    | fail_if_no_progress (with_reducible refine Keeps.upd rfl ?_)

theorem loadSeatLoss_keeps {s x : State} (h : Keeps s x) : Keeps s (loadSeatLoss x) := by
  unfold loadSeatLoss
  repeat' first
    | with_reducible exact h
    | with_reducible apply enterFaulted_keeps
    | with_reducible apply endTransport_keeps
    | with_reducible apply setTransport_keeps
    | with_reducible apply zeroAll_keeps
    | with_reducible apply cleaningFailed_keeps
    | with_reducible apply postNotice_keeps
    | with_reducible apply Keeps.ite
    | fail_if_no_progress (with_reducible refine Keeps.upd rfl ?_)

theorem setFrame_keeps (k : Nat) (i : Nat) (v : FrameEntry) {s x : State} (h : Keeps s x) : Keeps s (setFrame k i v x) := by
  unfold setFrame
  repeat' first
    | with_reducible exact h
    | with_reducible apply setSlot_keeps
    | exact .inl ⟨rfl, rfl⟩
    | exact .inr rfl

theorem voidFrames_keeps (a : Abandonment) {s x : State} (h : Keeps s x) : Keeps s (voidFrames a x) := by
  unfold voidFrames
  repeat' first
    | with_reducible exact h
    | with_reducible apply Keeps.ite
    | fail_if_no_progress (with_reducible refine Keeps.upd rfl ?_)

theorem secondPlacement_keeps (k : Nat) {s x : State} (h : Keeps s x) : Keeps s (secondPlacement k x) := by
  unfold secondPlacement
  split
  · rename_i ht
    exact setSlot_keeps _ _ (.inr ht.symm) h
  · exact h

theorem meetWriteError_keeps {s x : State} (h : Keeps s x) : Keeps s (meetWriteError x) := by
  unfold meetWriteError
  repeat' first
    | with_reducible exact h
    | with_reducible apply sessionError_keeps
    | with_reducible apply dropWriter_keeps
    | with_reducible apply stopThen_keeps
    | with_reducible apply toReady_keeps
    | with_reducible apply endRecovery_keeps
    | with_reducible apply event_keeps
    | with_reducible apply Keeps.ite
    | fail_if_no_progress (with_reducible refine Keeps.upd rfl ?_)

theorem skipSlots_keeps (a : Abandonment) {s x : State} (h : Keeps s x) : Keeps s (skipSlots a x) := by
  unfold skipSlots
  repeat' first
    | with_reducible exact h
    | with_reducible apply secondPlacement_keeps
    | with_reducible apply voidFrames_keeps
    | with_reducible apply event_keeps
    | with_reducible apply Keeps.ite
    | fail_if_no_progress (with_reducible refine Keeps.upd rfl ?_)
    | fail_if_no_progress (with_reducible refine Keeps.drop rfl ?_)
    | split

theorem rampToBand_keeps {s x : State} (h : Keeps s x) : Keeps s (rampToBand x) := by
  unfold rampToBand
  repeat' first
    | with_reducible exact h
    | with_reducible apply Keeps.ite
    | fail_if_no_progress (with_reducible refine Keeps.upd rfl ?_)
    | fail_if_no_progress (with_reducible refine Keeps.drop rfl ?_)
    | split
    | dsimp only
    | fail_if_no_progress (refine Keeps.set rfl (fun k₀ k => ?_) ?_; (rw [bandsLegal_iff] at k₀ k ⊢; have := getD_le k.2.1 k.1; dsimp only; (repeat' split) <;> (try simp only [Option.getD_some, Option.getD_none]) <;> omega))

theorem skipInStream_keeps (a : Abandonment) {s x : State} (h : Keeps s x) : Keeps s (skipInStream a x) := by
  unfold skipInStream
  repeat' first
    | with_reducible exact h
    | with_reducible apply rampToBand_keeps
    | with_reducible apply skipSlots_keeps
    | with_reducible apply Keeps.ite
    | fail_if_no_progress (with_reducible refine Keeps.upd rfl ?_)

theorem giveUpSlot_keeps (k : Nat) {s x : State} (h : Keeps s x) : Keeps s (giveUpSlot k x) := by
  unfold giveUpSlot
  repeat' first
    | with_reducible exact h
    | with_reducible apply backToSealed_keeps
    | with_reducible apply freeSlot_keeps
    | with_reducible apply Keeps.ite

theorem abandonAtEot_keeps (a : Abandonment) {s x : State} (h : Keeps s x) : Keeps s (abandonAtEot a x) := by
  unfold abandonAtEot
  repeat' first
    | with_reducible exact h
    | with_reducible apply giveUpSlot_keeps
    | with_reducible apply voidFrames_keeps
    | with_reducible apply Keeps.ite
    | fail_if_no_progress (with_reducible refine Keeps.upd rfl ?_)
    | fail_if_no_progress (with_reducible refine Keeps.drop rfl ?_)
    | split

theorem abandonPlacement_keeps (a : Abandonment) {s x : State} (h : Keeps s x) : Keeps s (abandonPlacement a x) := by
  unfold abandonPlacement
  repeat' first
    | with_reducible exact h
    | with_reducible apply abandonAtEot_keeps
    | with_reducible apply skipInStream_keeps
    | with_reducible apply meetWriteError_keeps
    | with_reducible apply Keeps.ite
    | fail_if_no_progress (with_reducible refine Keeps.upd rfl ?_)

theorem queueRewrite_keeps (k : Nat) (i : Nat) {s x : State} (h : Keeps s x) : Keeps s (queueRewrite k i x) := by
  unfold queueRewrite
  repeat' first
    | with_reducible exact h
    | with_reducible apply setFrame_keeps
    | with_reducible apply setSlot_keeps
    | with_reducible apply Keeps.ite
    | fail_if_no_progress (with_reducible refine Keeps.upd rfl ?_)
    | exact .inl ⟨rfl, rfl⟩
    | exact .inr rfl

theorem failFrame_keeps (k : Nat) (i : Nat) {s x : State} (h : Keeps s x) : Keeps s (failFrame k i x) := by
  unfold failFrame
  repeat' first
    | with_reducible exact h
    | with_reducible apply queueRewrite_keeps
    | with_reducible apply abandonPlacement_keeps
    | with_reducible apply event_keeps
    | with_reducible apply Keeps.ite

theorem commitSlot_keeps (k : Nat) {s x : State} (h : Keeps s x) : Keeps s (commitSlot k x) := by
  unfold commitSlot
  repeat' first
    | with_reducible exact h
    | with_reducible apply consultLast_keeps
    | with_reducible apply checkClose_keeps
    | with_reducible apply checkFlush_keeps
    | with_reducible apply freeSlot_keeps
    | with_reducible apply consultSlot_keeps
    | with_reducible apply putCart_keeps
    | with_reducible apply Keeps.ite
    | fail_if_no_progress (with_reducible refine Keeps.upd rfl ?_)

theorem commitReady_keeps (n : Nat) {s x : State} (h : Keeps s x) : Keeps s (commitReady n x) := by
  induction n generalizing x with
  | zero => exact h
  | succ n ih =>
    unfold commitReady
    repeat' first
      | with_reducible exact h
      | with_reducible apply ih
      | with_reducible apply commitSlot_keeps
      | with_reducible apply Keeps.ite
      | split

theorem verifyResult_keeps (id : FrameId) (st : FrameStatus) {s x : State} (h : Keeps s x) : Keeps s (verifyResult id st x) := by
  unfold verifyResult
  repeat' first
    | with_reducible exact h
    | with_reducible apply commitReady_keeps
    | with_reducible apply failFrame_keeps
    | with_reducible apply setFrame_keeps
    | with_reducible apply event_keeps
    | with_reducible apply Keeps.ite
    | fail_if_no_progress (with_reducible refine Keeps.upd rfl ?_)
    | fail_if_no_progress (with_reducible refine Keeps.drop rfl ?_)
    | split

theorem nextSlot_keeps {s x : State} (h : Keeps s x) : Keeps s (nextSlot x) := by
  unfold nextSlot
  repeat' first
    | with_reducible exact h
    | with_reducible apply Keeps.ite
    | fail_if_no_progress (with_reducible refine Keeps.upd rfl ?_)

theorem sendFrame_keeps (k : Nat) (i : Nat) {s x : State} (h : Keeps s x) : Keeps s (sendFrame k i x) := by
  unfold sendFrame
  dsimp only
  apply event_keeps
  apply nextSlot_keeps
  apply issueRead_keeps
  have k1 : ∀ v : Slot, v.st = (if (decide (i = 0) && decide ((frameAt x k i).st = .unwritten) && isSealed (slotAt x k).st &&
      decide ((x.sm.slots.filter (fun y => isOnTape y.st)).length < 2)) = true then .onTape else (slotAt x k).st) → Keeps s (setSlot k v x) := by
    intro v hv
    refine setSlot_law (fun q => ?_) (fun q => ?_) h
    · rw [hv] at q
      split at q
      · exact absurd q (by decide)
      · exact Or.inl q
    · rw [hv] at q
      split at q
      · rename_i c
        simp only [Bool.and_eq_true, decide_eq_true_eq] at c
        exact Or.inr c.2
      · exact Or.inl q
  refine Keeps.set rfl (fun k₀ q => ?_) (k1 _ rfl)
  generalize setSlot k _ x = y at q ⊢
  rw [bandsLegal_iff] at q ⊢
  have := getD_le q.2.1 q.1
  dsimp only
  by_cases hn : (decide (i = 0) && decide ((frameAt x k i).st = .unwritten)) = true
  · simp only [hn, if_true]
    exact ⟨this, Nat.zero_le 7, q.2.2⟩
  · simp only [hn]
    exact q

theorem beginTurn_keeps (g : Goal) {s x : State} (h : Keeps s x) : Keeps s (beginTurn g x) := by
  unfold beginTurn
  repeat' first
    | with_reducible exact h
    | with_reducible apply beginLegs_keeps
    | with_reducible apply motionStart_keeps
    | with_reducible apply Keeps.ite
    | fail_if_no_progress (with_reducible refine Keeps.upd rfl ?_)
    | fail_if_no_progress (with_reducible refine Keeps.drop rfl ?_)

theorem meetEndOfTape_keeps {s x : State} (h : Keeps s x) : Keeps s (meetEndOfTape x) := by
  unfold meetEndOfTape
  repeat' first
    | with_reducible exact h
    | with_reducible apply sessionError_keeps

theorem beginBackhitch_keeps {s x : State} (h : Keeps s x) : Keeps s (beginBackhitch x) := by
  unfold beginBackhitch
  repeat' first
    | with_reducible exact h
    | with_reducible apply startPlan_keeps
    | with_reducible apply Keeps.ite
    | fail_if_no_progress (with_reducible refine Keeps.upd rfl ?_)

theorem runoutEnds_keeps {s x : State} (h : Keeps s x) : Keeps s (runoutEnds x) := by
  unfold runoutEnds
  repeat' first
    | with_reducible exact h
    | with_reducible apply beginBackhitch_keeps
    | with_reducible apply beginTurn_keeps
    | with_reducible apply stopThen_keeps
    | with_reducible apply toReady_keeps
    | with_reducible apply Keeps.ite
    | fail_if_no_progress (with_reducible refine Keeps.upd rfl ?_)

theorem declineSlot_keeps {s x : State} (h : Keeps s x) : Keeps s (declineSlot x) := by
  unfold declineSlot
  repeat' first
    | with_reducible exact h
    | with_reducible apply runoutEnds_keeps
    | with_reducible apply nextSlot_keeps
    | with_reducible apply Keeps.ite
    | fail_if_no_progress (with_reducible refine Keeps.upd rfl ?_)

theorem startFrame0_keeps (k : Nat) (from_ : Nat) {s x : State} (h : Keeps s x) : Keeps s (startFrame0 k from_ x) := by
  unfold startFrame0
  repeat' first
    | with_reducible exact h
    | with_reducible apply declineSlot_keeps
    | with_reducible apply meetEndOfTape_keeps
    | with_reducible apply sendFrame_keeps
    | with_reducible apply nextSlot_keeps
    | with_reducible apply rampToBand_keeps
    | with_reducible apply Keeps.ite
    | fail_if_no_progress (with_reducible refine Keeps.upd rfl ?_)
    | fail_if_no_progress (with_reducible refine Keeps.drop rfl ?_)

theorem heldFrame0_keeps (k : Nat) {s x : State} (h : Keeps s x) : Keeps s (heldFrame0 k x) := by
  unfold heldFrame0
  repeat' first
    | with_reducible exact h
    | with_reducible apply startFrame0_keeps
    | with_reducible apply sendFrame_keeps
    | with_reducible apply Keeps.ite

theorem chooseFrame0_keeps (k : Nat) {s x : State} (h : Keeps s x) : Keeps s (chooseFrame0 k x) := by
  unfold chooseFrame0
  repeat' first
    | with_reducible exact h
    | with_reducible apply startFrame0_keeps

theorem frameSlot_keeps {s x : State} (h : Keeps s x) : Keeps s (frameSlot x) := by
  unfold frameSlot
  repeat' first
    | with_reducible exact h
    | with_reducible apply chooseFrame0_keeps
    | with_reducible apply heldFrame0_keeps
    | with_reducible apply startFrame0_keeps
    | with_reducible apply declineSlot_keeps
    | with_reducible apply sendFrame_keeps
    | with_reducible apply nextSlot_keeps
    | with_reducible apply abandonAtEot_keeps
    | with_reducible apply Keeps.ite
    | fail_if_no_progress (with_reducible refine Keeps.upd rfl ?_)
    | fail_if_no_progress (with_reducible refine Keeps.drop rfl ?_)
    | split

theorem transmissionComplete_keeps {s x : State} (h : Keeps s x) : Keeps s (transmissionComplete x) := by
  unfold transmissionComplete
  repeat' first
    | with_reducible exact h
    | with_reducible apply abandonAtEot_keeps
    | with_reducible apply skipInStream_keeps
    | with_reducible apply Keeps.ite
    | fail_if_no_progress (with_reducible refine Keeps.upd rfl ?_)
    | fail_if_no_progress (with_reducible refine Keeps.drop rfl ?_)
    | split
    | dsimp only

theorem handOver_keeps (vs : List VerifyEntry) {s x : State} (h : Keeps s x) : Keeps s (handOver vs x).1 := by
  induction vs generalizing x with
  | nil => exact h
  | cons v vs ih =>
    unfold handOver
    split
    · exact ih h
    · split
      · exact ih (queueRewrite_keeps _ _ h)
      · exact foldl_keeps _ _ (fun w t k => setFrame_keeps _ _ _ k) h

theorem carryOut_keeps (a : Abandonment) {s x : State} (h : Keeps s x) : Keeps s (carryOut a x) := by
  unfold carryOut
  repeat' first
    | with_reducible exact h
    | with_reducible apply abandonAtEot_keeps
    | with_reducible apply skipSlots_keeps
    | with_reducible apply meetWriteError_keeps
    | with_reducible apply Keeps.ite
    | fail_if_no_progress (with_reducible refine Keeps.upd rfl ?_)

theorem writerEntry_keeps {s x : State} (h : Keeps s x) : Keeps s (writerEntry x) := by
  unfold writerEntry
  repeat' first
    | with_reducible exact h
    | with_reducible apply carryOut_keeps
    | with_reducible apply handOver_keeps
    | with_reducible apply Keeps.ite
    | fail_if_no_progress (with_reducible refine Keeps.upd rfl ?_)
    | fail_if_no_progress (with_reducible refine Keeps.drop rfl ?_)
    | split
    | dsimp only

theorem abandonForTurn_keeps {s x : State} (h : Keeps s x) : Keeps s (abandonForTurn x) := by
  unfold abandonForTurn
  repeat' first
    | with_reducible exact h
    | with_reducible apply skipSlots_keeps
    | with_reducible apply meetWriteError_keeps
    | with_reducible apply Keeps.ite
    | fail_if_no_progress (with_reducible refine Keeps.upd rfl ?_)
    | fail_if_no_progress (with_reducible refine Keeps.drop rfl ?_)
    | split

theorem pushContext_keeps (c : Context) {s x : State} (h : Keeps s x) : Keeps s (pushContext c x) := by
  unfold pushContext
  repeat' first
    | with_reducible exact h
    | with_reducible apply issueWrite_keeps
    | with_reducible apply Keeps.ite
    | fail_if_no_progress (with_reducible refine Keeps.upd rfl ?_)
    | fail_if_no_progress (with_reducible refine Keeps.drop rfl ?_)
    | split
    | dsimp only

theorem failureStands_keeps (faulted : Bool) {s x : State} (h : Keeps s x) : Keeps s (failureStands faulted x) := by
  unfold failureStands
  repeat' first
    | with_reducible exact h
    | with_reducible apply enterFaulted_keeps
    | with_reducible apply loseOperations_keeps
    | with_reducible apply endTransport_keeps
    | with_reducible apply settle_keeps
    | with_reducible apply setTransport_keeps
    | with_reducible apply endRecovery_keeps
    | with_reducible apply cleaningFailed_keeps
    | with_reducible apply Keeps.ite
    | fail_if_no_progress (with_reducible refine Keeps.upd rfl ?_)

theorem failRecovery_keeps (faulted : Bool) {s x : State} (h : Keeps s x) : Keeps s (failRecovery faulted x) := by
  unfold failRecovery
  repeat' first
    | with_reducible exact h
    | with_reducible apply failureStands_keeps
    | with_reducible apply startPlan_keeps
    | with_reducible apply Keeps.ite
    | fail_if_no_progress (with_reducible refine Keeps.upd rfl ?_)

theorem causeEvent_keeps (c : Cause) {s x : State} (h : Keeps s x) : Keeps s (causeEvent c x) := by
  unfold causeEvent
  repeat' first
    | with_reducible exact h
    | with_reducible apply event_keeps
    | with_reducible apply Keeps.ite
    | fail_if_no_progress (with_reducible refine Keeps.upd rfl ?_)
    | fail_if_no_progress (with_reducible refine Keeps.drop rfl ?_)
    | split

theorem startProcedure_keeps {s x : State} (h : Keeps s x) : Keeps s (startProcedure x) := by
  unfold startProcedure
  repeat' first
    | with_reducible exact h
    | with_reducible apply startPlan_keeps
    | with_reducible apply Keeps.ite
    | fail_if_no_progress (with_reducible refine Keeps.upd rfl ?_)

theorem enterRecovery_keeps (again : Option Context) {s x : State} (h : Keeps s x) : Keeps s (enterRecovery again x) := by
  unfold enterRecovery
  repeat' first
    | with_reducible exact h
    | with_reducible apply startProcedure_keeps
    | with_reducible apply causeEvent_keeps
    | with_reducible apply failRecovery_keeps
    | with_reducible apply pushContext_keeps
    | with_reducible apply writerEntry_keeps
    | with_reducible apply Keeps.ite
    | fail_if_no_progress (with_reducible refine Keeps.upd rfl ?_)
    | fail_if_no_progress (with_reducible refine Keeps.drop rfl ?_)
    | split

theorem raiseFault_keeps (c : Cause) {s x : State} (h : Keeps s x) : Keeps s (raiseFault c x) := by
  unfold raiseFault
  repeat' first
    | with_reducible exact h
    | with_reducible apply enterRecovery_keeps
    | with_reducible apply startProcedure_keeps
    | with_reducible apply causeEvent_keeps
    | with_reducible apply failRecovery_keeps
    | with_reducible apply pushContext_keeps
    | with_reducible apply enterFaulted_keeps
    | with_reducible apply Keeps.ite
    | fail_if_no_progress (with_reducible refine Keeps.upd rfl ?_)
    | fail_if_no_progress (with_reducible refine Keeps.drop rfl ?_)
    | split

theorem popContext_keeps {s x : State} (h : Keeps s x) : Keeps s (popContext x) := by
  unfold popContext
  repeat' first
    | with_reducible exact h
    | with_reducible apply issueRead_keeps
    | with_reducible apply Keeps.ite
    | fail_if_no_progress (with_reducible refine Keeps.upd rfl ?_)
    | fail_if_no_progress (with_reducible refine Keeps.drop rfl ?_)
    | split

theorem procedureReturns_keeps {s x : State} (h : Keeps s x) : Keeps s (procedureReturns x) := by
  unfold procedureReturns
  repeat' first
    | with_reducible exact h
    | with_reducible apply popContext_keeps
    | with_reducible apply startPlan_keeps
    | with_reducible apply Keeps.ite
    | fail_if_no_progress (with_reducible refine Keeps.upd rfl ?_)
    | fail_if_no_progress (with_reducible refine Keeps.drop rfl ?_)
    | split

theorem forwardToLock_keeps (x_ : Context) {s x : State} (h : Keeps s x) : Keeps s (forwardToLock x_ x) := by
  unfold forwardToLock
  repeat' first
    | with_reducible exact h
    | with_reducible apply procedureReturns_keeps
    | with_reducible apply Keeps.ite
    | fail_if_no_progress (with_reducible refine Keeps.upd rfl ?_)

theorem procedureStopped_keeps {s x : State} (h : Keeps s x) : Keeps s (procedureStopped x) := by
  unfold procedureStopped
  repeat' first
    | with_reducible exact h
    | with_reducible apply forwardToLock_keeps
    | with_reducible apply procedureReturns_keeps
    | with_reducible apply startPlan_keeps
    | with_reducible apply noteTarget_keeps
    | with_reducible apply Keeps.ite
    | fail_if_no_progress (with_reducible refine Keeps.upd rfl ?_)
    | fail_if_no_progress (with_reducible refine Keeps.drop rfl ?_)
    | split

theorem beginReadTurn_keeps {s x : State} (h : Keeps s x) : Keeps s (beginReadTurn x) := by
  unfold beginReadTurn
  repeat' first
    | with_reducible exact h
    | with_reducible apply beginTurn_keeps

theorem resumeEndApproach_keeps (x_ : Context) {s x : State} (h : Keeps s x) : Keeps s (resumeEndApproach x_ x) := by
  unfold resumeEndApproach
  repeat' first
    | with_reducible exact h
    | with_reducible apply beginReadTurn_keeps
    | with_reducible apply abandonForTurn_keeps
    | with_reducible apply beginTurn_keeps
    | with_reducible apply endOfStream_keeps
    | with_reducible apply sessionError_keeps
    | with_reducible apply dropWriter_keeps
    | with_reducible apply allBackToSealed_keeps
    | with_reducible apply toReady_keeps
    | with_reducible apply Keeps.ite
    | fail_if_no_progress (with_reducible refine Keeps.upd rfl ?_)
    | fail_if_no_progress (with_reducible refine Keeps.drop rfl ?_)
    | split

theorem resumeOperation_keeps (x_ : Context) {s x : State} (h : Keeps s x) : Keeps s (resumeOperation x_ x) := by
  unfold resumeOperation
  repeat' first
    | with_reducible exact h
    | with_reducible apply resumeEndApproach_keeps
    | with_reducible apply enterWaitData_keeps
    | with_reducible apply rampRead_keeps
    | with_reducible apply rampWrite_keeps
    | with_reducible apply stopThen_keeps
    | with_reducible apply startPlan_keeps
    | with_reducible apply noteTarget_keeps
    | with_reducible apply backhitchEvent_keeps
    | with_reducible apply Keeps.ite
    | fail_if_no_progress (with_reducible refine Keeps.upd rfl ?_)
    | fail_if_no_progress (with_reducible refine Keeps.drop rfl ?_)
    | split
    | dsimp only
    | fail_if_no_progress (refine Keeps.set rfl (fun k₀ k => ?_) ?_; (rw [bandsLegal_iff] at k₀ k ⊢; have := getD_le k.2.1 k.1; dsimp only; (repeat' split) <;> (try simp only [Option.getD_some, Option.getD_none]) <;> omega))

theorem contextPopped_keeps (d : Nat) (bs : List Byte) {s x : State} (h : Keeps s x) : Keeps s (contextPopped d bs x) := by
  unfold contextPopped
  repeat' first
    | with_reducible exact h
    | with_reducible apply resumeOperation_keeps
    | with_reducible apply enterRecovery_keeps
    | with_reducible apply startProcedure_keeps
    | with_reducible apply failRecovery_keeps
    | with_reducible apply issueWrite_keeps
    | with_reducible apply Keeps.ite
    | fail_if_no_progress (with_reducible refine Keeps.upd rfl ?_)
    | fail_if_no_progress (with_reducible refine Keeps.drop rfl ?_)
    | split
    | dsimp only

theorem openSession_keeps (offset : Nat) (compress : Bool) (firstSeg : Nat) (nextRec : Nat) (resume : Pos) {s x : State} (h : Keeps s x) : Keeps s (openSession offset compress firstSeg nextRec resume x) := by
  unfold openSession
  dsimp only
  apply completeWith_keeps
  apply startSpeed_keeps
  refine Keeps.law (x := putCart { (dropOnTape x).cart with session := min ((dropOnTape x).cart.session + 1) max32 } (dropOnTape x)) rfl rfl
    (fun l => ?_) (putCart_keeps _ (dropOnTape_keeps h))
  rw [lawful_iff] at l ⊢
  exact ⟨l.1, spansLawful_nil (Nat.zero_le _), l.2.2⟩

theorem openSplice_keeps {s x : State} (h : Keeps s x) : Keeps s (openSplice x) := by
  unfold openSplice
  repeat' first
    | with_reducible exact h
    | with_reducible apply openSession_keeps
    | with_reducible apply readerIdle_keeps
    | with_reducible apply enterWaitData_keeps
    | with_reducible apply toReady_keeps
    | with_reducible apply consultSlot_keeps
    | with_reducible apply putCart_keeps
    | with_reducible apply Keeps.ite
    | fail_if_no_progress (with_reducible refine Keeps.upd rfl ?_)
    | fail_if_no_progress (with_reducible refine Keeps.drop rfl ?_)
    | split

theorem beginRead_keeps (sp : StartPoint) {s x : State} (h : Keeps s x) : Keeps s (beginRead sp x) := by
  unfold beginRead
  repeat' first
    | with_reducible exact h
    | with_reducible apply backhitchTo_keeps
    | with_reducible apply Keeps.ite
    | fail_if_no_progress (with_reducible refine Keeps.upd rfl ?_)

theorem beginSpliceRead_keeps (sp : StartPoint) {s x : State} (h : Keeps s x) : Keeps s (beginSpliceRead sp x) := by
  unfold beginSpliceRead
  repeat' first
    | with_reducible exact h
    | with_reducible apply backhitchTo_keeps
    | with_reducible apply Keeps.ite
    | fail_if_no_progress (with_reducible refine Keeps.upd rfl ?_)

theorem scanStands_keeps {s x : State} (h : Keeps s x) : Keeps s (scanStands x) := by
  unfold scanStands
  repeat' first
    | with_reducible exact h
    | with_reducible apply beginSpliceRead_keeps
    | with_reducible apply beginRead_keeps
    | with_reducible apply readerIdle_keeps
    | with_reducible apply toReady_keeps
    | with_reducible apply backhitchEvent_keeps
    | with_reducible apply complete_keeps
    | with_reducible apply Keeps.ite
    | fail_if_no_progress (with_reducible refine Keeps.upd rfl ?_)
    | fail_if_no_progress (with_reducible refine Keeps.drop rfl ?_)
    | split
    | dsimp only

theorem scanFails_keeps (st : Status) {s x : State} (h : Keeps s x) : Keeps s (scanFails st x) := by
  unfold scanFails
  repeat' first
    | with_reducible exact h
    | with_reducible apply consultHead_keeps
    | with_reducible apply spliceEnds_keeps
    | with_reducible apply readerIdle_keeps
    | with_reducible apply toReady_keeps
    | with_reducible apply complete_keeps
    | with_reducible apply Keeps.ite
    | fail_if_no_progress (with_reducible refine Keeps.upd rfl ?_)
    | fail_if_no_progress (with_reducible refine Keeps.drop rfl ?_)
    | split

theorem readStands_keeps {s x : State} (h : Keeps s x) : Keeps s (readStands x) := by
  unfold readStands
  repeat' first
    | with_reducible exact h
    | with_reducible apply readerIdle_keeps
    | with_reducible apply toReady_keeps
    | with_reducible apply complete_keeps
    | with_reducible apply Keeps.ite
    | fail_if_no_progress (with_reducible refine Keeps.upd rfl ?_)

theorem abortStands_keeps {s x : State} (h : Keeps s x) : Keeps s (abortStands x) := by
  unfold abortStands
  repeat' first
    | with_reducible exact h
    | with_reducible apply completeWith_keeps
    | with_reducible apply Keeps.ite
    | fail_if_no_progress (with_reducible refine Keeps.upd rfl ?_)
    | fail_if_no_progress (with_reducible refine Keeps.drop rfl ?_)
    | split

theorem turnPass_keeps (g : Goal) {s x : State} (h : Keeps s x) : Keeps s (turnPass g x) := by
  unfold turnPass
  repeat' first
    | with_reducible exact h
    | with_reducible apply awaitPass_keeps
    | with_reducible apply Keeps.ite
    | fail_if_no_progress (with_reducible refine Keeps.upd rfl ?_)

theorem turnToWrite_keeps {s x : State} (h : Keeps s x) : Keeps s (turnToWrite x) := by
  unfold turnToWrite
  repeat' first
    | with_reducible exact h
    | with_reducible apply rampInto_keeps
    | with_reducible apply Keeps.ite
    | fail_if_no_progress (with_reducible refine Keeps.upd rfl ?_)
    | fail_if_no_progress (with_reducible refine Keeps.drop rfl ?_)
    | split
    | dsimp only
    | fail_if_no_progress (refine Keeps.set rfl (fun k₀ k => ?_) ?_; (rw [bandsLegal_iff] at k₀ k ⊢; have := getD_le k.2.1 k.1; dsimp only; (repeat' split) <;> (try simp only [Option.getD_some, Option.getD_none]) <;> omega))

theorem turnToRead_keeps {s x : State} (h : Keeps s x) : Keeps s (turnToRead x) := by
  unfold turnToRead
  repeat' first
    | with_reducible exact h
    | with_reducible apply rampInto_keeps
    | with_reducible apply Keeps.ite
    | fail_if_no_progress (with_reducible refine Keeps.upd rfl ?_)
    | fail_if_no_progress (with_reducible refine Keeps.drop rfl ?_)
    | split
    | dsimp only
    | fail_if_no_progress (refine Keeps.set rfl (fun k₀ k => ?_) ?_; (rw [bandsLegal_iff] at k₀ k ⊢; have := getD_le k.2.1 k.1; dsimp only; (repeat' split) <;> (try simp only [Option.getD_some, Option.getD_none]) <;> omega))

theorem passReached_keeps {s x : State} (h : Keeps s x) : Keeps s (passReached x) := by
  unfold passReached
  repeat' first
    | with_reducible exact h
    | with_reducible apply turnToRead_keeps
    | with_reducible apply turnToWrite_keeps
    | with_reducible apply beginLegs_keeps
    | with_reducible apply Keeps.ite
    | fail_if_no_progress (with_reducible refine Keeps.upd rfl ?_)
    | fail_if_no_progress (with_reducible refine Keeps.drop rfl ?_)
    | split
    | dsimp only

theorem reachGoal_keeps (g : Goal) {s x : State} (h : Keeps s x) : Keeps s (reachGoal g x) := by
  unfold reachGoal
  repeat' first
    | with_reducible exact h
    | with_reducible apply turnPass_keeps
    | with_reducible apply abortStands_keeps
    | with_reducible apply readStands_keeps
    | with_reducible apply scanFails_keeps
    | with_reducible apply scanStands_keeps
    | with_reducible apply openSplice_keeps
    | with_reducible apply procedureStopped_keeps
    | with_reducible apply forwardToLock_keeps
    | with_reducible apply popContext_keeps
    | with_reducible apply failureStands_keeps
    | with_reducible apply cleaningDone_keeps
    | with_reducible apply finishLoad_keeps
    | with_reducible apply beginUnload_keeps
    | with_reducible apply startTensionDown_keeps
    | with_reducible apply drain_keeps
    | with_reducible apply spliceEnds_keeps
    | with_reducible apply enterWaitData_keeps
    | with_reducible apply rampRead_keeps
    | with_reducible apply rampWrite_keeps
    | with_reducible apply toReady_keeps
    | with_reducible apply setTransport_keeps
    | with_reducible apply backhitchEvent_keeps
    | with_reducible apply completeWith_keeps
    | with_reducible apply complete_keeps
    | with_reducible apply Keeps.ite
    | fail_if_no_progress (with_reducible refine Keeps.upd rfl ?_)
    | fail_if_no_progress (with_reducible refine Keeps.drop rfl ?_)
    | split

theorem arrive_keeps {s x : State} (h : Keeps s x) : Keeps s (arrive x) := by
  unfold arrive
  repeat' first
    | with_reducible exact h
    | with_reducible apply noteTarget_keeps
    | with_reducible apply reachGoal_keeps
    | with_reducible apply settle_keeps
    | with_reducible apply beginLegs_keeps
    | with_reducible apply Keeps.ite
    | fail_if_no_progress (with_reducible refine Keeps.upd rfl ?_)
    | fail_if_no_progress (with_reducible refine Keeps.drop rfl ?_)
    | split
    | dsimp only

theorem execFrontPortWrite_keeps (m : Master) (addr : Nat) (data : List (Option Byte)) {s t : State} (e : execFrontPortWrite m addr data s = .next t) : Keeps s t := frontWrite_keeps e

theorem execFrontPortRead_keeps (m : Master) (addr : Nat) (len : Nat) {s t : State} (e : execFrontPortRead m addr len s = .next t) : Keeps s t := frontRead_keeps e

theorem execBindingWordWrite_keeps (m : Master) (addr : Nat) (data : List (Option Byte)) {s t : State} (e : execBindingWordWrite m addr data s = .next t) : Keeps s t := frontWrite_keeps e

theorem execStagingWrite_keeps (m : Master) (addr : Nat) (data : List (Option Byte)) {s t : State} (e : execStagingWrite m addr data s = .next t) : Keeps s t := frontWrite_keeps e

theorem execSequenceWordWrite_keeps (m : Master) (addr : Nat) (data : List (Option Byte)) {s t : State} (e : execSequenceWordWrite m addr data s = .next t) : Keeps s t := frontWrite_keeps e

theorem execConsumerWordWrite_keeps (m : Master) (addr : Nat) (data : List (Option Byte)) {s t : State} (e : execConsumerWordWrite m addr data s = .next t) : Keeps s t := frontWrite_keeps e

theorem execDeliveryTailRead_keeps (m : Master) (addr : Nat) (len : Nat) {s t : State} (e : execDeliveryTailRead m addr len s = .next t) : Keeps s t := frontRead_keeps e

theorem execHoldTimerExpiry_keeps {s t : State} (e : execHoldTimerExpiry s = .next t) : Keeps s t := by
  obtain rfl := Host.Outcome.next.inj e
  have h := Keeps.refl s
  repeat' first
    | with_reducible exact h
    | with_reducible apply holdExpiry_keeps

theorem endBinding_keeps (w : List Byte) {s x : State} (h : Keeps s x) : Keeps s (endBinding w x) := by
  unfold endBinding
  repeat' first
    | with_reducible exact h
    | with_reducible apply issueRead_keeps
    | with_reducible apply issueWrite_keeps
    | with_reducible apply Keeps.ite
    | fail_if_no_progress (with_reducible refine Keeps.upd rfl ?_)

theorem adoptLayout_keeps (l : Layout) {s x : State} (h : Keeps s x) : Keeps s (adoptLayout l x) := by
  unfold adoptLayout
  dsimp only
  apply issueWrite_keeps
  apply readHistory_keeps
  apply clearMarkers_keeps
  apply stopParity_keeps
  have hp := fun k₀ => (bandsLegal_iff x).mp (h.bands k₀)
  refine ⟨h.mem, h.pending, h.strap, fun k₀ => ?_, fun k₀ => ?_⟩
  · have := hp k₀
    rw [bandsLegal_iff]
    exact this
  · have := (lawful_iff x).mp (h.laws k₀)
    rw [lawful_iff]
    exact ⟨slotsLawful_fresh l.s, spansLawful_nil (Nat.zero_le _), this.2.2⟩

theorem execAnchorReadReturn_keeps {s t : State} (e : execAnchorReadReturn s = .next t) : Keeps s t := by
  obtain rfl := Host.Outcome.next.inj e
  have h := Keeps.refl s
  repeat' first
    | with_reducible exact h
    | with_reducible apply adoptLayout_keeps
    | with_reducible apply endBinding_keeps
    | with_reducible apply Keeps.ite
    | fail_if_no_progress (with_reducible refine Keeps.upd rfl ?_)
    | fail_if_no_progress (with_reducible refine Keeps.drop rfl ?_)
    | split

theorem advanceIntake_keeps {s x : State} (h : Keeps s x) : Keeps s (advanceIntake x) := by
  unfold advanceIntake
  repeat' first
    | with_reducible exact h
    | with_reducible apply Keeps.ite
    | fail_if_no_progress (with_reducible refine Keeps.upd rfl ?_)

theorem enterPending_keeps (j : JobId) (c : FwCmd) {s x : State} (h : Keeps s x) : Keeps s (enterPending j c x) := by
  unfold enterPending
  repeat' first
    | with_reducible exact h
    | with_reducible apply abortRead_keeps
    | with_reducible apply endMotion_keeps
    | with_reducible apply abortWaiting_keeps
    | with_reducible apply complete_keeps
    | with_reducible apply setJob_keeps
    | with_reducible apply Keeps.ite
    | fail_if_no_progress (with_reducible refine Keeps.upd rfl ?_)
    | fail_if_no_progress (with_reducible refine Keeps.drop rfl ?_)
    | split
    | dsimp only

theorem dispatchCommand_keeps (c : FwCmd) {s x : State} (h : Keeps s x) : Keeps s (dispatchCommand c x) := by
  unfold dispatchCommand
  repeat' first
    | with_reducible exact h
    | with_reducible apply enterPending_keeps
    | with_reducible apply advanceIntake_keeps
    | with_reducible apply readSlot_keeps
    | with_reducible apply setJob_keeps
    | with_reducible apply Keeps.ite
    | fail_if_no_progress (with_reducible refine Keeps.upd rfl ?_)
    | fail_if_no_progress (with_reducible refine Keeps.drop rfl ?_)
    | split
    | dsimp only

theorem unknownCode_keeps (bs : List Byte) {s x : State} (h : Keeps s x) : Keeps s (unknownCode bs x) := by
  unfold unknownCode
  repeat' first
    | with_reducible exact h
    | exact cqOpen_room (by assumption)
    | with_reducible apply advanceIntake_keeps
    | with_reducible apply noteStatus_keeps
    | with_reducible apply cqPush_keeps
    | with_reducible apply readSlot_keeps
    | fail_if_no_progress (with_reducible refine Keeps.upd rfl ?_)
    | split
    | dsimp only

theorem execSlotReadReturn_keeps {s t : State} (e : execSlotReadReturn s = .next t) : Keeps s t := by
  obtain rfl := Host.Outcome.next.inj e
  have h := Keeps.refl s
  repeat' first
    | with_reducible exact h
    | with_reducible apply unknownCode_keeps
    | with_reducible apply dispatchCommand_keeps
    | with_reducible apply settle_keeps
    | with_reducible apply sequenceBreak_keeps
    | with_reducible apply Keeps.ite
    | fail_if_no_progress (with_reducible refine Keeps.upd rfl ?_)
    | fail_if_no_progress (with_reducible refine Keeps.drop rfl ?_)
    | split

theorem execInternalQueueEntry_keeps {s t : State} (e : execInternalQueueEntry s = .next t) : Keeps s t := by
  obtain rfl := Host.Outcome.next.inj e
  have h := Keeps.refl s
  split
  · exact h
  · split
    · rename_i hr
      dsimp only
      repeat' first
        | with_reducible exact h
        | with_reducible exact hr
        | with_reducible apply cqPush_keeps
        | with_reducible apply endRunning_keeps
        | with_reducible apply readSlot_keeps
        | with_reducible apply Keeps.ite
        | fail_if_no_progress (with_reducible refine Keeps.upd rfl ?_)
        | split
        | assumption
    · exact h

theorem execRingRecordWrite_keeps {s t : State} (e : execRingRecordWrite s = .next t) : Keeps s t := by
  obtain rfl := Host.Outcome.next.inj e
  have h := Keeps.refl s
  split
  · rename_i hq
    split
    · apply issueWrite_keeps
      refine Keeps.law (x := s) rfl rfl (fun l => ?_) h
      rw [lawful_iff] at l ⊢
      rw [hq] at l
      exact ⟨l.1, l.2.1, Nat.le_trans (Nat.le_succ _) l.2.2.1, l.2.2.2⟩
    · exact h
  · exact h

theorem judgeRunning_keeps (c : FwCmd) {judge : FwOp → State → State} {s x : State} (h : Keeps s x)
    (hj : ∀ (o : FwOp) (t : State), Keeps s t → Keeps s (judge o t)) : Keeps s (judgeRunning c judge x) := by
  unfold judgeRunning
  repeat' first
    | with_reducible exact h
    | with_reducible apply settle_keeps
    | with_reducible apply hj
    | with_reducible apply startRunning_keeps
    | with_reducible apply setJob_keeps
    | with_reducible apply Keeps.ite
    | fail_if_no_progress (with_reducible refine Keeps.upd rfl ?_)

theorem enterOrJudge_keeps (j : JobId) (c : FwCmd) {judge : FwOp → State → State} {s x : State} (h : Keeps s x)
    (hj : ∀ (o : FwOp) (t : State), Keeps s t → Keeps s (judge o t)) : Keeps s (enterOrJudge j c judge x) := by
  have k := enterPending_keeps j c h
  unfold enterOrJudge
  dsimp only
  split
  · exact judgeRunning_keeps c k hj
  · exact settle_keeps k

theorem firmware_keeps {c : FwCmd} {judge : FwOp → State → State} {s t : State} (e : firmware c judge s = .next t)
    (hj : ∀ (o : FwOp) (t : State), Keeps s t → Keeps s (judge o t)) : Keeps s t := by
  obtain rfl := Host.Outcome.next.inj e
  have h := Keeps.refl s
  repeat' first
    | with_reducible exact h
    | (with_reducible refine judgeRunning_keeps _ ?_ hj)
    | (with_reducible refine enterOrJudge_keeps _ _ ?_ hj)
    | with_reducible apply Keeps.ite
    | split
    | dsimp only

theorem positionInput_keeps (n : Int) {s x : State} (h : Keeps s x) : Keeps s (positionInput n x) := by
  unfold positionInput
  repeat' first
    | with_reducible exact h
    | with_reducible apply Keeps.ite
    | fail_if_no_progress (with_reducible refine Keeps.upd rfl ?_)

theorem readSensors_keeps (sn : Sensors) {s x : State} (h : Keeps s x) : Keeps s (readSensors sn x) := by
  unfold readSensors
  repeat' first
    | with_reducible exact h
    | with_reducible apply Keeps.ite
    | fail_if_no_progress (with_reducible refine Keeps.upd rfl ?_)

theorem decideState_keeps (sn : Sensors) {s x : State} (h : Keeps s x) : Keeps s (decideState sn x) := by
  unfold decideState
  repeat' first
    | with_reducible exact h
    | with_reducible apply readSensors_keeps
    | with_reducible apply positionInput_keeps
    | with_reducible apply setTransport_keeps
    | with_reducible apply Keeps.ite
    | fail_if_no_progress (with_reducible refine Keeps.upd rfl ?_)

theorem execResetSettle_keeps (sn : Sensors) {s t : State} (e : execResetSettle sn s = .next t) : Keeps s t := by
  obtain rfl := Host.Outcome.next.inj e
  have h := Keeps.refl s
  repeat' first
    | with_reducible exact h
    | with_reducible apply decideState_keeps
    | with_reducible apply Keeps.ite
    | fail_if_no_progress (with_reducible refine Keeps.upd rfl ?_)

theorem startAutoLoad_keeps {s x : State} (h : Keeps s x) : Keeps s (startAutoLoad x) := by
  unfold startAutoLoad
  repeat' first
    | with_reducible exact h
    | with_reducible apply beginLoad_keeps
    | with_reducible apply Keeps.ite
    | fail_if_no_progress (with_reducible refine Keeps.upd rfl ?_)

theorem execSeatClose_keeps (tab : Tab) {s t : State} (e : execSeatClose tab s = .next t) : Keeps s t := by
  obtain rfl := Host.Outcome.next.inj e
  have h := Keeps.refl s
  repeat' first
    | with_reducible exact h
    | with_reducible apply startAutoLoad_keeps
    | with_reducible apply setTransport_keeps
    | with_reducible apply postNotice_keeps
    | with_reducible apply Keeps.ite
    | fail_if_no_progress (with_reducible refine Keeps.upd rfl ?_)

theorem execSeatOpen_keeps {s t : State} (e : execSeatOpen s = .next t) : Keeps s t := by
  obtain rfl := Host.Outcome.next.inj e
  have h := Keeps.refl s
  repeat' first
    | with_reducible exact h
    | with_reducible apply loadSeatLoss_keeps
    | with_reducible apply finishEject_keeps
    | with_reducible apply enterFaulted_keeps
    | with_reducible apply settle_keeps
    | with_reducible apply setTransport_keeps
    | with_reducible apply postNotice_keeps
    | with_reducible apply Keeps.ite
    | fail_if_no_progress (with_reducible refine Keeps.upd rfl ?_)
    | fail_if_no_progress (with_reducible refine Keeps.drop rfl ?_)
    | split

theorem lostTape_keeps {s x : State} (h : Keeps s x) : Keeps s (lostTape x) := by
  unfold lostTape
  repeat' first
    | with_reducible exact h
    | with_reducible apply zeroReels_keeps
    | with_reducible apply Keeps.ite
    | fail_if_no_progress (with_reducible refine Keeps.upd rfl ?_)

theorem execTapeInPathLoss_keeps {s t : State} (e : execTapeInPathLoss s = .next t) : Keeps s t := by
  obtain rfl := Host.Outcome.next.inj e
  have h := Keeps.refl s
  repeat' first
    | with_reducible exact h
    | with_reducible apply lostTape_keeps
    | with_reducible apply loadStepFails_keeps
    | with_reducible apply unloadFails_keeps
    | with_reducible apply enterFaulted_keeps
    | with_reducible apply zeroReels_keeps
    | with_reducible apply Keeps.ite
    | fail_if_no_progress (with_reducible refine Keeps.upd rfl ?_)
    | fail_if_no_progress (with_reducible refine Keeps.drop rfl ?_)
    | split

theorem execBrakeRelease_keeps {s t : State} (e : execBrakeRelease s = .next t) : Keeps s t := by
  obtain rfl := Host.Outcome.next.inj e
  have h := Keeps.refl s
  repeat' first
    | with_reducible exact h
    | with_reducible apply fillWindow_keeps
    | with_reducible apply Keeps.ite
    | fail_if_no_progress (with_reducible refine Keeps.upd rfl ?_)

theorem judgeLoad_keeps {s x : State} (h : Keeps s x) : Keeps s (judgeLoad x) := by
  unfold judgeLoad
  repeat' first
    | with_reducible exact h
    | with_reducible apply beginLoad_keeps
    | with_reducible apply refuse_keeps
    | with_reducible apply Keeps.ite
    | fail_if_no_progress (with_reducible refine Keeps.upd rfl ?_)
    | fail_if_no_progress (with_reducible refine Keeps.drop rfl ?_)
    | split

theorem execLoad_keeps (tag : Word) {s t : State} (e : execLoad tag s = .next t) : Keeps s t := by
  refine firmware_keeps e fun o t h => ?_
  first
    | exact judgeLoad_keeps h

theorem execAutomaticLoad_keeps {s t : State} (e : execAutomaticLoad s = .next t) : Keeps s t := by
  obtain rfl := Host.Outcome.next.inj e
  have h := Keeps.refl s
  repeat' first
    | with_reducible exact h
    | with_reducible apply startAutoLoad_keeps
    | with_reducible apply Keeps.ite
    | fail_if_no_progress (with_reducible refine Keeps.upd rfl ?_)

theorem execTagReadComplete_keeps (image : List Byte) {s t : State} (e : execTagReadComplete image s = .next t) : Keeps s t := by
  obtain rfl := Host.Outcome.next.inj e
  have h := Keeps.refl s
  repeat' first
    | with_reducible exact h
    | with_reducible apply tagReadEnds_keeps
    | with_reducible apply settle_keeps

theorem execTagReadLimit_keeps {s t : State} (e : execTagReadLimit s = .next t) : Keeps s t := by
  obtain rfl := Host.Outcome.next.inj e
  have h := Keeps.refl s
  repeat' first
    | with_reducible exact h
    | with_reducible apply tagReadEnds_keeps
    | with_reducible apply settle_keeps

theorem execHubEngaged_keeps {s t : State} (e : execHubEngaged s = .next t) : Keeps s t := by
  obtain rfl := Host.Outcome.next.inj e
  have h := Keeps.refl s
  repeat' first
    | with_reducible exact h
    | with_reducible apply startPinCapture_keeps
    | with_reducible apply Keeps.ite
    | fail_if_no_progress (with_reducible refine Keeps.upd rfl ?_)

theorem execPinCaptured_keeps {s t : State} (e : execPinCaptured s = .next t) : Keeps s t := by
  obtain rfl := Host.Outcome.next.inj e
  have h := Keeps.refl s
  repeat' first
    | with_reducible exact h
    | with_reducible apply startThreadPull_keeps
    | with_reducible apply stopArm_keeps
    | with_reducible apply Keeps.ite
    | fail_if_no_progress (with_reducible refine Keeps.upd rfl ?_)

theorem execArmMoveDone_keeps (code : Nat) (tape : Bool) {s t : State} (e : execArmMoveDone code tape s = .next t) : Keeps s t := by
  obtain rfl := Host.Outcome.next.inj e
  have h := Keeps.refl s
  repeat' first
    | with_reducible exact h
    | with_reducible apply loadStepFails_keeps
    | with_reducible apply startBackHub_keeps
    | with_reducible apply startPinCapture_keeps
    | with_reducible apply startPinRelease_keeps
    | with_reducible apply setStep_keeps
    | with_reducible apply stopArm_keeps
    | with_reducible apply Keeps.ite
    | fail_if_no_progress (with_reducible refine Keeps.upd rfl ?_)
    | fail_if_no_progress (with_reducible refine Keeps.drop rfl ?_)
    | split

theorem execLoadStepLimit_keeps {s t : State} (e : execLoadStepLimit s = .next t) : Keeps s t := by
  obtain rfl := Host.Outcome.next.inj e
  have h := Keeps.refl s
  repeat' first
    | with_reducible exact h
    | with_reducible apply loadStepFails_keeps
    | with_reducible apply startBackHub_keeps
    | with_reducible apply enterFaulted_keeps
    | with_reducible apply stopArm_keeps
    | with_reducible apply Keeps.ite
    | fail_if_no_progress (with_reducible refine Keeps.upd rfl ?_)
    | fail_if_no_progress (with_reducible refine Keeps.drop rfl ?_)
    | split

theorem execTensionSettled_keeps {s t : State} (e : execTensionSettled s = .next t) : Keeps s t := by
  obtain rfl := Host.Outcome.next.inj e
  have h := Keeps.refl s
  repeat' first
    | with_reducible exact h
    | with_reducible apply procedureReturns_keeps
    | with_reducible apply beginCleanRun_keeps
    | with_reducible apply setStep_keeps
    | with_reducible apply noteTarget_keeps
    | with_reducible apply Keeps.ite
    | fail_if_no_progress (with_reducible refine Keeps.upd rfl ?_)

theorem execOpenFlagWriteEnd_keeps (ok : Bool) {s t : State} (e : execOpenFlagWriteEnd ok s = .next t) : Keeps s t := by
  obtain rfl := Host.Outcome.next.inj e
  have h := Keeps.refl s
  repeat' first
    | with_reducible exact h
    | with_reducible apply postNotice_keeps
    | with_reducible apply Keeps.ite
    | fail_if_no_progress (with_reducible refine Keeps.upd rfl ?_)

theorem endReadForUnload_keeps {s x : State} (h : Keeps s x) : Keeps s (endReadForUnload x) := by
  unfold endReadForUnload
  repeat' first
    | with_reducible exact h
    | with_reducible apply spliceEnds_keeps
    | with_reducible apply abortRead_keeps
    | with_reducible apply Keeps.ite
    | fail_if_no_progress (with_reducible refine Keeps.upd rfl ?_)
    | fail_if_no_progress (with_reducible refine Keeps.drop rfl ?_)
    | split
    | dsimp only

theorem unloadFrom_keeps {s x : State} (h : Keeps s x) : Keeps s (unloadFrom x) := by
  unfold unloadFrom
  repeat' first
    | with_reducible exact h
    | with_reducible apply beginUnload_keeps
    | with_reducible apply endMotion_keeps
    | with_reducible apply wake_keeps
    | with_reducible apply Keeps.ite
    | fail_if_no_progress (with_reducible refine Keeps.upd rfl ?_)
    | fail_if_no_progress (with_reducible refine Keeps.drop rfl ?_)
    | split

theorem judgeUnload_keeps (force : Bool) {s x : State} (h : Keeps s x) : Keeps s (judgeUnload force x) := by
  unfold judgeUnload
  repeat' first
    | with_reducible exact h
    | with_reducible apply unloadFrom_keeps
    | with_reducible apply endReadForUnload_keeps
    | with_reducible apply startEject_keeps
    | with_reducible apply abortSession_keeps
    | with_reducible apply abortWaiting_keeps
    | with_reducible apply refuse_keeps
    | with_reducible apply Keeps.ite
    | fail_if_no_progress (with_reducible refine Keeps.upd rfl ?_)
    | fail_if_no_progress (with_reducible refine Keeps.drop rfl ?_)
    | split

theorem execUnload_keeps (tag : Word) (force : Bool) {s t : State} (e : execUnload tag force s = .next t) : Keeps s t := by
  refine firmware_keeps e fun o t h => ?_
  first
    | exact judgeUnload_keeps h
    | (cases o <;> dsimp only <;> first | exact h | (apply judgeUnload_keeps; exact h))

theorem execTensionDownDone_keeps {s t : State} (e : execTensionDownDone s = .next t) : Keeps s t := by
  obtain rfl := Host.Outcome.next.inj e
  have h := Keeps.refl s
  repeat' first
    | with_reducible exact h
    | with_reducible apply startBackArm_keeps
    | with_reducible apply startThreadReturn_keeps
    | with_reducible apply fillWindow_keeps
    | with_reducible apply Keeps.ite
    | fail_if_no_progress (with_reducible refine Keeps.upd rfl ?_)
    | fail_if_no_progress (with_reducible refine Keeps.drop rfl ?_)
    | split

theorem execPinReleased_keeps {s t : State} (e : execPinReleased s = .next t) : Keeps s t := by
  obtain rfl := Host.Outcome.next.inj e
  have h := Keeps.refl s
  repeat' first
    | with_reducible exact h
    | with_reducible apply startHubRelease_keeps
    | with_reducible apply Keeps.ite
    | fail_if_no_progress (with_reducible refine Keeps.upd rfl ?_)

theorem execHubReleased_keeps {s t : State} (e : execHubReleased s = .next t) : Keeps s t := by
  obtain rfl := Host.Outcome.next.inj e
  have h := Keeps.refl s
  repeat' first
    | with_reducible exact h
    | with_reducible apply afterBackHub_keeps
    | with_reducible apply startTagWrite_keeps
    | with_reducible apply Keeps.ite
    | fail_if_no_progress (with_reducible refine Keeps.upd rfl ?_)
    | fail_if_no_progress (with_reducible refine Keeps.drop rfl ?_)
    | split

theorem execUnloadStepLimit_keeps {s t : State} (e : execUnloadStepLimit s = .next t) : Keeps s t := by
  obtain rfl := Host.Outcome.next.inj e
  have h := Keeps.refl s
  repeat' first
    | with_reducible exact h
    | with_reducible apply unloadFails_keeps
    | with_reducible apply startEject_keeps
    | with_reducible apply enterFaulted_keeps
    | with_reducible apply stopArm_keeps
    | with_reducible apply postNotice_keeps
    | with_reducible apply Keeps.ite
    | fail_if_no_progress (with_reducible refine Keeps.upd rfl ?_)
    | fail_if_no_progress (with_reducible refine Keeps.drop rfl ?_)
    | split

theorem execTagWriteEnd_keeps (ok : Bool) {s t : State} (e : execTagWriteEnd ok s = .next t) : Keeps s t := by
  obtain rfl := Host.Outcome.next.inj e
  have h := Keeps.refl s
  repeat' first
    | with_reducible exact h
    | with_reducible apply startEject_keeps
    | with_reducible apply postNotice_keeps
    | with_reducible apply Keeps.ite

theorem markScan_keeps {s x : State} (h : Keeps s x) : Keeps s (markScan x) := by
  unfold markScan
  repeat' first
    | with_reducible exact h
    | with_reducible apply Keeps.ite
    | fail_if_no_progress (with_reducible refine Keeps.upd rfl ?_)
    | fail_if_no_progress (with_reducible refine Keeps.drop rfl ?_)
    | split

theorem execPeriodStart_keeps {s t : State} (e : execPeriodStart s = .next t) : Keeps s t := by
  obtain rfl := Host.Outcome.next.inj e
  have h := Keeps.refl s
  repeat' first
    | with_reducible exact h
    | with_reducible apply markScan_keeps
    | with_reducible apply Keeps.ite
    | fail_if_no_progress (with_reducible refine Keeps.upd rfl ?_)

theorem stageTake_keeps {s x : State} (h : Keeps s x) : Keeps s (stageTake x) := by
  unfold stageTake
  repeat' first
    | with_reducible exact h
    | with_reducible apply Keeps.ite
    | fail_if_no_progress (with_reducible refine Keeps.upd rfl ?_)

theorem stageSupply_keeps {s x : State} (h : Keeps s x) : Keeps s (stageSupply x) := by
  unfold stageSupply
  repeat' first
    | with_reducible exact h
    | with_reducible apply Keeps.ite
    | fail_if_no_progress (with_reducible refine Keeps.upd rfl ?_)

theorem loopStep_keeps (x_ : ScanSample) {s x : State} (h : Keeps s x) : Keeps s (loopStep x_ x) := by
  unfold loopStep
  repeat' first
    | with_reducible exact h
    | with_reducible apply stageSupply_keeps
    | with_reducible apply stageTake_keeps
    | with_reducible apply Keeps.ite
    | fail_if_no_progress (with_reducible refine Keeps.upd rfl ?_)

theorem tensionDownStep_keeps {s x : State} (h : Keeps s x) : Keeps s (tensionDownStep x) := by
  unfold tensionDownStep
  repeat' first
    | with_reducible exact h
    | with_reducible apply Keeps.ite
    | fail_if_no_progress (with_reducible refine Keeps.upd rfl ?_)

theorem countSettle_keeps (t : Nat) {s x : State} (h : Keeps s x) : Keeps s (countSettle t x) := by
  unfold countSettle
  repeat' first
    | with_reducible exact h
    | with_reducible apply settle_keeps
    | with_reducible apply Keeps.ite
    | fail_if_no_progress (with_reducible refine Keeps.upd rfl ?_)

theorem countHold_keeps {s x : State} (h : Keeps s x) : Keeps s (countHold x) := by
  unfold countHold
  repeat' first
    | with_reducible exact h
    | with_reducible apply Keeps.ite
    | fail_if_no_progress (with_reducible refine Keeps.upd rfl ?_)

theorem countExcursion_keeps (held : Bool) (t : Nat) {s x : State} (h : Keeps s x) : Keeps s (countExcursion held t x) := by
  unfold countExcursion
  repeat' first
    | with_reducible exact h
    | with_reducible apply Keeps.ite
    | fail_if_no_progress (with_reducible refine Keeps.upd rfl ?_)

theorem countStall_keeps {s x : State} (h : Keeps s x) : Keeps s (countStall x) := by
  unfold countStall
  repeat' first
    | with_reducible exact h
    | with_reducible apply Keeps.ite
    | fail_if_no_progress (with_reducible refine Keeps.upd rfl ?_)

theorem detect_keeps (held : Bool) (x_ : ScanSample) {s x : State} (h : Keeps s x) : Keeps s (detect held x_ x) := by
  unfold detect
  repeat' first
    | with_reducible exact h
    | with_reducible apply countStall_keeps
    | with_reducible apply countExcursion_keeps
    | with_reducible apply Keeps.ite
    | fail_if_no_progress (with_reducible refine Keeps.upd rfl ?_)

theorem carryCount_keeps (moved : Nat) {s x : State} (h : Keeps s x) : Keeps s (carryCount moved x) := by
  unfold carryCount
  repeat' first
    | with_reducible exact h
    | with_reducible apply Keeps.ite
    | fail_if_no_progress (with_reducible refine Keeps.upd rfl ?_)

theorem trackPosition_keeps (x_ : ScanSample) (moved : Nat) {s x : State} (h : Keeps s x) : Keeps s (trackPosition x_ moved x) := by
  unfold trackPosition
  repeat' first
    | with_reducible exact h
    | with_reducible apply carryCount_keeps
    | with_reducible apply Keeps.ite
    | fail_if_no_progress (with_reducible refine Keeps.upd rfl ?_)
    | fail_if_no_progress (with_reducible refine Keeps.drop rfl ?_)
    | split

theorem trackMovement_keeps (delta : Int) {s x : State} (h : Keeps s x) : Keeps s (trackMovement delta x) := by
  unfold trackMovement
  repeat' first
    | with_reducible exact h
    | with_reducible apply carryMovement_keeps
    | with_reducible apply putCart_keeps
    | with_reducible apply Keeps.ite
    | fail_if_no_progress (with_reducible refine Keeps.upd rfl ?_)

theorem stepSpeed_keeps {s x : State} (h : Keeps s x) : Keeps s (stepSpeed x) := by
  unfold stepSpeed
  repeat' first
    | with_reducible exact h
    | with_reducible apply checkStop_keeps
    | with_reducible apply Keeps.ite
    | fail_if_no_progress (with_reducible refine Keeps.upd rfl ?_)

theorem checkCleanRewind_keeps {s x : State} (h : Keeps s x) : Keeps s (checkCleanRewind x) := by
  unfold checkCleanRewind
  repeat' first
    | with_reducible exact h
    | with_reducible apply Keeps.ite
    | fail_if_no_progress (with_reducible refine Keeps.upd rfl ?_)
    | fail_if_no_progress (with_reducible refine Keeps.drop rfl ?_)
    | split

theorem earlyWarning_keeps {s x : State} (h : Keeps s x) : Keeps s (earlyWarning x) := by
  unfold earlyWarning
  repeat' first
    | with_reducible exact h
    | with_reducible apply postNotice_keeps
    | with_reducible apply Keeps.ite
    | fail_if_no_progress (with_reducible refine Keeps.upd rfl ?_)

theorem watchPosition_keeps {s x : State} (h : Keeps s x) : Keeps s (watchPosition x) := by
  unfold watchPosition
  repeat' first
    | with_reducible exact h
    | with_reducible apply consultBounds_keeps
    | with_reducible apply earlyWarning_keeps
    | with_reducible apply beginReadTurn_keeps
    | with_reducible apply raiseFault_keeps
    | with_reducible apply endOfStream_keeps
    | with_reducible apply Keeps.ite

theorem watchBot_keeps (x_ : ScanSample) {s x : State} (h : Keeps s x) : Keeps s (watchBot x_ x) := by
  unfold watchBot
  repeat' first
    | with_reducible exact h
    | with_reducible apply loadComplete_keeps
    | with_reducible apply settle_keeps
    | with_reducible apply Keeps.ite

theorem scanLoops_keeps (x_ : ScanSample) {s x : State} (h : Keeps s x) : Keeps s (scanLoops x_ x) := by
  unfold scanLoops
  repeat' first
    | with_reducible exact h
    | with_reducible apply checkCleanRewind_keeps
    | with_reducible apply stepSpeed_keeps
    | with_reducible apply detect_keeps
    | with_reducible apply countHold_keeps
    | with_reducible apply countSettle_keeps
    | with_reducible apply tensionDownStep_keeps
    | with_reducible apply loopStep_keeps
    | with_reducible apply holdIdle_keeps
    | with_reducible apply noteTarget_keeps
    | with_reducible apply Keeps.ite

theorem scanReads_keeps (x_ : ScanSample) {s x : State} (h : Keeps s x) : Keeps s (scanReads x_ x) := by
  unfold scanReads
  repeat' first
    | with_reducible exact h
    | with_reducible apply trackMovement_keeps
    | with_reducible apply trackPosition_keeps
    | with_reducible apply Keeps.ite
    | fail_if_no_progress (with_reducible refine Keeps.upd rfl ?_)

theorem takePosition_keeps (pass : Nat) (count : Nat) {s x : State} (h : Keeps s x) : Keeps s (takePosition pass count x) := by
  unfold takePosition
  repeat' first
    | with_reducible exact h
    | with_reducible apply Keeps.ite
    | fail_if_no_progress (with_reducible refine Keeps.upd rfl ?_)

theorem losePlace_keeps {s x : State} (h : Keeps s x) : Keeps s (losePlace x) := by
  unfold losePlace
  repeat' first
    | with_reducible exact h
    | with_reducible apply loseOperations_keeps
    | with_reducible apply endTransport_keeps
    | with_reducible apply settle_keeps
    | with_reducible apply setTransport_keeps
    | with_reducible apply Keeps.ite

theorem searchLocked_keeps {s x : State} (h : Keeps s x) : Keeps s (searchLocked x) := by
  unfold searchLocked
  repeat' first
    | with_reducible exact h
    | with_reducible apply startPlan_keeps

theorem watchSearch_keeps (x_ : ScanSample) {s x : State} (h : Keeps s x) : Keeps s (watchSearch x_ x) := by
  unfold watchSearch
  exact Keeps.ite (searchLocked_keeps (takePosition_keeps _ _ h)) h

theorem scanDone_keeps (x_ : ScanSample) {s x : State} (h : Keeps s x) : Keeps s (scanDone x_ x) := by
  unfold scanDone
  repeat' first
    | with_reducible exact h
    | with_reducible apply watchSearch_keeps
    | with_reducible apply scanReads_keeps
    | with_reducible apply scanLoops_keeps
    | with_reducible apply watchBot_keeps
    | with_reducible apply watchPosition_keeps
    | with_reducible apply passReached_keeps
    | with_reducible apply settle_keeps

theorem execScanComplete_keeps (x_ : ScanSample) {s t : State} (e : execScanComplete x_ s = .next t) : Keeps s t := by
  obtain rfl := Host.Outcome.next.inj e
  have h := Keeps.refl s
  repeat' first
    | with_reducible exact h
    | with_reducible apply scanDone_keeps
    | with_reducible apply Keeps.ite

theorem execReelDegrade_keeps (r : Reel) {s t : State} (e : execReelDegrade r s = .next t) : Keeps s t := by
  obtain rfl := Host.Outcome.next.inj e
  have h := Keeps.refl s
  repeat' first
    | with_reducible exact h
    | with_reducible apply stageSupply_keeps
    | with_reducible apply stageTake_keeps
    | with_reducible apply Keeps.ite
    | fail_if_no_progress (with_reducible refine Keeps.upd rfl ?_)
    | fail_if_no_progress (with_reducible refine Keeps.drop rfl ?_)
    | split

theorem execReelReturnNormal_keeps (r : Reel) {s t : State} (e : execReelReturnNormal r s = .next t) : Keeps s t := by
  obtain rfl := Host.Outcome.next.inj e
  have h := Keeps.refl s
  repeat' first
    | with_reducible exact h
    | with_reducible apply Keeps.ite
    | fail_if_no_progress (with_reducible refine Keeps.upd rfl ?_)
    | fail_if_no_progress (with_reducible refine Keeps.drop rfl ?_)
    | split

theorem execTensionExcursion_keeps {s t : State} (e : execTensionExcursion s = .next t) : Keeps s t := by
  obtain rfl := Host.Outcome.next.inj e
  have h := Keeps.refl s
  repeat' first
    | with_reducible exact h
    | with_reducible apply raiseFault_keeps
    | with_reducible apply settle_keeps
    | with_reducible apply Keeps.ite
    | fail_if_no_progress (with_reducible refine Keeps.upd rfl ?_)

theorem execReelStall_keeps {s t : State} (e : execReelStall s = .next t) : Keeps s t := by
  obtain rfl := Host.Outcome.next.inj e
  have h := Keeps.refl s
  repeat' first
    | with_reducible exact h
    | with_reducible apply raiseFault_keeps
    | with_reducible apply loadStepFails_keeps
    | with_reducible apply unloadFails_keeps
    | with_reducible apply settle_keeps
    | with_reducible apply Keeps.ite
    | fail_if_no_progress (with_reducible refine Keeps.upd rfl ?_)
    | fail_if_no_progress (with_reducible refine Keeps.drop rfl ?_)
    | split
    | dsimp only

theorem whenSettled_keeps (j : JobId) {begin_ : State → State} {s x : State} (k : ∀ t, Keeps s t → Keeps s (begin_ t)) (h : Keeps s x) :
    Keeps s (whenSettled j begin_ x) := by
  unfold whenSettled
  repeat' first
    | with_reducible exact h
    | exact k _ h
    | with_reducible apply wake_keeps
    | with_reducible apply Keeps.ite
    | fail_if_no_progress (with_reducible refine Keeps.upd rfl ?_)
    | split

theorem judgeLocate_keeps (target : Nat) (r : Nat) {s x : State} (h : Keeps s x) : Keeps s (judgeLocate target r x) := by
  unfold judgeLocate
  repeat' first
    | with_reducible exact h
    | with_reducible apply beginLocate_keeps
    | with_reducible apply refuse_keeps
    | with_reducible apply completeWith_keeps
    | refine whenSettled_keeps _ (fun t h => ?_) ?_
    | with_reducible apply Keeps.ite
    | fail_if_no_progress (with_reducible refine Keeps.upd rfl ?_)
    | fail_if_no_progress (with_reducible refine Keeps.drop rfl ?_)
    | split

theorem execLocate_keeps (tag : Word) (target : Nat) (r : Nat) {s t : State} (e : execLocate tag target r s = .next t) : Keeps s t := by
  refine firmware_keeps e fun o t h => ?_
  first
    | exact judgeLocate_keeps h
    | (cases o <;> dsimp only <;> first | exact h | (apply judgeLocate_keeps; exact h))

theorem judgeRecalibrate_keeps {s x : State} (h : Keeps s x) : Keeps s (judgeRecalibrate x) := by
  unfold judgeRecalibrate
  repeat' first
    | with_reducible exact h
    | with_reducible apply beginRecalibrate_keeps
    | with_reducible apply startAdopt_keeps
    | with_reducible apply refuse_keeps
    | with_reducible apply Keeps.ite
    | fail_if_no_progress (with_reducible refine Keeps.upd rfl ?_)
    | fail_if_no_progress (with_reducible refine Keeps.drop rfl ?_)
    | split

theorem execRecalibrate_keeps (tag : Word) {s t : State} (e : execRecalibrate tag s = .next t) : Keeps s t := by
  refine firmware_keeps e fun o t h => ?_
  first
    | exact judgeRecalibrate_keeps h

theorem recalibrateFails_keeps {s x : State} (h : Keeps s x) : Keeps s (recalibrateFails x) := by
  unfold recalibrateFails
  repeat' first
    | with_reducible exact h
    | with_reducible apply unloadFails_keeps
    | with_reducible apply enterFaulted_keeps
    | with_reducible apply Keeps.ite
    | fail_if_no_progress (with_reducible refine Keeps.upd rfl ?_)
    | fail_if_no_progress (with_reducible refine Keeps.drop rfl ?_)
    | split

theorem execRecalibrateLockTimeout_keeps {s t : State} (e : execRecalibrateLockTimeout s = .next t) : Keeps s t := by
  obtain rfl := Host.Outcome.next.inj e
  have h := Keeps.refl s
  repeat' first
    | with_reducible exact h
    | with_reducible apply recalibrateFails_keeps
    | with_reducible apply Keeps.ite

theorem execRecalibrateNoMovement_keeps {s t : State} (e : execRecalibrateNoMovement s = .next t) : Keeps s t := by
  obtain rfl := Host.Outcome.next.inj e
  have h := Keeps.refl s
  repeat' first
    | with_reducible exact h
    | with_reducible apply recalibrateFails_keeps
    | with_reducible apply Keeps.ite

theorem activeLock_keeps (pass : Nat) (count : Nat) {s x : State} (h : Keeps s x) : Keeps s (activeLock pass count x) := by
  unfold activeLock
  repeat' first
    | with_reducible exact h
    | with_reducible apply searchLocked_keeps
    | with_reducible apply takePosition_keeps
    | with_reducible apply watchPosition_keeps
    | with_reducible apply passReached_keeps
    | with_reducible apply procedureReturns_keeps
    | with_reducible apply settle_keeps
    | with_reducible apply Keeps.ite

theorem execServoLock_keeps (pass : Nat) (count : Nat) {s t : State} (e : execServoLock pass count s = .next t) : Keeps s t := by
  obtain rfl := Host.Outcome.next.inj e
  have h := Keeps.refl s
  repeat' first
    | with_reducible exact h
    | with_reducible apply activeLock_keeps
    | with_reducible apply searchLocked_keeps
    | with_reducible apply losePlace_keeps
    | with_reducible apply takePosition_keeps
    | with_reducible apply passReached_keeps
    | with_reducible apply loadComplete_keeps
    | with_reducible apply settle_keeps
    | with_reducible apply Keeps.ite
    | fail_if_no_progress (with_reducible refine Keeps.upd rfl ?_)
    | fail_if_no_progress (with_reducible refine Keeps.drop rfl ?_)
    | split

theorem execLossOfLock_keeps {s t : State} (e : execLossOfLock s = .next t) : Keeps s t := by
  obtain rfl := Host.Outcome.next.inj e
  have h := Keeps.refl s
  repeat' first
    | with_reducible exact h
    | with_reducible apply raiseFault_keeps
    | with_reducible apply settle_keeps
    | with_reducible apply Keeps.ite
    | fail_if_no_progress (with_reducible refine Keeps.upd rfl ?_)
    | fail_if_no_progress (with_reducible refine Keeps.drop rfl ?_)
    | split

theorem execReacquireTimeout_keeps {s t : State} (e : execReacquireTimeout s = .next t) : Keeps s t := by
  obtain rfl := Host.Outcome.next.inj e
  have h := Keeps.refl s
  repeat' first
    | with_reducible exact h
    | with_reducible apply losePlace_keeps
    | with_reducible apply Keeps.ite

theorem execMeter_keeps {s t : State} (e : execMeter s = .next t) : Keeps s t := by
  obtain rfl := Host.Outcome.next.inj e
  have h := Keeps.refl s
  repeat' first
    | with_reducible exact h
    | with_reducible apply meterEvent_keeps
    | with_reducible apply Keeps.ite
    | fail_if_no_progress (with_reducible refine Keeps.upd rfl ?_)

theorem execCleaningDistanceReached_keeps {s t : State} (e : execCleaningDistanceReached s = .next t) : Keeps s t := by
  obtain rfl := Host.Outcome.next.inj e
  have h := Keeps.refl s
  repeat' first
    | with_reducible exact h
    | with_reducible apply stopThen_keeps
    | with_reducible apply Keeps.ite
    | fail_if_no_progress (with_reducible refine Keeps.upd rfl ?_)
    | fail_if_no_progress (with_reducible refine Keeps.drop rfl ?_)
    | split

theorem execRetensionTimeout_keeps {s t : State} (e : execRetensionTimeout s = .next t) : Keeps s t := by
  obtain rfl := Host.Outcome.next.inj e
  have h := Keeps.refl s
  repeat' first
    | with_reducible exact h
    | with_reducible apply failRecovery_keeps
    | with_reducible apply settle_keeps
    | with_reducible apply Keeps.ite

theorem execRecoveryLockTimeout_keeps {s t : State} (e : execRecoveryLockTimeout s = .next t) : Keeps s t := by
  obtain rfl := Host.Outcome.next.inj e
  have h := Keeps.refl s
  repeat' first
    | with_reducible exact h
    | with_reducible apply failRecovery_keeps
    | with_reducible apply settle_keeps
    | with_reducible apply Keeps.ite

theorem execStopTimeout_keeps {s t : State} (e : execStopTimeout s = .next t) : Keeps s t := by
  obtain rfl := Host.Outcome.next.inj e
  have h := Keeps.refl s
  repeat' first
    | with_reducible exact h
    | with_reducible apply failureStands_keeps
    | with_reducible apply Keeps.ite

theorem execRampComplete_keeps {s t : State} (e : execRampComplete s = .next t) : Keeps s t := by
  obtain rfl := Host.Outcome.next.inj e
  have h := Keeps.refl s
  repeat' first
    | with_reducible exact h
    | with_reducible apply noteTarget_keeps
    | with_reducible apply noteActivity_keeps
    | with_reducible apply Keeps.ite
    | fail_if_no_progress (with_reducible refine Keeps.upd rfl ?_)
    | fail_if_no_progress (with_reducible refine Keeps.drop rfl ?_)
    | split

theorem execMoveArrived_keeps {s t : State} (e : execMoveArrived s = .next t) : Keeps s t := by
  obtain rfl := Host.Outcome.next.inj e
  have h := Keeps.refl s
  repeat' first
    | with_reducible exact h
    | with_reducible apply arrive_keeps

theorem execFrameSlot_keeps {s t : State} (e : execFrameSlot s = .next t) : Keeps s t := by
  obtain rfl := Host.Outcome.next.inj e
  have h := Keeps.refl s
  repeat' first
    | with_reducible exact h
    | with_reducible apply raiseFault_keeps
    | with_reducible apply frameSlot_keeps
    | with_reducible apply settle_keeps
    | with_reducible apply Keeps.ite

theorem execFrameTransmissionComplete_keeps {s t : State} (e : execFrameTransmissionComplete s = .next t) : Keeps s t := by
  obtain rfl := Host.Outcome.next.inj e
  have h := Keeps.refl s
  repeat' first
    | with_reducible exact h
    | with_reducible apply transmissionComplete_keeps
    | with_reducible apply settle_keeps

theorem execVerifyResult_keeps (id : FrameId) (st : FrameStatus) {s t : State} (e : execVerifyResult id st s = .next t) : Keeps s t := by
  obtain rfl := Host.Outcome.next.inj e
  have h := Keeps.refl s
  repeat' first
    | with_reducible exact h
    | with_reducible apply verifyResult_keeps
    | with_reducible apply settle_keeps
    | with_reducible apply Keeps.ite

theorem readBlankEod_keeps {s x : State} (h : Keeps s x) : Keeps s (readBlankEod x) := by
  unfold readBlankEod
  repeat' first
    | with_reducible exact h
    | with_reducible apply consultLast_keeps
    | with_reducible apply putCart_keeps
    | with_reducible apply usedFree_keeps
    | with_reducible apply Keeps.ite
    | fail_if_no_progress (with_reducible refine Keeps.upd rfl ?_)
    | fail_if_no_progress (with_reducible refine Keeps.drop rfl ?_)
    | split

theorem execBlankDetection_keeps {s t : State} (e : execBlankDetection s = .next t) : Keeps s t := by
  obtain rfl := Host.Outcome.next.inj e
  have h := Keeps.refl s
  repeat' first
    | with_reducible exact h
    | with_reducible apply consultHead_keeps
    | with_reducible apply readBlankEod_keeps
    | with_reducible apply endOfStream_keeps
    | with_reducible apply settle_keeps
    | with_reducible apply Keeps.ite

theorem afterOpen_keeps {s x : State} (h : Keeps s x) : Keeps s (afterOpen x) := by
  unfold afterOpen
  repeat' first
    | with_reducible exact h
    | with_reducible apply enterWaitData_keeps
    | with_reducible apply Keeps.ite

theorem emptyDirectory_keeps {s x : State} (h : Keeps s x) : Keeps s (emptyDirectory x) := by
  unfold emptyDirectory
  repeat' first
    | with_reducible exact h
    | with_reducible apply putCart_keeps
    | with_reducible apply Keeps.ite

theorem beginSplice_keeps (p : Nat) {s x : State} (h : Keeps s x) : Keeps s (beginSplice p x) := by
  unfold beginSplice
  repeat' first
    | with_reducible exact h
    | with_reducible apply beginSpliceRead_keeps
    | with_reducible apply beginScan_keeps
    | with_reducible apply Keeps.ite
    | fail_if_no_progress (with_reducible refine Keeps.upd rfl ?_)
    | fail_if_no_progress (with_reducible refine Keeps.drop rfl ?_)
    | split
    | dsimp only

theorem beginWriteOpen_keeps (offset : Nat) (compress : Bool) (p : Nat) {s x : State} (h : Keeps s x) : Keeps s (beginWriteOpen offset compress p x) := by
  unfold beginWriteOpen
  repeat' first
    | with_reducible exact h
    | with_reducible apply beginSplice_keeps
    | with_reducible apply emptyDirectory_keeps
    | with_reducible apply afterOpen_keeps
    | with_reducible apply openSession_keeps
    | with_reducible apply consultCart_keeps
    | with_reducible apply Keeps.ite
    | fail_if_no_progress (with_reducible refine Keeps.upd rfl ?_)
    | fail_if_no_progress (with_reducible refine Keeps.drop rfl ?_)
    | split
    | dsimp only

theorem judgeWritable_keeps (offset : Nat) (compress : Bool) {s x : State} (h : Keeps s x) : Keeps s (judgeWritable offset compress x) := by
  unfold judgeWritable
  repeat' first
    | with_reducible exact h
    | with_reducible apply beginWriteOpen_keeps
    | with_reducible apply whenSettled_keeps
    | with_reducible apply refuse_keeps
    | with_reducible apply Keeps.ite
    | fail_if_no_progress (with_reducible refine Keeps.upd rfl ?_)
    | fail_if_no_progress (with_reducible refine Keeps.drop rfl ?_)
    | split

theorem judgeWriteOpen_keeps (offset : Nat) (compress : Bool) {s x : State} (h : Keeps s x) : Keeps s (judgeWriteOpen offset compress x) := by
  unfold judgeWriteOpen
  repeat' first
    | with_reducible exact h
    | with_reducible apply judgeWritable_keeps
    | with_reducible apply consultHead_keeps
    | with_reducible apply beginWriteOpen_keeps
    | with_reducible apply refuse_keeps
    | with_reducible apply completeWith_keeps
    | refine whenSettled_keeps _ (fun t h => ?_) ?_
    | with_reducible apply Keeps.ite

theorem execWriteOpen_keeps (tag : Word) (offset : Nat) (compress : Bool) {s t : State} (e : execWriteOpen tag offset compress s = .next t) : Keeps s t := by
  refine firmware_keeps e fun o t h => ?_
  first
    | exact judgeWriteOpen_keeps h
    | (cases o <;> dsimp only <;> first | exact h | (apply judgeWriteOpen_keeps; exact h))

theorem execSessionCountWriteEnd_keeps (ok : Bool) {s t : State} (e : execSessionCountWriteEnd ok s = .next t) : Keeps s t := by
  obtain rfl := Host.Outcome.next.inj e
  have h := Keeps.refl s
  repeat' first
    | with_reducible exact h
    | with_reducible apply postNotice_keeps
    | with_reducible apply Keeps.ite
    | fail_if_no_progress (with_reducible refine Keeps.upd rfl ?_)

theorem execStagingFetchReturn_keeps {s t : State} (e : execStagingFetchReturn s = .next t) : Keeps s t := by
  obtain rfl := Host.Outcome.next.inj e
  have h := Keeps.refl s
  repeat' first
    | with_reducible exact h
    | with_reducible apply settle_keeps
    | with_reducible apply consume_keeps
    | with_reducible apply Keeps.ite
    | fail_if_no_progress (with_reducible refine Keeps.upd rfl ?_)
    | fail_if_no_progress (with_reducible refine Keeps.drop rfl ?_)
    | split

theorem answerSeal_keeps {s x : State} (h : Keeps s x) : Keeps s (answerSeal x) := by
  unfold answerSeal
  repeat' first
    | with_reducible exact h
    | with_reducible apply sealSlot_keeps
    | with_reducible apply Keeps.ite
    | fail_if_no_progress (with_reducible refine Keeps.upd rfl ?_)

theorem execChunkPlaced_keeps {s t : State} (e : execChunkPlaced s = .next t) : Keeps s t := by
  obtain rfl := Host.Outcome.next.inj e
  have h := Keeps.refl s
  repeat' first
    | with_reducible exact h
    | with_reducible apply answerSeal_keeps
    | with_reducible apply settle_keeps
    | with_reducible apply sealWhenIdle_keeps
    | with_reducible apply placeChunk_keeps
    | with_reducible apply Keeps.ite
    | fail_if_no_progress (with_reducible refine Keeps.upd rfl ?_)
    | fail_if_no_progress (with_reducible refine Keeps.drop rfl ?_)
    | split

theorem recompressed_keeps (got : List Byte) {s x : State} (h : Keeps s x) : Keeps s (recompressed got x) := by
  unfold recompressed
  repeat' first
    | with_reducible exact h
    | with_reducible apply tryPlace_keeps
    | with_reducible apply Keeps.ite
    | fail_if_no_progress (with_reducible refine Keeps.upd rfl ?_)

theorem execRecompressDone_keeps {s t : State} (e : execRecompressDone s = .next t) : Keeps s t := by
  obtain rfl := Host.Outcome.next.inj e
  have h := Keeps.refl s
  repeat' first
    | with_reducible exact h
    | with_reducible apply recompressed_keeps
    | with_reducible apply settle_keeps
    | with_reducible apply Keeps.ite
    | fail_if_no_progress (with_reducible refine Keeps.upd rfl ?_)
    | fail_if_no_progress (with_reducible refine Keeps.drop rfl ?_)
    | split

theorem execSlotExhaustionEnd_keeps {s t : State} (e : execSlotExhaustionEnd s = .next t) : Keeps s t := by
  obtain rfl := Host.Outcome.next.inj e
  have h := Keeps.refl s
  repeat' first
    | with_reducible exact h
    | with_reducible apply settle_keeps
    | with_reducible apply sealWhenIdle_keeps
    | with_reducible apply tryPlace_keeps
    | with_reducible apply finishStop_keeps
    | with_reducible apply placeMarker_keeps
    | with_reducible refine takeSlot_keeps ?_ (by assumption)
    | with_reducible apply Keeps.ite
    | fail_if_no_progress (with_reducible refine Keeps.upd rfl ?_)
    | fail_if_no_progress (with_reducible refine Keeps.drop rfl ?_)
    | split

theorem parityEnds_keeps (k : Nat) {s x : State} (h : Keeps s x) : Keeps s (parityEnds k x) := by
  unfold parityEnds
  repeat' first
    | with_reducible exact h
    | with_reducible apply freeSlot_keeps
    | with_reducible apply setSlot_keeps
    | with_reducible apply Keeps.ite
    | fail_if_no_progress (with_reducible refine Keeps.upd rfl ?_)
    | exact .inl ⟨rfl, rfl⟩

theorem execParityDone_keeps {s t : State} (e : execParityDone s = .next t) : Keeps s t := by
  obtain rfl := Host.Outcome.next.inj e
  have h := Keeps.refl s
  repeat' first
    | with_reducible exact h
    | with_reducible apply parityEnds_keeps
    | with_reducible apply settle_keeps
    | with_reducible apply serveParity_keeps
    | with_reducible apply issueWrite_keeps
    | with_reducible apply Keeps.ite
    | fail_if_no_progress (with_reducible refine Keeps.upd rfl ?_)
    | fail_if_no_progress (with_reducible refine Keeps.drop rfl ?_)
    | split

theorem execFlush_keeps (tag : Word) {s t : State} (e : execFlush tag s = .next t) : Keeps s t := by
  refine firmware_keeps e fun o t h => ?_
  first
    | exact judgeFlush_keeps h

theorem execWriteClose_keeps (tag : Word) {s t : State} (e : execWriteClose tag s = .next t) : Keeps s t := by
  refine firmware_keeps e fun o t h => ?_
  first
    | exact judgeWriteClose_keeps h

theorem judgeWriteAbort_keeps {s x : State} (h : Keeps s x) : Keeps s (judgeWriteAbort x) := by
  unfold judgeWriteAbort
  repeat' first
    | with_reducible exact h
    | with_reducible apply endMotion_keeps
    | with_reducible apply abortSession_keeps
    | with_reducible apply refuse_keeps
    | with_reducible apply completeWith_keeps
    | with_reducible apply Keeps.ite

theorem execWriteAbort_keeps (tag : Word) {s t : State} (e : execWriteAbort tag s = .next t) : Keeps s t := by
  refine firmware_keeps e fun o t h => ?_
  first
    | exact judgeWriteAbort_keeps h

theorem execSetStreamPolicy_keeps (tag : Word) (p : StreamOperands) {s t : State} (e : execSetStreamPolicy tag p s = .next t) : Keeps s t := by
  refine firmware_keeps e fun o t h => ?_
  first
    | exact judgeSetStreamPolicy_keeps h
    | (cases o <;> dsimp only <;> first | exact h | (apply judgeSetStreamPolicy_keeps; exact h))

theorem beginReadRecords_keeps {s x : State} (h : Keeps s x) : Keeps s (beginReadRecords x) := by
  unfold beginReadRecords
  repeat' first
    | with_reducible exact h
    | with_reducible apply beginRead_keeps
    | with_reducible apply beginScan_keeps
    | with_reducible apply consultCart_keeps
    | with_reducible apply Keeps.ite
    | fail_if_no_progress (with_reducible refine Keeps.upd rfl ?_)
    | fail_if_no_progress (with_reducible refine Keeps.drop rfl ?_)
    | split
    | dsimp only

theorem judgeReadRecords_keeps (n : Nat) {s x : State} (h : Keeps s x) : Keeps s (judgeReadRecords n x) := by
  unfold judgeReadRecords
  repeat' first
    | with_reducible exact h
    | with_reducible apply consultHead_keeps
    | with_reducible apply beginReadRecords_keeps
    | with_reducible apply refuse_keeps
    | with_reducible apply completeWith_keeps
    | with_reducible apply complete_keeps
    | refine whenSettled_keeps _ (fun t h => ?_) ?_
    | with_reducible apply Keeps.ite
    | fail_if_no_progress (with_reducible refine Keeps.upd rfl ?_)
    | fail_if_no_progress (with_reducible refine Keeps.drop rfl ?_)
    | split

theorem execReadRecords_keeps (tag : Word) (n : Nat) {s t : State} (e : execReadRecords tag n s = .next t) : Keeps s t := by
  refine firmware_keeps e fun o t h => ?_
  first
    | exact judgeReadRecords_keeps h
    | (cases o <;> dsimp only <;> first | exact h | (apply judgeReadRecords_keeps; exact h))

theorem judgeReadAbort_keeps {s x : State} (h : Keeps s x) : Keeps s (judgeReadAbort x) := by
  unfold judgeReadAbort
  repeat' first
    | with_reducible exact h
    | with_reducible apply refuse_keeps
    | with_reducible apply completeWith_keeps
    | with_reducible apply Keeps.ite
    | fail_if_no_progress (with_reducible refine Keeps.upd rfl ?_)
    | fail_if_no_progress (with_reducible refine Keeps.drop rfl ?_)
    | split
    | dsimp only

theorem execReadAbort_keeps (tag : Word) {s t : State} (e : execReadAbort tag s = .next t) : Keeps s t := by
  refine firmware_keeps e fun o t h => ?_
  first
    | exact judgeReadAbort_keeps h

theorem execFrameReceived_keeps (id : FrameId) (st : FrameStatus) (start : Nat) (data : List Byte) {s t : State} (e : execFrameReceived id st start data s = .next t) : Keeps s t := by
  obtain rfl := Host.Outcome.next.inj e
  have h := Keeps.refl s
  repeat' first
    | with_reducible exact h
    | with_reducible apply beginReadTurn_keeps
    | with_reducible apply drain_keeps
    | with_reducible apply takeFrame_keeps
    | with_reducible apply settle_keeps
    | with_reducible apply Keeps.ite

theorem execReadResume_keeps {s t : State} (e : execReadResume s = .next t) : Keeps s t := by
  obtain rfl := Host.Outcome.next.inj e
  have h := Keeps.refl s
  repeat' first
    | with_reducible exact h
    | with_reducible apply rampRead_keeps
    | with_reducible apply Keeps.ite
    | fail_if_no_progress (with_reducible refine Keeps.upd rfl ?_)

theorem rebuildFrames_keeps (k : Nat) (bs : List Byte) {s x : State} (h : Keeps s x) : Keeps s (rebuildFrames k bs x) :=
  foldl_keeps _ _ (fun _ _ h => issueWrite_keeps _ _ _ _ h) h

theorem afterRebuild_keeps {s x : State} (h : Keeps s x) : Keeps s (afterRebuild x) := by
  unfold afterRebuild
  repeat' first
    | with_reducible exact h
    | with_reducible apply restIfDone_keeps
    | with_reducible apply drain_keeps
    | with_reducible apply dataEnded_keeps
    | with_reducible apply Keeps.ite

theorem execRebuildDone_keeps {s t : State} (e : execRebuildDone s = .next t) : Keeps s t := by
  obtain rfl := Host.Outcome.next.inj e
  have h := Keeps.refl s
  repeat' first
    | with_reducible exact h
    | with_reducible apply afterRebuild_keeps
    | with_reducible apply rebuildFrames_keeps
    | with_reducible apply slotDecoded_keeps
    | with_reducible apply serveRebuild_keeps
    | with_reducible apply settle_keeps
    | with_reducible apply Keeps.ite
    | fail_if_no_progress (with_reducible refine Keeps.upd rfl ?_)
    | fail_if_no_progress (with_reducible refine Keeps.drop rfl ?_)
    | split

theorem execDeliveryRoomGranted_keeps {s t : State} (e : execDeliveryRoomGranted s = .next t) : Keeps s t := by
  obtain rfl := Host.Outcome.next.inj e
  have h := Keeps.refl s
  repeat' first
    | with_reducible exact h
    | with_reducible apply grantRoom_keeps
    | with_reducible apply settle_keeps

theorem execSlotDrained_keeps {s t : State} (e : execSlotDrained s = .next t) : Keeps s t := by
  obtain rfl := Host.Outcome.next.inj e
  have h := Keeps.refl s
  repeat' first
    | with_reducible exact h
    | with_reducible apply slotDrained_keeps
    | with_reducible apply settle_keeps

theorem execSetPowerPolicy_keeps (tag : Word) (enables : Nat) (dwell : Nat) {s t : State} (e : execSetPowerPolicy tag enables dwell s = .next t) : Keeps s t := by
  refine firmware_keeps e fun o t h => ?_
  first
    | exact judgeSetPowerPolicy_keeps h
    | (cases o <;> dsimp only <;> first | exact h | (apply judgeSetPowerPolicy_keeps; exact h))

theorem judgePark_keeps {s x : State} (h : Keeps s x) : Keeps s (judgePark x) := by
  unfold judgePark
  repeat' first
    | with_reducible exact h
    | with_reducible apply park_keeps
    | with_reducible apply refuse_keeps
    | with_reducible apply completeWith_keeps
    | with_reducible apply Keeps.ite
    | fail_if_no_progress (with_reducible refine Keeps.upd rfl ?_)
    | fail_if_no_progress (with_reducible refine Keeps.drop rfl ?_)
    | split

theorem execPark_keeps (tag : Word) {s t : State} (e : execPark tag s = .next t) : Keeps s t := by
  refine firmware_keeps e fun o t h => ?_
  first
    | exact judgePark_keeps h

theorem execParkDwellExpiry_keeps {s t : State} (e : execParkDwellExpiry s = .next t) : Keeps s t := by
  obtain rfl := Host.Outcome.next.inj e
  have h := Keeps.refl s
  repeat' first
    | with_reducible exact h
    | with_reducible apply settle_keeps
    | with_reducible apply park_keeps
    | with_reducible apply Keeps.ite

theorem beginWaiter_keeps (j : JobId) {s x : State} (h : Keeps s x) : Keeps s (beginWaiter j x) := by
  unfold beginWaiter
  repeat' first
    | with_reducible exact h
    | with_reducible apply beginReadRecords_keeps
    | with_reducible apply beginWriteOpen_keeps
    | with_reducible apply beginUnload_keeps
    | with_reducible apply beginLocate_keeps
    | with_reducible apply Keeps.ite
    | fail_if_no_progress (with_reducible refine Keeps.upd rfl ?_)
    | fail_if_no_progress (with_reducible refine Keeps.drop rfl ?_)
    | split

theorem judgeAgain_keeps (j : JobId) {s x : State} (h : Keeps s x) : Keeps s (judgeAgain j x) := by
  unfold judgeAgain
  repeat' first
    | with_reducible exact h
    | with_reducible apply judgeReadRecords_keeps
    | with_reducible apply judgeWriteOpen_keeps
    | with_reducible apply judgeLocate_keeps
    | with_reducible apply judgeUnload_keeps
    | with_reducible apply unloadFrom_keeps
    | with_reducible apply endReadForUnload_keeps
    | with_reducible apply Keeps.ite
    | fail_if_no_progress (with_reducible refine Keeps.upd rfl ?_)
    | fail_if_no_progress (with_reducible refine Keeps.drop rfl ?_)
    | split

theorem judgeAllAgain_keeps (js : List JobId) {s x : State} (h : Keeps s x) : Keeps s (judgeAllAgain js x) := by
  induction js generalizing x with
  | nil => exact h
  | cons j js ih => exact ih (judgeAgain_keeps j h)

theorem settlingEnds_keeps {s x : State} (h : Keeps s x) : Keeps s (settlingEnds x) := by
  unfold settlingEnds
  repeat' first
    | with_reducible exact h
    | with_reducible apply judgeAllAgain_keeps
    | with_reducible apply beginWaiter_keeps
    | with_reducible apply enterWaitData_keeps
    | with_reducible apply Keeps.ite
    | fail_if_no_progress (with_reducible refine Keeps.upd rfl ?_)
    | fail_if_no_progress (with_reducible refine Keeps.drop rfl ?_)
    | split
    | dsimp only

theorem execUnparkSettled_keeps {s t : State} (e : execUnparkSettled s = .next t) : Keeps s t := by
  obtain rfl := Host.Outcome.next.inj e
  have h := Keeps.refl s
  repeat' first
    | with_reducible exact h
    | with_reducible apply settlingEnds_keeps
    | with_reducible apply settle_keeps
    | with_reducible apply Keeps.ite

theorem execUnparkTensionTimeout_keeps {s t : State} (e : execUnparkTensionTimeout s = .next t) : Keeps s t := by
  obtain rfl := Host.Outcome.next.inj e
  have h := Keeps.refl s
  repeat' first
    | with_reducible exact h
    | with_reducible apply enterFaulted_keeps
    | with_reducible apply Keeps.ite
    | fail_if_no_progress (with_reducible refine Keeps.upd rfl ?_)

theorem execUnparkServoTimeout_keeps {s t : State} (e : execUnparkServoTimeout s = .next t) : Keeps s t := by
  obtain rfl := Host.Outcome.next.inj e
  have h := Keeps.refl s
  repeat' first
    | with_reducible exact h
    | with_reducible apply losePlace_keeps
    | with_reducible apply Keeps.ite

theorem execSetMonitor_keeps (tag : Word) (m : MonitorOperands) {s t : State} (e : execSetMonitor tag m s = .next t) : Keeps s t := by
  refine firmware_keeps e fun o t h => ?_
  first
    | exact judgeSetMonitor_keeps h
    | (cases o <;> dsimp only <;> first | exact h | (apply judgeSetMonitor_keeps; exact h))

theorem execHealthSnapshot_keeps (tag : Word) {s t : State} (e : execHealthSnapshot tag s = .next t) : Keeps s t := by
  refine firmware_keeps e fun o t h => ?_
  first
    | exact judgeHealthSnapshot_keeps h

theorem execSetCleanLimits_keeps (tag : Word) (l : CleanOperands) {s t : State} (e : execSetCleanLimits tag l s = .next t) : Keeps s t := by
  refine firmware_keeps e fun o t h => ?_
  first
    | exact judgeSetCleanLimits_keeps h
    | (cases o <;> dsimp only <;> first | exact h | (apply judgeSetCleanLimits_keeps; exact h))

theorem lineMoves_keeps {s x : State} (h : Keeps s x) : Keeps s (lineMoves x) := by
  unfold lineMoves
  repeat' first
    | with_reducible exact h
    | with_reducible apply Keeps.ite
    | fail_if_no_progress (with_reducible refine Keeps.upd rfl ?_)

theorem setLine_keeps (active : Bool) {s x : State} (h : Keeps s x) : Keeps s (setLine active x) := by
  unfold setLine
  repeat' first
    | with_reducible exact h
    | with_reducible apply lineMoves_keeps
    | with_reducible apply Keeps.ite
    | fail_if_no_progress (with_reducible refine Keeps.upd rfl ?_)

theorem execLineLevelChange_keeps (active : Bool) {s t : State} (e : execLineLevelChange active s = .next t) : Keeps s t := by
  obtain rfl := Host.Outcome.next.inj e
  have h := Keeps.refl s
  repeat' first
    | with_reducible exact h
    | with_reducible apply setLine_keeps

theorem execLinkIdleExpiry_keeps {s t : State} (e : execLinkIdleExpiry s = .next t) : Keeps s t := by
  obtain rfl := Host.Outcome.next.inj e
  have h := Keeps.refl s
  repeat' first
    | with_reducible exact h
    | with_reducible apply Keeps.ite
    | fail_if_no_progress (with_reducible refine Keeps.upd rfl ?_)

theorem endTransaction_keeps {s x : State} (h : Keeps s x) : Keeps s (endTransaction x) := by
  unfold endTransaction
  repeat' first
    | with_reducible exact h
    | with_reducible apply Keeps.ite
    | fail_if_no_progress (with_reducible refine Keeps.upd rfl ?_)

theorem execLibraryAttention_keeps (micros : Nat) {s t : State} (e : execLibraryAttention micros s = .next t) : Keeps s t := by
  obtain rfl := Host.Outcome.next.inj e
  have h := Keeps.refl s
  repeat' first
    | with_reducible exact h
    | with_reducible apply lineMoves_keeps
    | with_reducible apply offerLinkWake_keeps
    | with_reducible apply Keeps.ite
    | fail_if_no_progress (with_reducible refine Keeps.upd rfl ?_)

theorem execLinkByteTimeout_keeps {s t : State} (e : execLinkByteTimeout s = .next t) : Keeps s t := by
  obtain rfl := Host.Outcome.next.inj e
  have h := Keeps.refl s
  repeat' first
    | with_reducible exact h
    | with_reducible apply endTransaction_keeps
    | with_reducible apply Keeps.ite

theorem satisfyAttention_keeps {s x : State} (h : Keeps s x) : Keeps s (satisfyAttention x) := by
  unfold satisfyAttention
  repeat' first
    | with_reducible exact h
    | with_reducible apply Keeps.ite
    | fail_if_no_progress (with_reducible refine Keeps.upd rfl ?_)

theorem answer_keeps (h_ : LinkHeader) (bs : List Byte) {s x : State} (h : Keeps s x) : Keeps s (answer h_ bs x) := by
  unfold answer
  repeat' first
    | with_reducible exact h
    | with_reducible apply lineMoves_keeps
    | with_reducible apply Keeps.ite
    | fail_if_no_progress (with_reducible refine Keeps.upd rfl ?_)

theorem passOutAnswer_keeps (h_ : LinkHeader) {s x : State} (h : Keeps s x) : Keeps s (passOutAnswer h_ x) := by
  unfold passOutAnswer
  repeat' first
    | with_reducible exact h
    | with_reducible apply answer_keeps
    | with_reducible apply endTransaction_keeps
    | with_reducible apply postNotice_keeps
    | with_reducible apply Keeps.ite
    | fail_if_no_progress (with_reducible refine Keeps.upd rfl ?_)
    | fail_if_no_progress (with_reducible refine Keeps.drop rfl ?_)
    | split

theorem linkRequest_keeps (q : Nat) (content : List Byte) {s x : State} (h : Keeps s x) : Keeps s (linkRequest q content x) := by
  unfold linkRequest
  repeat' first
    | with_reducible exact h
    | with_reducible apply postNotice_keeps

theorem unloadRequest_keeps (bs : List Byte) {s x : State} (h : Keeps s x) : Keeps s (unloadRequest bs x) := by
  unfold unloadRequest
  repeat' first
    | with_reducible exact h
    | with_reducible apply linkRequest_keeps
    | with_reducible apply unloadFrom_keeps
    | with_reducible apply endReadForUnload_keeps
    | with_reducible apply settle_keeps
    | with_reducible apply usedFree_keeps
    | with_reducible apply Keeps.ite
    | fail_if_no_progress (with_reducible refine Keeps.upd rfl ?_)
    | fail_if_no_progress (with_reducible refine Keeps.drop rfl ?_)
    | split

theorem takePayload_keeps (h_ : LinkHeader) (p : LinkPayload) {s x : State} (h : Keeps s x) : Keeps s (takePayload h_ p x) := by
  unfold takePayload
  repeat' first
    | with_reducible exact h
    | with_reducible apply unloadRequest_keeps
    | with_reducible apply linkRequest_keeps
    | with_reducible apply endTransaction_keeps
    | with_reducible apply Keeps.ite

theorem linkHeader_keeps (h_ : LinkHeader) (p : Option LinkPayload) {s x : State} (h : Keeps s x) : Keeps s (linkHeader h_ p x) := by
  unfold linkHeader
  repeat' first
    | with_reducible exact h
    | with_reducible apply takePayload_keeps
    | with_reducible apply passOutAnswer_keeps
    | with_reducible apply answer_keeps
    | with_reducible apply satisfyAttention_keeps
    | with_reducible apply endTransaction_keeps
    | with_reducible apply Keeps.ite
    | fail_if_no_progress (with_reducible refine Keeps.upd rfl ?_)
    | fail_if_no_progress (with_reducible refine Keeps.drop rfl ?_)
    | split

theorem execStatus_keeps (h_ : LinkHeader) {s t : State} (e : execStatus h_ s = .next t) : Keeps s t := by
  obtain rfl := Host.Outcome.next.inj e
  have h := Keeps.refl s
  repeat' first
    | with_reducible exact h
    | with_reducible apply linkHeader_keeps

theorem execCartId_keeps (h_ : LinkHeader) {s t : State} (e : execCartId h_ s = .next t) : Keeps s t := by
  obtain rfl := Host.Outcome.next.inj e
  have h := Keeps.refl s
  repeat' first
    | with_reducible exact h
    | with_reducible apply linkHeader_keeps

theorem execCleanInfo_keeps (h_ : LinkHeader) {s t : State} (e : execCleanInfo h_ s = .next t) : Keeps s t := by
  obtain rfl := Host.Outcome.next.inj e
  have h := Keeps.refl s
  repeat' first
    | with_reducible exact h
    | with_reducible apply linkHeader_keeps

theorem execLoadHint_keeps (h_ : LinkHeader) (p : LinkPayload) {s t : State} (e : execLoadHint h_ p s = .next t) : Keeps s t := by
  obtain rfl := Host.Outcome.next.inj e
  have h := Keeps.refl s
  repeat' first
    | with_reducible exact h
    | with_reducible apply linkHeader_keeps

theorem execUnloadReq_keeps (h_ : LinkHeader) (p : LinkPayload) {s t : State} (e : execUnloadReq h_ p s = .next t) : Keeps s t := by
  obtain rfl := Host.Outcome.next.inj e
  have h := Keeps.refl s
  repeat' first
    | with_reducible exact h
    | with_reducible apply linkHeader_keeps

theorem execPassOut_keeps (h_ : LinkHeader) {s t : State} (e : execPassOut h_ s = .next t) : Keeps s t := by
  obtain rfl := Host.Outcome.next.inj e
  have h := Keeps.refl s
  repeat' first
    | with_reducible exact h
    | with_reducible apply linkHeader_keeps

theorem execPassIn_keeps (h_ : LinkHeader) (p : LinkPayload) {s t : State} (e : execPassIn h_ p s = .next t) : Keeps s t := by
  obtain rfl := Host.Outcome.next.inj e
  have h := Keeps.refl s
  repeat' first
    | with_reducible exact h
    | with_reducible apply linkHeader_keeps

theorem execLinkHeaderOther_keeps (h_ : LinkHeader) {s t : State} (e : execLinkHeaderOther h_ s = .next t) : Keeps s t := by
  obtain rfl := Host.Outcome.next.inj e
  have h := Keeps.refl s
  repeat' first
    | with_reducible exact h
    | with_reducible apply linkHeader_keeps

theorem execAnswerSent_keeps {s t : State} (e : execAnswerSent s = .next t) : Keeps s t := by
  obtain rfl := Host.Outcome.next.inj e
  have h := Keeps.refl s
  repeat' first
    | with_reducible exact h
    | with_reducible apply endTransaction_keeps
    | with_reducible apply lineMoves_keeps
    | with_reducible apply Keeps.ite
    | fail_if_no_progress (with_reducible refine Keeps.upd rfl ?_)
    | fail_if_no_progress (with_reducible refine Keeps.drop rfl ?_)
    | split

theorem execTransmitMismatch_keeps (lineActive : Bool) {s t : State} (e : execTransmitMismatch lineActive s = .next t) : Keeps s t := by
  obtain rfl := Host.Outcome.next.inj e
  have h := Keeps.refl s
  repeat' first
    | with_reducible exact h
    | with_reducible apply endTransaction_keeps
    | with_reducible apply lineMoves_keeps
    | with_reducible apply Keeps.ite
    | fail_if_no_progress (with_reducible refine Keeps.upd rfl ?_)
    | fail_if_no_progress (with_reducible refine Keeps.drop rfl ?_)
    | split

theorem judgeLinkReply_keeps (bs : List Byte) {s x : State} (h : Keeps s x) : Keeps s (judgeLinkReply bs x) := by
  unfold judgeLinkReply
  repeat' first
    | with_reducible exact h
    | with_reducible apply completeWith_keeps
    | with_reducible apply Keeps.ite
    | fail_if_no_progress (with_reducible refine Keeps.upd rfl ?_)

theorem execLinkReply_keeps (tag : Word) (bs : List Byte) {s t : State} (e : execLinkReply tag bs s = .next t) : Keeps s t := by
  refine firmware_keeps e fun o t h => ?_
  first
    | exact judgeLinkReply_keeps h
    | (cases o <;> dsimp only <;> first | exact h | (apply judgeLinkReply_keeps; exact h))

theorem judgeLinkAttention_keeps {s x : State} (h : Keeps s x) : Keeps s (judgeLinkAttention x) := by
  unfold judgeLinkAttention
  repeat' first
    | with_reducible exact h
    | with_reducible apply startAttention_keeps
    | with_reducible apply completeWith_keeps
    | with_reducible apply Keeps.ite
    | fail_if_no_progress (with_reducible refine Keeps.upd rfl ?_)

theorem execLinkAttention_keeps (tag : Word) {s t : State} (e : execLinkAttention tag s = .next t) : Keeps s t := by
  refine firmware_keeps e fun o t h => ?_
  first
    | exact judgeLinkAttention_keeps h

theorem execAttentionPulseStart_keeps {s t : State} (e : execAttentionPulseStart s = .next t) : Keeps s t := by
  obtain rfl := Host.Outcome.next.inj e
  have h := Keeps.refl s
  repeat' first
    | with_reducible exact h
    | with_reducible apply setLine_keeps
    | with_reducible apply Keeps.ite
    | fail_if_no_progress (with_reducible refine Keeps.upd rfl ?_)

theorem execAttentionPulseEnd_keeps (lineActive : Bool) {s t : State} (e : execAttentionPulseEnd lineActive s = .next t) : Keeps s t := by
  obtain rfl := Host.Outcome.next.inj e
  have h := Keeps.refl s
  repeat' first
    | with_reducible exact h
    | with_reducible apply lineMoves_keeps
    | with_reducible apply Keeps.ite
    | fail_if_no_progress (with_reducible refine Keeps.upd rfl ?_)

theorem execAttentionWindowExpiry_keeps {s t : State} (e : execAttentionWindowExpiry s = .next t) : Keeps s t := by
  obtain rfl := Host.Outcome.next.inj e
  have h := Keeps.refl s
  repeat' first
    | with_reducible exact h
    | with_reducible apply postNotice_keeps
    | with_reducible apply Keeps.ite
    | fail_if_no_progress (with_reducible refine Keeps.upd rfl ?_)

theorem execAttentionGapExpiry_keeps {s t : State} (e : execAttentionGapExpiry s = .next t) : Keeps s t := by
  obtain rfl := Host.Outcome.next.inj e
  have h := Keeps.refl s
  repeat' first
    | with_reducible exact h
    | with_reducible apply Keeps.ite
    | fail_if_no_progress (with_reducible refine Keeps.upd rfl ?_)

end Sys2Proof.Machine
end

