-- ==== Sys2Proof/Laws/Image.lean ====
section
/-! SUPPORT. The check word (R200): the sum of a structure's words with it is zero, so the cartridge image that the part writes is one
that it accepts. -/

namespace Sys2Proof.Machine

@[simp] theorem leBytes_length (k n : Nat) : (leBytes k n).length = k := by
  induction k generalizing n with
  | zero => rfl
  | succ k ih => simp [leBytes, ih]

@[simp] theorem padTo_length (n : Nat) (bs : List Byte) : (padTo n bs).length = n := by
  simp only [padTo, List.length_take, List.length_append, List.length_replicate]; omega

/-- The bytes of a number spell it, modulo the range of their count (12.1). -/
theorem leNat_leBytes (k n : Nat) : leNat (leBytes k n) = n % 256 ^ k := by
  induction k generalizing n with
  | zero => simp [leBytes, leNat, Nat.mod_one]
  | succ k ih =>
    simp only [leBytes, leNat, ih, BitVec.toNat_ofNat]
    have : 256 ^ (k + 1) = 256 * 256 ^ k := by ring
    rw [this, Nat.mod_mul]

theorem wordSum_lt (bs : List Byte) : wordSum bs < two32 := by
  unfold wordSum
  split
  · exact Nat.mod_lt _ (by decide)
  · decide

/-- The sums of two structures add up when the first is whole words (R200). -/
theorem wordSum_append (a b : List Byte) (h : a.length % 4 = 0) : wordSum (a ++ b) = (wordSum a + wordSum b) % two32 := by
  match a with
  | [] => simp [wordSum, Nat.mod_eq_of_lt (wordSum_lt b)]
  | [_] => simp at h
  | [_, _] => simp at h
  | [_, _, _] => simp at h
  | b0 :: b1 :: b2 :: b3 :: rest =>
    have hr : rest.length % 4 = 0 := by simp at h; omega
    have ih := wordSum_append rest b hr
    simp only [List.cons_append, wordSum, ih]
    simp only [Nat.add_mod_mod, Nat.mod_add_mod, Nat.add_assoc]

/-- A structure with its check word sums to zero (R200). -/
theorem wordSum_check (bs : List Byte) (h : bs.length % 4 = 0) : wordSum (bs ++ leBytes 4 (checkOf (wordSum bs))) = 0 := by
  have hw : wordSum (leBytes 4 (checkOf (wordSum bs))) = checkOf (wordSum bs) % two32 := by
    have e := leNat_leBytes 4 (checkOf (wordSum bs))
    simp only [leBytes] at e ⊢
    simp only [wordSum, Nat.add_zero, e]
    simp [two32]
  rw [wordSum_append _ _ h, hw]
  have := wordSum_lt bs
  simp only [checkOf, two32] at this ⊢
  omega

theorem cartBody_length (c : Cart) : (cartBody c).length = 16380 := by
  have he : ∀ e : Option Eod, (eodBytes e).length = 16 := by
    intro e; cases e <;> simp [eodBytes, ones]
  simp only [cartBody, List.length_append, List.length_cons, List.length_nil, List.length_replicate, padTo_length, leBytes_length, he]

/-- The image the part writes is whole and its check is good (R14, R200). -/
theorem cartCheck_cartImage (c : Cart) : cartCheck (cartImage c) = true := by
  have hl : (cartImage c).length = 16384 := by simp [cartImage, cartBody_length]
  have hs : wordSum (cartImage c) = 0 := wordSum_check _ (by rw [cartBody_length])
  simp only [cartCheck, hl, hs, Config.cartBytes]
  rfl

end Sys2Proof.Machine
end

