-- ==== Sys2Proof/Laws/Settle.lean ====
section
/-! SUPPORT. What is looked at again after a step (`settle`) and when it changes nothing; a write of the front port that is not
judged by the staging watch. -/

namespace Sys2Proof.Machine

theorem rejudgeHeld_none {s : State} (h : s.bp.held = none) : rejudgeHeld s = s := by simp [rejudgeHeld, h]

theorem checkFlush_none {s : State} (h : s.wr.flush = none) : checkFlush s = s := by simp [checkFlush, h]

theorem checkClose_off {s : State} (h : s.wr.close = false) : checkClose s = s := by simp [checkClose, h]

theorem startFetch_off {s : State} (h : fetchDue s = false) : startFetch s = s := by
  unfold startFetch
  split
  · rfl
  · split
    · rename_i h'
      simp [fetchDue, h'.1, h'.2.1, h'.2.2.1, h'.2.2.2.1, h'.2.2.2.2] at h
    · rfl

theorem checkExhaustion_awake {s : State} (h : s.ch.transport ≠ .parked) : checkExhaustion s = s := by
  simp [checkExhaustion, h]

theorem checkRestart_elsewhere {s : State} (h : ¬(s.ch.transport = .active ∧ s.mo.mode = some .waitData)) : checkRestart s = s := by
  unfold checkRestart
  split
  · rename_i h'
    exact absurd ⟨h'.1, h'.2.1⟩ h
  · rfl

theorem judgeDeferred_none {s : State} (h : s.ci.deferred = []) : judgeDeferred s = s := by simp [judgeDeferred, h]

/-- Where the activity was set at the last change of transport state or motion mode it stays (R20). -/
theorem noteActivity_noted {s : State} (h : s.ch.activityAt = (s.ch.transport, s.mo.mode)) : noteActivity s = s := by
  simp [noteActivity, h]

@[simp] theorem tStar_noteActivity (s : State) : tStar (noteActivity s) = tStar s := by
  unfold noteActivity; split <;> rfl

@[simp] theorem noteActivity_re (s : State) : (noteActivity s).re = s.re := by
  unfold noteActivity; split <;> rfl

theorem noteActivity_at (s : State) : (noteActivity s).ch.activityAt = ((noteActivity s).ch.transport, (noteActivity s).mo.mode) := by
  unfold noteActivity; split
  · assumption
  · rfl

/-- What stands is noted once (R20, R31, R33). -/
theorem noteTarget_noted {s : State} (h : noted s = true) : noteTarget s = s := by
  simp only [noted, Bool.and_eq_true, decide_eq_true_eq] at h
  simp [noteTarget, noteActivity_noted h.2, h.1]

@[simp] theorem tStar_noteTarget (s : State) : tStar (noteTarget s) = tStar s := by
  rw [← tStar_noteActivity s]
  unfold noteTarget; dsimp only; split <;> rfl

/-- What `noteTarget` leaves is noted. -/
@[simp] theorem noted_noteTarget (s : State) : noted (noteTarget s) = true := by
  simp only [noted, tStar_noteTarget, Bool.and_eq_true, decide_eq_true_eq]
  unfold noteTarget; dsimp only; split
  · rename_i h
    exact ⟨by rw [h]; simp, noteActivity_at s⟩
  · exact ⟨tStar_noteActivity s, noteActivity_at s⟩

/-- Noting the target a second time changes nothing. -/
@[simp] theorem noteTarget_idem (s : State) : noteTarget (noteTarget s) = noteTarget s := noteTarget_noted (noted_noteTarget s)

/-- A steady part has no command waiting for a recovery, and its target noted. -/
theorem steady_iff (s : State) : steady s = true ↔ s.ci.deferred = [] ∧ noted s = true := by
  simp [steady]

/-- Nothing follows from a step that leaves the part calm. -/
theorem settle_calm {s : State} (h : calm s = true) : settle s = s := by
  simp only [calm, Bool.and_eq_true, Option.isNone_iff_eq_none, Bool.not_eq_true', decide_eq_true_eq, steady_iff] at h
  obtain ⟨⟨⟨⟨⟨⟨⟨hDefer, hNoted⟩, hHeld⟩, hFlush⟩, hClose⟩, hFetch⟩, hPark⟩, hWait⟩ := h
  have hr : ¬(s.ch.transport = .active ∧ s.mo.mode = some .waitData) := by
    rintro ⟨a, b⟩; simp [a, b] at hWait
  simp only [settle, judgeDeferred_none hDefer, checkFlush_none hFlush, checkClose_off hClose, rejudgeHeld_none hHeld, startFetch_off hFetch,
    checkExhaustion_awake hPark, checkRestart_elsewhere hr, noteTarget_noted hNoted]

/-- With no session and no watch nothing is settled, wherever the transport is. -/
theorem settle_quiet {s : State} (h : quiet s = true) : settle s = s := by
  simp only [quiet, Bool.and_eq_true, Option.isNone_iff_eq_none, Bool.not_eq_true', decide_eq_true_eq, steady_iff] at h
  obtain ⟨⟨⟨⟨⟨⟨⟨hDefer, hNoted⟩, hSes⟩, hSt⟩, hWatch⟩, hHeld⟩, hFlush⟩, hClose⟩ := h
  have hf : fetchDue s = false := by simp [fetchDue, hWatch]
  have hx : intakeWaits s = false := by simp [intakeWaits, hSt]
  have hl : writerLive s = false := by simp [writerLive, softError, hSes]
  have he : checkExhaustion s = s := by simp [checkExhaustion, hx, hl]
  have hr : checkRestart s = s := by simp [checkRestart, restartCause, hl]
  simp only [settle, judgeDeferred_none hDefer, checkFlush_none hFlush, checkClose_off hClose, rejudgeHeld_none hHeld, startFetch_off hf, he, hr,
    noteTarget_noted hNoted]

end Sys2Proof.Machine
end

