-- ==== Sys2Proof/Laws/Jobs.lean ====
section
/-! SUPPORT. The jobs: what putting a job back does, and how a firmware command runs to its completion where its job's places are
empty (R181, R183 to R185). -/

namespace Sys2Proof.Machine

@[simp] theorem setJob_job (j : JobId) (v : Job) (s : State) : (s.setJob j v).job j = v := by cases j <;> rfl

theorem setJob_same (j : JobId) (s : State) : s.setJob j (s.job j) = s := by cases j <;> rfl

@[simp] theorem setJob_setJob (j : JobId) (v w : Job) (s : State) : (s.setJob j v).setJob j w = s.setJob j w := by cases j <;> rfl

@[simp] theorem cqOpen_setJob (j : JobId) (v : Job) (s : State) : cqOpen (s.setJob j v) = cqOpen s := by cases j <;> rfl
@[simp] theorem layout_setJob (j : JobId) (v : Job) (s : State) : (s.setJob j v).bp = s.bp := by cases j <;> rfl
@[simp] theorem cq_setJob (j : JobId) (v : Job) (s : State) : (s.setJob j v).cq = s.cq := by cases j <;> rfl
@[simp] theorem pw_setJob (j : JobId) (v : Job) (s : State) : (s.setJob j v).pw = s.pw := by cases j <;> rfl
@[simp] theorem ch_setJob (j : JobId) (v : Job) (s : State) : (s.setJob j v).ch = s.ch := by cases j <;> rfl
@[simp] theorem mo_setJob (j : JobId) (v : Job) (s : State) : (s.setJob j v).mo = s.mo := by cases j <;> rfl
@[simp] theorem ri_setJob (j : JobId) (v : Job) (s : State) : (s.setJob j v).ri = s.ri := by cases j <;> rfl
@[simp] theorem wr_setJob (j : JobId) (v : Job) (s : State) : (s.setJob j v).wr = s.wr := by cases j <;> rfl
@[simp] theorem rd_setJob (j : JobId) (v : Job) (s : State) : (s.setJob j v).rd = s.rd := by cases j <;> rfl
@[simp] theorem sm_setJob (j : JobId) (v : Job) (s : State) : (s.setJob j v).sm = s.sm := by cases j <;> rfl
@[simp] theorem sp_setJob (j : JobId) (v : Job) (s : State) : (s.setJob j v).sp = s.sp := by cases j <;> rfl
@[simp] theorem he_setJob (j : JobId) (v : Job) (s : State) : (s.setJob j v).he = s.he := by cases j <;> rfl
@[simp] theorem li_setJob (j : JobId) (v : Job) (s : State) : (s.setJob j v).li = s.li := by cases j <;> rfl
@[simp] theorem re_setJob (j : JobId) (v : Job) (s : State) : (s.setJob j v).re = s.re := by cases j <;> rfl
@[simp] theorem mem_setJob (j : JobId) (v : Job) (s : State) : (s.setJob j v).mem = s.mem := by cases j <;> rfl

/-- A firmware command whose places are empty, in a bound part, is judged at once. -/
theorem firmware_judges {c : FwCmd} {judge : FwOp → State → State} {s : State} (hl : s.bp.layout.isSome = true)
    (hj : s.job (fwJob c.op) = Job.clear) :
    firmware c judge s = .next (judgeRunning c judge s) := by
  have hl' : s.bp.layout.isNone = false := by
    cases h : s.bp.layout <;> simp [h] at hl ⊢
  simp [firmware, hl', hj, Job.clear]

/-- With room in the internal queue the running command's completion enters it, and the place is free again. -/
theorem complete_posts {c : FwCmd} {st : Status} {sub : Nat} {r : Results} {s : State} {j : JobId}
    (hj : s.job j = runningNow c) (hq : cqOpen s = true) (hd : s.pw.cancelled ≠ some j) :
    complete j st sub r s = (posted c.tag c.op st sub r s).setJob j Job.clear := by
  have hn : (noteStatus st s).job j = s.job j := by unfold noteStatus; split <;> cases j <;> rfl
  have hq' : cqOpen (noteStatus st s) = true := by unfold noteStatus; split <;> exact hq
  have hp : (noteStatus st s).pw = s.pw := by unfold noteStatus; split <;> rfl
  have hr : rearmAfter j (noteStatus st s) = noteStatus st s := by simp [rearmAfter, hp, hd]
  have hk : (cqPush (completionRecord c st sub r) (noteStatus st s)).job j = (noteStatus st s).job j := by cases j <;> rfl
  simp only [complete, hj, runningNow, Bool.false_eq_true, ↓reduceIte, hr, postJobEnd, hq', endRunning, hk, hn, posted]

end Sys2Proof.Machine
end

