-- ==== Sys2Proof/Laws/Memory.lean ====
section
/-! SUPPORT. The buffer memory: every operation keeps its canonical form; and what the grant of the memory port and the two resets
leave alone. -/

namespace Sys2Proof.Machine

theorem cellsFrom_weaken {m : List Host.Cell} {lo lo' : Nat} (h : cellsFrom lo m = true) (hl : lo' ≤ lo) : cellsFrom lo' m = true := by
  cases m with
  | nil => rfl
  | cons c rest =>
    simp only [cellsFrom, Bool.and_eq_true, decide_eq_true_eq] at h ⊢
    exact ⟨⟨by omega, h.1.2⟩, h.2⟩

theorem memWrite_cellsFrom {m : List Host.Cell} {lo a : Nat} {b : Byte} (h : cellsFrom lo m = true) (ha : lo ≤ a) :
    cellsFrom lo (memWrite m a b) = true := by
  induction m generalizing lo with
  | nil =>
    unfold memWrite
    split
    · rfl
    · rename_i hb
      simp only [cellsFrom, Bool.and_eq_true, decide_eq_true_eq]
      exact ⟨⟨ha, hb⟩, trivial⟩
  | cons c rest ih =>
    obtain ⟨k, v⟩ := c
    simp only [cellsFrom, Bool.and_eq_true, decide_eq_true_eq] at h
    obtain ⟨⟨hk, hv⟩, hr⟩ := h
    unfold memWrite
    split
    · rename_i hka
      subst hka
      split
      · exact cellsFrom_weaken hr (by omega)
      · rename_i hb
        simp only [cellsFrom, Bool.and_eq_true, decide_eq_true_eq]
        exact ⟨⟨hk, hb⟩, hr⟩
    · split
      · split
        · simp only [cellsFrom, Bool.and_eq_true, decide_eq_true_eq]
          exact ⟨⟨hk, hv⟩, hr⟩
        · rename_i hak hb
          simp only [cellsFrom, Bool.and_eq_true, decide_eq_true_eq]
          exact ⟨⟨ha, hb⟩, ⟨⟨by omega, hv⟩, hr⟩⟩
      · simp only [cellsFrom, Bool.and_eq_true, decide_eq_true_eq]
        exact ⟨⟨hk, hv⟩, ih hr (by omega)⟩

theorem memWrite_wf {m : List Host.Cell} (a : Nat) (b : Byte) (h : Memory.wf m = true) : Memory.wf (memWrite m a b) = true :=
  memWrite_cellsFrom h (Nat.zero_le a)

theorem memWriteBytes_wf (bs : List (Option Byte)) {m : List Host.Cell} (a : Nat) (h : Memory.wf m = true) :
    Memory.wf (memWriteBytes m a bs) = true := by
  induction bs generalizing m a with
  | nil => exact h
  | cons b bs ih =>
    cases b with
    | none => exact ih (a + 1) h
    | some v => exact ih (a + 1) (memWrite_wf a v h)

theorem moveLine_wf (r : Req) {m : List Host.Cell} (h : Memory.wf m = true) : Memory.wf (moveLine r m).2 = true := by
  unfold moveLine
  split
  · exact memWriteBytes_wf _ _ h
  · exact h

theorem grantLine_wf {s : State} (h : Memory.wf s.mem = true) : Memory.wf (grantLine s).1.mem = true := by
  unfold grantLine
  split
  · exact h
  · dsimp only
    split <;> exact moveLine_wf _ h

theorem grantLine_pending (s : State) : (grantLine s).1.pending = s.pending := by
  unfold grantLine
  split
  · rfl
  · dsimp only; split <;> rfl

theorem grantLine_strap (s : State) : (grantLine s).1.li.strap = s.li.strap := by
  unfold grantLine
  split
  · rfl
  · dsimp only; split <;> rfl

theorem grantLine_bands {s : State} (h : bandsLegal s = true) : bandsLegal (grantLine s).1 = true := by
  unfold grantLine
  split
  · exact h
  · dsimp only; split <;> exact h

theorem grantLine_laws {s : State} (h : lawful s = true) : lawful (grantLine s).1 = true := by
  unfold grantLine
  split
  · exact h
  · dsimp only
    rw [lawful_iff] at h
    split <;> rw [lawful_iff] <;> refine ⟨h.1, h.2.1, h.2.2.1, ?_⟩ <;> dsimp only <;> (repeat' split) <;> have := h.2.2.2 <;> omega

theorem requestDone_keeps (r : Req) (s : State) : Keeps s (requestDone r s) := by
  have h := Keeps.refl s
  unfold requestDone
  cases r.what with
  | plain => exact h
  | drainRead => exact settle_keeps (drainReturned_keeps _ h)
  | contextPop d => exact settle_keeps (contextPopped_keeps _ _ h)
  | record => exact recordGranted_keeps h
  | pieceHeader start => exact settle_keeps (headerGranted_keeps _ h)
  | stagingFetch => exact Keeps.ite (Keeps.upd rfl h) h
  | _ => exact Keeps.upd rfl h

/-- The grant keeps the canonical form of the memory, the queue, the strap, the legal bands and the laws. -/
theorem execMemoryPortGrant_spec {s t : State} (e : execMemoryPortGrant s = .next t) :
    (Memory.wf s.mem = true → Memory.wf t.mem = true) ∧ t.pending = s.pending ∧ t.li.strap = s.li.strap ∧
      (bandsLegal s = true → bandsLegal t = true) ∧ (lawful s = true → lawful t = true) := by
  have e' := Host.Outcome.next.inj e
  have hp := grantLine_pending s
  have hs := grantLine_strap s
  dsimp only at e'
  split at e'
  · subst e'
    exact ⟨grantLine_wf, hp, hs, grantLine_bands, grantLine_laws⟩
  · rename_i r _
    have k := requestDone_keeps r (grantLine s).1
    rw [e'] at k
    exact ⟨fun h => k.mem ▸ grantLine_wf h, k.pending.trans hp, k.strap.trans hs, fun h => k.bands (grantLine_bands h),
      fun h => k.laws (grantLine_laws h)⟩

/-- A reset keeps the memory and the queue; its bands are those of the machine after reset, and the laws hold of it. -/
theorem resetAll_spec (line : Bool) (sn : Sensors) (strap : BitVec 3) (s : State) :
    (resetAll line sn strap s).mem = s.mem ∧ (resetAll line sn strap s).pending = s.pending ∧
      bandsLegal (resetAll line sn strap s) = true ∧ lawful (resetAll line sn strap s) = true := by
  have k := fun x => takeBehind_keeps
    (match s.bp.held with
      | some w => w :: s.bp.behind
      | none => s.bp.behind) (positionInput_keeps sn.movement (readSensors_keeps sn (Keeps.refl x)))
  unfold resetAll
  exact ⟨(k _).mem, (k _).pending, (k _).bands rfl, (k _).laws rfl⟩

theorem execPowerOn_spec {sn : Sensors} {strap : BitVec 3} {s t : State} (e : execPowerOn sn strap s = .next t) :
    t.mem = s.mem ∧ t.pending = s.pending ∧ bandsLegal t = true ∧ lawful t = true := by
  obtain rfl := Host.Outcome.next.inj e
  have r := resetAll_spec false sn strap s
  have k := decideState_keeps sn (Keeps.refl (resetAll false sn strap s))
  exact ⟨k.mem.trans r.1, k.pending.trans r.2.1, k.bands r.2.2.1, k.laws r.2.2.2⟩

theorem execResetLine_spec {sn : Sensors} {strap : BitVec 3} {s t : State} (e : execResetLine sn strap s = .next t) :
    t.mem = s.mem ∧ t.pending = s.pending ∧ bandsLegal t = true ∧ lawful t = true := by
  have r := resetAll_spec true sn strap s
  simp only [execResetLine, Host.Outcome.next.injEq] at e
  subst e
  exact ⟨r.1, r.2.1, r.2.2.1, (lawful_congr rfl).trans r.2.2.2⟩

end Sys2Proof.Machine
end

