-- ==== Sys2Proof/Laws/Ops.lean ====
section
/-! SUPPORT. What each shared operation does in the plain circumstances of Safety.lean: a request on the front port, a transfer issued to
the memory port, a notice posted, a dwell that nothing cancels, a change that leaves the part calm. -/

namespace Sys2Proof.Machine

/-- A well-formed request does not stop (00_scope.md 0.2). -/
theorem requestFault_of_wf {a n : Nat} (h : requestWf a n = true) : requestFault a n = none := by
  simp only [requestWf, fits, List.all_cons, List.all_nil, Bool.and_eq_true, bne_iff_ne, decide_eq_true_eq, Config.lineBytes, Config.memBytes] at h
  unfold requestFault
  rw [if_neg (by omega), if_neg (by change ¬(536870912 < _); omega)]

/-- A well-formed request carries bytes. -/
theorem isEmpty_of_wf {a : Nat} {bs : List (Option Byte)} (h : requestWf a bs.length = true) : bs.isEmpty = false := by
  simp only [requestWf, fits, Bool.and_eq_true, bne_iff_ne] at h
  cases bs <;> simp at h ⊢

/-- A write of at least one byte joins the requests in its class (R82). -/
theorem issueWrite_of_ne {bs : List Byte} (h : bs.isEmpty = false) (cls : ReqClass) (a : Nat) (what : Purpose) (s : State) :
    issueWrite cls a bs what s = { s with
      bp.reqs := s.bp.reqs ++ [{ cls := cls, isWrite := true, addr := a, len := bs.length, data := bs.map some, got := [], what := what }] } := by
  unfold issueWrite; rw [h]; rfl

/-- A read of at least one byte joins the requests in its class (R82). -/
theorem issueRead_of_pos {n : Nat} (h : n ≠ 0) (cls : ReqClass) (a : Nat) (what : Purpose) (s : State) :
    issueRead cls a n what s = { s with
      bp.reqs := s.bp.reqs ++ [{ cls := cls, isWrite := false, addr := a, len := n, data := [], got := [], what := what }] } := by
  simp [issueRead, h]

/-- With room in the internal queue a notice enters it at once (R184, R185). -/
theorem postNotice_of_open {s : State} (h : cqOpen s = true) (k : NoticeKind) (content : List Byte) :
    postNotice k content s = { s with cq.queue := s.cq.queue ++ [noticeRecord k content] } := by
  simp [postNotice, postAt, h, cqPush]

@[simp] theorem noteStatus_ok (s : State) : noteStatus .ok s = s := rfl

/-- A status other than OK becomes the last error (R193). -/
theorem noteStatus_of_ne {st : Status} (h : st ≠ .ok) (s : State) : noteStatus st s = { s with li.lastErr := st } := by
  simp [noteStatus, h]

/-- A completion arms no dwell that its job did not cancel (R39). -/
theorem rearmAfter_of_ne {j : JobId} {s : State} (h : s.pw.cancelled ≠ some j) : rearmAfter j s = s := by
  simp [rearmAfter, h]

/-- No dwell runs: nothing is cancelled (R39). -/
theorem cancelDwell_of_off {s : State} (h : s.pw.dwell = false) (j : JobId) : cancelDwell j s = s := by
  simp [cancelDwell, h]

/-- The running command leaves and nothing is pending: the job is empty (R183). -/
theorem endRunning_of_none {j : JobId} {s : State} (h : (s.job j).pending = none) : endRunning j s = s.setJob j Job.clear := by
  simp [endRunning, h]

/-- A calm part holds no write (R78). -/
theorem held_of_calm {s : State} (h : calm s = true) : s.bp.held = none := by
  simp only [calm, Bool.and_eq_true, Option.isNone_iff_eq_none] at h
  exact h.1.1.1.1.1.2

/-- A state that agrees with a calm one in what `settle` looks at is left as it is. -/
theorem settle_of_agrees {s t : State} (h : calm s = true) (h0 : t.bp.held = none) (hw : t.bp.watch = s.bp.watch)
    (h2 : t.bp.rl = s.bp.rl) (h3 : t.bp.release = s.bp.release) (h4 : t.bp.layout = s.bp.layout) (h5 : t.ri = s.ri)
    (h6 : t.wr.flush = s.wr.flush) (h7 : t.wr.close = s.wr.close) (h8 : t.ch.transport = s.ch.transport)
    (h9 : t.mo.mode = s.mo.mode) (h10 : t.ci.deferred = s.ci.deferred) (h11 : noted t = noted s) : settle t = t := by
  apply settle_calm
  have hs := held_of_calm h
  have e : fetchDue t = fetchDue s := by
    have e1 : takesBytes t = takesBytes s := by unfold takesBytes; rw [h5]
    have e2 : available t = available s := by unfold available ringZ; rw [h2, h3, h4, h5]
    unfold fetchDue
    rw [e1, e2, hw, h5]
  simp only [calm, Bool.and_eq_true, Bool.not_eq_true', Bool.and_eq_false_iff, decide_eq_true_eq, decide_eq_false_iff_not] at h ⊢
  have e' : steady t = steady s := by unfold steady; rw [h10, h11]
  rw [e, e', h0, h6, h7, h8, h9]
  rw [hs] at h
  exact h

/-- Where the position input shows no movement a forced zero leaves the brake as it is (R25). -/
theorem zeroReels_of_still {s : State} (h : inputMoves s = false) :
    zeroReels s = { s with re.sup := .forced, re.tak := .forced } := by
  simp [zeroReels, h]

/-- With the recovery stack empty nothing is written for it (R59). -/
theorem emptyStack_of_nil {s : State} (h : s.mo.stack = []) : emptyStack s = s := by
  simp [emptyStack, h]

/-- With no brake and the loops of the state running, nothing is held idle (R24). -/
theorem holdIdle_of_running {s : State} (h : loopsRun s = true) : holdIdle s = s := by
  simp [holdIdle, h]

end Sys2Proof.Machine
end

