-- ==== Sys2Proof/Laws/State.lean ====
section
/-! SUPPORT. What each plain update of the state changes and what it leaves as it was: one lemma for each block of the state and each
update, so that no later proof unfolds a record update. -/

namespace Sys2Proof.Machine

/-! ### A channel's staged pair (R24) -/

@[simp] theorem stage_rise (c : Channel) (a b : Nat) : (c.stage a b).rise = c.rise := rfl
@[simp] theorem stage_fall (c : Channel) (a b : Nat) : (c.stage a b).fall = c.fall := rfl
@[simp] theorem stage_sRise (c : Channel) (a b : Nat) : (c.stage a b).sRise = a := rfl
@[simp] theorem stage_sFall (c : Channel) (a b : Nat) : (c.stage a b).sFall = b := rfl
@[simp] theorem stage_flag (c : Channel) (a b : Nat) : (c.stage a b).flag = true := rfl

/-! ### `usedFree` -/

@[simp] theorem usedFree_mem (s : State) : (usedFree s).mem = s.mem := rfl
@[simp] theorem usedFree_bp (s : State) : (usedFree s).bp = s.bp := rfl
@[simp] theorem usedFree_ci (s : State) : (usedFree s).ci = s.ci := rfl
@[simp] theorem usedFree_cq (s : State) : (usedFree s).cq = s.cq := rfl
@[simp] theorem usedFree_ri (s : State) : (usedFree s).ri = s.ri := rfl
@[simp] theorem usedFree_sm (s : State) : (usedFree s).sm = s.sm := rfl
@[simp] theorem usedFree_wr (s : State) : (usedFree s).wr = s.wr := rfl
@[simp] theorem usedFree_rd (s : State) : (usedFree s).rd = s.rd := rfl
@[simp] theorem usedFree_ch (s : State) : (usedFree s).ch = s.ch := rfl
@[simp] theorem usedFree_re (s : State) : (usedFree s).re = s.re := rfl
@[simp] theorem usedFree_pw (s : State) : (usedFree s).pw = s.pw := rfl
@[simp] theorem usedFree_mo (s : State) : (usedFree s).mo = s.mo := rfl
@[simp] theorem usedFree_sp (s : State) : (usedFree s).sp = s.sp := rfl
@[simp] theorem usedFree_he (s : State) : (usedFree s).he = s.he := rfl
@[simp] theorem usedFree_li (s : State) : (usedFree s).li = s.li := rfl
@[simp] theorem usedFree_frees (s : State) : (usedFree s).frees = s.frees + 1 := rfl
@[simp] theorem usedFree_pending (s : State) : (usedFree s).pending = s.pending := rfl

/-! ### `cqPush` -/

@[simp] theorem cqPush_mem (r : Record) (s : State) : (cqPush r s).mem = s.mem := rfl
@[simp] theorem cqPush_bp (r : Record) (s : State) : (cqPush r s).bp = s.bp := rfl
@[simp] theorem cqPush_ci (r : Record) (s : State) : (cqPush r s).ci = s.ci := rfl
@[simp] theorem cqPush_cq (r : Record) (s : State) : (cqPush r s).cq = { s.cq with queue := s.cq.queue ++ [r] } := rfl
@[simp] theorem cqPush_ri (r : Record) (s : State) : (cqPush r s).ri = s.ri := rfl
@[simp] theorem cqPush_sm (r : Record) (s : State) : (cqPush r s).sm = s.sm := rfl
@[simp] theorem cqPush_wr (r : Record) (s : State) : (cqPush r s).wr = s.wr := rfl
@[simp] theorem cqPush_rd (r : Record) (s : State) : (cqPush r s).rd = s.rd := rfl
@[simp] theorem cqPush_ch (r : Record) (s : State) : (cqPush r s).ch = s.ch := rfl
@[simp] theorem cqPush_re (r : Record) (s : State) : (cqPush r s).re = s.re := rfl
@[simp] theorem cqPush_pw (r : Record) (s : State) : (cqPush r s).pw = s.pw := rfl
@[simp] theorem cqPush_mo (r : Record) (s : State) : (cqPush r s).mo = s.mo := rfl
@[simp] theorem cqPush_sp (r : Record) (s : State) : (cqPush r s).sp = s.sp := rfl
@[simp] theorem cqPush_he (r : Record) (s : State) : (cqPush r s).he = s.he := rfl
@[simp] theorem cqPush_li (r : Record) (s : State) : (cqPush r s).li = s.li := rfl
@[simp] theorem cqPush_frees (r : Record) (s : State) : (cqPush r s).frees = s.frees := rfl
@[simp] theorem cqPush_pending (r : Record) (s : State) : (cqPush r s).pending = s.pending := rfl

/-! ### `setSlot` -/

@[simp] theorem setSlot_mem (k : Nat) (v : Slot) (s : State) : (setSlot k v s).mem = s.mem := rfl
@[simp] theorem setSlot_bp (k : Nat) (v : Slot) (s : State) : (setSlot k v s).bp = s.bp := rfl
@[simp] theorem setSlot_ci (k : Nat) (v : Slot) (s : State) : (setSlot k v s).ci = s.ci := rfl
@[simp] theorem setSlot_cq (k : Nat) (v : Slot) (s : State) : (setSlot k v s).cq = s.cq := rfl
@[simp] theorem setSlot_ri (k : Nat) (v : Slot) (s : State) : (setSlot k v s).ri = s.ri := rfl
@[simp] theorem setSlot_sm (k : Nat) (v : Slot) (s : State) :
    (setSlot k v s).sm = { s.sm with slots := if (slotAt s k).st = .free ∨ v.st = .free then s.sm.slots else s.sm.slots.set k v } := rfl
@[simp] theorem setSlot_wr (k : Nat) (v : Slot) (s : State) : (setSlot k v s).wr = s.wr := rfl
@[simp] theorem setSlot_rd (k : Nat) (v : Slot) (s : State) : (setSlot k v s).rd = s.rd := rfl
@[simp] theorem setSlot_ch (k : Nat) (v : Slot) (s : State) : (setSlot k v s).ch = s.ch := rfl
@[simp] theorem setSlot_re (k : Nat) (v : Slot) (s : State) : (setSlot k v s).re = s.re := rfl
@[simp] theorem setSlot_pw (k : Nat) (v : Slot) (s : State) : (setSlot k v s).pw = s.pw := rfl
@[simp] theorem setSlot_mo (k : Nat) (v : Slot) (s : State) : (setSlot k v s).mo = s.mo := rfl
@[simp] theorem setSlot_sp (k : Nat) (v : Slot) (s : State) : (setSlot k v s).sp = s.sp := rfl
@[simp] theorem setSlot_he (k : Nat) (v : Slot) (s : State) : (setSlot k v s).he = s.he := rfl
@[simp] theorem setSlot_li (k : Nat) (v : Slot) (s : State) : (setSlot k v s).li = s.li := rfl
@[simp] theorem setSlot_frees (k : Nat) (v : Slot) (s : State) : (setSlot k v s).frees = s.frees := rfl
@[simp] theorem setSlot_pending (k : Nat) (v : Slot) (s : State) : (setSlot k v s).pending = s.pending := rfl

/-! ### `freeSlot` -/

@[simp] theorem freeSlot_mem (k : Nat) (s : State) : (freeSlot k s).mem = s.mem := rfl
@[simp] theorem freeSlot_bp (k : Nat) (s : State) : (freeSlot k s).bp = s.bp := rfl
@[simp] theorem freeSlot_ci (k : Nat) (s : State) : (freeSlot k s).ci = s.ci := rfl
@[simp] theorem freeSlot_cq (k : Nat) (s : State) : (freeSlot k s).cq = s.cq := rfl
@[simp] theorem freeSlot_ri (k : Nat) (s : State) : (freeSlot k s).ri = s.ri := rfl
@[simp] theorem freeSlot_sm (k : Nat) (s : State) :
    (freeSlot k s).sm = { s.sm with
      slots := if decide ((slotAt s k).st = .free) then s.sm.slots else s.sm.slots.set k (freshSlot .free 0),
      free := if decide ((slotAt s k).st = .free) then s.sm.free else s.sm.free ++ [k] } := rfl
@[simp] theorem freeSlot_wr (k : Nat) (s : State) : (freeSlot k s).wr = s.wr := rfl
@[simp] theorem freeSlot_rd (k : Nat) (s : State) : (freeSlot k s).rd = s.rd := rfl
@[simp] theorem freeSlot_ch (k : Nat) (s : State) : (freeSlot k s).ch = s.ch := rfl
@[simp] theorem freeSlot_re (k : Nat) (s : State) : (freeSlot k s).re = s.re := rfl
@[simp] theorem freeSlot_pw (k : Nat) (s : State) : (freeSlot k s).pw = s.pw := rfl
@[simp] theorem freeSlot_mo (k : Nat) (s : State) : (freeSlot k s).mo = s.mo := rfl
@[simp] theorem freeSlot_sp (k : Nat) (s : State) : (freeSlot k s).sp = s.sp := rfl
@[simp] theorem freeSlot_he (k : Nat) (s : State) : (freeSlot k s).he = s.he := rfl
@[simp] theorem freeSlot_li (k : Nat) (s : State) : (freeSlot k s).li = s.li := rfl
@[simp] theorem freeSlot_frees (k : Nat) (s : State) : (freeSlot k s).frees = s.frees := rfl
@[simp] theorem freeSlot_pending (k : Nat) (s : State) : (freeSlot k s).pending = s.pending := rfl

/-! ### `raiseX` -/

@[simp] theorem raiseX_mem (k : Nat) (s : State) : (raiseX k s).mem = s.mem := rfl
@[simp] theorem raiseX_bp (k : Nat) (s : State) : (raiseX k s).bp = s.bp := rfl
@[simp] theorem raiseX_ci (k : Nat) (s : State) : (raiseX k s).ci = s.ci := rfl
@[simp] theorem raiseX_cq (k : Nat) (s : State) : (raiseX k s).cq = s.cq := rfl
@[simp] theorem raiseX_ri (k : Nat) (s : State) : (raiseX k s).ri = s.ri := rfl
@[simp] theorem raiseX_sm (k : Nat) (s : State) : (raiseX k s).sm = s.sm := rfl
@[simp] theorem raiseX_wr (k : Nat) (s : State) : (raiseX k s).wr = s.wr := rfl
@[simp] theorem raiseX_rd (k : Nat) (s : State) :
    (raiseX k s).rd = { s.rd with x := match (slotsIn isFetching s).find? (fun j => decide (j ≠ k)) with
      | some j => (slotAt s j).seg
      | none => max s.rd.next ((slotAt s k).seg + 1) } := rfl
@[simp] theorem raiseX_ch (k : Nat) (s : State) : (raiseX k s).ch = s.ch := rfl
@[simp] theorem raiseX_re (k : Nat) (s : State) : (raiseX k s).re = s.re := rfl
@[simp] theorem raiseX_pw (k : Nat) (s : State) : (raiseX k s).pw = s.pw := rfl
@[simp] theorem raiseX_mo (k : Nat) (s : State) : (raiseX k s).mo = s.mo := rfl
@[simp] theorem raiseX_sp (k : Nat) (s : State) : (raiseX k s).sp = s.sp := rfl
@[simp] theorem raiseX_he (k : Nat) (s : State) : (raiseX k s).he = s.he := rfl
@[simp] theorem raiseX_li (k : Nat) (s : State) : (raiseX k s).li = s.li := rfl
@[simp] theorem raiseX_frees (k : Nat) (s : State) : (raiseX k s).frees = s.frees := rfl
@[simp] theorem raiseX_pending (k : Nat) (s : State) : (raiseX k s).pending = s.pending := rfl

/-! ### `motionStart` -/

@[simp] theorem motionStart_mem (s : State) : (motionStart s).mem = s.mem := rfl
@[simp] theorem motionStart_bp (s : State) : (motionStart s).bp = s.bp := rfl
@[simp] theorem motionStart_ci (s : State) : (motionStart s).ci = s.ci := rfl
@[simp] theorem motionStart_cq (s : State) : (motionStart s).cq = s.cq := rfl
@[simp] theorem motionStart_ri (s : State) : (motionStart s).ri = s.ri := rfl
@[simp] theorem motionStart_sm (s : State) : (motionStart s).sm = s.sm := rfl
@[simp] theorem motionStart_wr (s : State) : (motionStart s).wr = s.wr := rfl
@[simp] theorem motionStart_rd (s : State) : (motionStart s).rd = { s.rd with start := none } := rfl
@[simp] theorem motionStart_ch (s : State) : (motionStart s).ch = s.ch := rfl
@[simp] theorem motionStart_re (s : State) : (motionStart s).re = s.re := rfl
@[simp] theorem motionStart_pw (s : State) : (motionStart s).pw = s.pw := rfl
@[simp] theorem motionStart_mo (s : State) : (motionStart s).mo = { s.mo with stands := none } := rfl
@[simp] theorem motionStart_sp (s : State) : (motionStart s).sp = s.sp := rfl
@[simp] theorem motionStart_he (s : State) : (motionStart s).he = s.he := rfl
@[simp] theorem motionStart_li (s : State) : (motionStart s).li = s.li := rfl
@[simp] theorem motionStart_frees (s : State) : (motionStart s).frees = s.frees := rfl
@[simp] theorem motionStart_pending (s : State) : (motionStart s).pending = s.pending := rfl

/-! ### `driveArm` -/

@[simp] theorem driveArm_mem (d : ArmDir) (s : State) : (driveArm d s).mem = s.mem := rfl
@[simp] theorem driveArm_bp (d : ArmDir) (s : State) : (driveArm d s).bp = s.bp := rfl
@[simp] theorem driveArm_ci (d : ArmDir) (s : State) : (driveArm d s).ci = s.ci := rfl
@[simp] theorem driveArm_cq (d : ArmDir) (s : State) : (driveArm d s).cq = s.cq := rfl
@[simp] theorem driveArm_ri (d : ArmDir) (s : State) : (driveArm d s).ri = s.ri := rfl
@[simp] theorem driveArm_sm (d : ArmDir) (s : State) : (driveArm d s).sm = s.sm := rfl
@[simp] theorem driveArm_wr (d : ArmDir) (s : State) : (driveArm d s).wr = s.wr := rfl
@[simp] theorem driveArm_rd (d : ArmDir) (s : State) : (driveArm d s).rd = s.rd := rfl
@[simp] theorem driveArm_ch (d : ArmDir) (s : State) : (driveArm d s).ch = s.ch := rfl
@[simp] theorem driveArm_re (d : ArmDir) (s : State) :
    (driveArm d s).re = { s.re with armCh := s.re.armCh.stage 0 600, armDirS := d } := rfl
@[simp] theorem driveArm_pw (d : ArmDir) (s : State) : (driveArm d s).pw = s.pw := rfl
@[simp] theorem driveArm_mo (d : ArmDir) (s : State) : (driveArm d s).mo = s.mo := rfl
@[simp] theorem driveArm_sp (d : ArmDir) (s : State) : (driveArm d s).sp = s.sp := rfl
@[simp] theorem driveArm_he (d : ArmDir) (s : State) : (driveArm d s).he = s.he := rfl
@[simp] theorem driveArm_li (d : ArmDir) (s : State) : (driveArm d s).li = s.li := rfl
@[simp] theorem driveArm_frees (d : ArmDir) (s : State) : (driveArm d s).frees = s.frees := rfl
@[simp] theorem driveArm_pending (d : ArmDir) (s : State) : (driveArm d s).pending = s.pending := rfl

/-! ### `stopArm` -/

@[simp] theorem stopArm_mem (s : State) : (stopArm s).mem = s.mem := rfl
@[simp] theorem stopArm_bp (s : State) : (stopArm s).bp = s.bp := rfl
@[simp] theorem stopArm_ci (s : State) : (stopArm s).ci = s.ci := rfl
@[simp] theorem stopArm_cq (s : State) : (stopArm s).cq = s.cq := rfl
@[simp] theorem stopArm_ri (s : State) : (stopArm s).ri = s.ri := rfl
@[simp] theorem stopArm_sm (s : State) : (stopArm s).sm = s.sm := rfl
@[simp] theorem stopArm_wr (s : State) : (stopArm s).wr = s.wr := rfl
@[simp] theorem stopArm_rd (s : State) : (stopArm s).rd = s.rd := rfl
@[simp] theorem stopArm_ch (s : State) : (stopArm s).ch = s.ch := rfl
@[simp] theorem stopArm_re (s : State) : (stopArm s).re = { s.re with armCh := s.re.armCh.stage 0 0 } := rfl
@[simp] theorem stopArm_pw (s : State) : (stopArm s).pw = s.pw := rfl
@[simp] theorem stopArm_mo (s : State) : (stopArm s).mo = s.mo := rfl
@[simp] theorem stopArm_sp (s : State) : (stopArm s).sp = s.sp := rfl
@[simp] theorem stopArm_he (s : State) : (stopArm s).he = s.he := rfl
@[simp] theorem stopArm_li (s : State) : (stopArm s).li = s.li := rfl
@[simp] theorem stopArm_frees (s : State) : (stopArm s).frees = s.frees := rfl
@[simp] theorem stopArm_pending (s : State) : (stopArm s).pending = s.pending := rfl

/-! ### `stopWatch` -/

@[simp] theorem stopWatch_mem (s : State) : (stopWatch s).mem = s.mem := rfl
@[simp] theorem stopWatch_bp (s : State) :
    (stopWatch s).bp = { s.bp with watch := false, release := frontier s, rl := 0, spans := [] } := rfl
@[simp] theorem stopWatch_ci (s : State) : (stopWatch s).ci = s.ci := rfl
@[simp] theorem stopWatch_cq (s : State) : (stopWatch s).cq = s.cq := rfl
@[simp] theorem stopWatch_ri (s : State) : (stopWatch s).ri = s.ri := rfl
@[simp] theorem stopWatch_sm (s : State) : (stopWatch s).sm = s.sm := rfl
@[simp] theorem stopWatch_wr (s : State) : (stopWatch s).wr = s.wr := rfl
@[simp] theorem stopWatch_rd (s : State) : (stopWatch s).rd = s.rd := rfl
@[simp] theorem stopWatch_ch (s : State) : (stopWatch s).ch = s.ch := rfl
@[simp] theorem stopWatch_re (s : State) : (stopWatch s).re = s.re := rfl
@[simp] theorem stopWatch_pw (s : State) : (stopWatch s).pw = s.pw := rfl
@[simp] theorem stopWatch_mo (s : State) : (stopWatch s).mo = s.mo := rfl
@[simp] theorem stopWatch_sp (s : State) : (stopWatch s).sp = s.sp := rfl
@[simp] theorem stopWatch_he (s : State) : (stopWatch s).he = s.he := rfl
@[simp] theorem stopWatch_li (s : State) : (stopWatch s).li = s.li := rfl
@[simp] theorem stopWatch_frees (s : State) : (stopWatch s).frees = s.frees := rfl
@[simp] theorem stopWatch_pending (s : State) : (stopWatch s).pending = s.pending := rfl

/-! ### `stopIntake` -/

@[simp] theorem stopIntake_mem (s : State) : (stopIntake s).mem = s.mem := rfl
@[simp] theorem stopIntake_bp (s : State) :
    (stopIntake s).bp = { s.bp with reqs := s.bp.reqs.map (Req.forget .chunkFetch) } := rfl
@[simp] theorem stopIntake_ci (s : State) : (stopIntake s).ci = s.ci := rfl
@[simp] theorem stopIntake_cq (s : State) : (stopIntake s).cq = s.cq := rfl
@[simp] theorem stopIntake_ri (s : State) :
    (stopIntake s).ri = { s.ri with st := .idle, item := none, raw := [], hdr := [], chunkBuf := [], cur := none, sealReq := false, padOwed := 0, fetched := none, marker := none, refetched := [] } := rfl
@[simp] theorem stopIntake_sm (s : State) : (stopIntake s).sm = s.sm := rfl
@[simp] theorem stopIntake_wr (s : State) : (stopIntake s).wr = s.wr := rfl
@[simp] theorem stopIntake_rd (s : State) : (stopIntake s).rd = s.rd := rfl
@[simp] theorem stopIntake_ch (s : State) : (stopIntake s).ch = s.ch := rfl
@[simp] theorem stopIntake_re (s : State) : (stopIntake s).re = s.re := rfl
@[simp] theorem stopIntake_pw (s : State) : (stopIntake s).pw = s.pw := rfl
@[simp] theorem stopIntake_mo (s : State) : (stopIntake s).mo = s.mo := rfl
@[simp] theorem stopIntake_sp (s : State) : (stopIntake s).sp = s.sp := rfl
@[simp] theorem stopIntake_he (s : State) : (stopIntake s).he = s.he := rfl
@[simp] theorem stopIntake_li (s : State) : (stopIntake s).li = s.li := rfl
@[simp] theorem stopIntake_frees (s : State) : (stopIntake s).frees = s.frees := rfl
@[simp] theorem stopIntake_pending (s : State) : (stopIntake s).pending = s.pending := rfl

/-! ### `dropWriter` -/

@[simp] theorem dropWriter_mem (s : State) : (dropWriter s).mem = s.mem := rfl
@[simp] theorem dropWriter_bp (s : State) : (dropWriter s).bp = s.bp := rfl
@[simp] theorem dropWriter_ci (s : State) : (dropWriter s).ci = s.ci := rfl
@[simp] theorem dropWriter_cq (s : State) : (dropWriter s).cq = s.cq := rfl
@[simp] theorem dropWriter_ri (s : State) : (dropWriter s).ri = s.ri := rfl
@[simp] theorem dropWriter_sm (s : State) : (dropWriter s).sm = s.sm := rfl
@[simp] theorem dropWriter_wr (s : State) :
    (dropWriter s).wr = { s.wr with verifyQ := [], rewriteQ := [], tx := none, heldF0 := none, turnWait := false, skipStart := none, abandon := none } := rfl
@[simp] theorem dropWriter_rd (s : State) : (dropWriter s).rd = s.rd := rfl
@[simp] theorem dropWriter_ch (s : State) : (dropWriter s).ch = s.ch := rfl
@[simp] theorem dropWriter_re (s : State) : (dropWriter s).re = s.re := rfl
@[simp] theorem dropWriter_pw (s : State) : (dropWriter s).pw = s.pw := rfl
@[simp] theorem dropWriter_mo (s : State) : (dropWriter s).mo = { s.mo with bandTo := none } := rfl
@[simp] theorem dropWriter_sp (s : State) : (dropWriter s).sp = s.sp := rfl
@[simp] theorem dropWriter_he (s : State) : (dropWriter s).he = s.he := rfl
@[simp] theorem dropWriter_li (s : State) : (dropWriter s).li = s.li := rfl
@[simp] theorem dropWriter_frees (s : State) : (dropWriter s).frees = s.frees := rfl
@[simp] theorem dropWriter_pending (s : State) : (dropWriter s).pending = s.pending := rfl

/-! ### `stopSpeed` -/

@[simp] theorem stopSpeed_mem (s : State) : (stopSpeed s).mem = s.mem := rfl
@[simp] theorem stopSpeed_bp (s : State) : (stopSpeed s).bp = s.bp := rfl
@[simp] theorem stopSpeed_ci (s : State) : (stopSpeed s).ci = s.ci := rfl
@[simp] theorem stopSpeed_cq (s : State) : (stopSpeed s).cq = s.cq := rfl
@[simp] theorem stopSpeed_ri (s : State) : (stopSpeed s).ri = s.ri := rfl
@[simp] theorem stopSpeed_sm (s : State) : (stopSpeed s).sm = s.sm := rfl
@[simp] theorem stopSpeed_wr (s : State) : (stopSpeed s).wr = s.wr := rfl
@[simp] theorem stopSpeed_rd (s : State) : (stopSpeed s).rd = s.rd := rfl
@[simp] theorem stopSpeed_ch (s : State) : (stopSpeed s).ch = s.ch := rfl
@[simp] theorem stopSpeed_re (s : State) : (stopSpeed s).re = s.re := rfl
@[simp] theorem stopSpeed_pw (s : State) : (stopSpeed s).pw = s.pw := rfl
@[simp] theorem stopSpeed_mo (s : State) : (stopSpeed s).mo = s.mo := rfl
@[simp] theorem stopSpeed_sp (s : State) :
    (stopSpeed s).sp = { s.sp with timer := false, dwellOn := false, dwellCount := 0 } := rfl
@[simp] theorem stopSpeed_he (s : State) : (stopSpeed s).he = s.he := rfl
@[simp] theorem stopSpeed_li (s : State) : (stopSpeed s).li = s.li := rfl
@[simp] theorem stopSpeed_frees (s : State) : (stopSpeed s).frees = s.frees := rfl
@[simp] theorem stopSpeed_pending (s : State) : (stopSpeed s).pending = s.pending := rfl

/-! ### `nextSlot` -/

@[simp] theorem nextSlot_mem (s : State) : (nextSlot s).mem = s.mem := rfl
@[simp] theorem nextSlot_bp (s : State) : (nextSlot s).bp = s.bp := rfl
@[simp] theorem nextSlot_ci (s : State) : (nextSlot s).ci = s.ci := rfl
@[simp] theorem nextSlot_cq (s : State) : (nextSlot s).cq = s.cq := rfl
@[simp] theorem nextSlot_ri (s : State) : (nextSlot s).ri = s.ri := rfl
@[simp] theorem nextSlot_sm (s : State) : (nextSlot s).sm = s.sm := rfl
@[simp] theorem nextSlot_wr (s : State) : (nextSlot s).wr = s.wr := rfl
@[simp] theorem nextSlot_rd (s : State) : (nextSlot s).rd = s.rd := rfl
@[simp] theorem nextSlot_ch (s : State) : (nextSlot s).ch = s.ch := rfl
@[simp] theorem nextSlot_re (s : State) : (nextSlot s).re = s.re := rfl
@[simp] theorem nextSlot_pw (s : State) : (nextSlot s).pw = s.pw := rfl
@[simp] theorem nextSlot_mo (s : State) :
    (nextSlot s).mo = { s.mo with planned := ahead s.mo.pass s.mo.planned Config.pitch } := rfl
@[simp] theorem nextSlot_sp (s : State) : (nextSlot s).sp = s.sp := rfl
@[simp] theorem nextSlot_he (s : State) : (nextSlot s).he = s.he := rfl
@[simp] theorem nextSlot_li (s : State) : (nextSlot s).li = s.li := rfl
@[simp] theorem nextSlot_frees (s : State) : (nextSlot s).frees = s.frees := rfl
@[simp] theorem nextSlot_pending (s : State) : (nextSlot s).pending = s.pending := rfl

/-! ### `lineMoves` -/

@[simp] theorem lineMoves_mem (s : State) : (lineMoves s).mem = s.mem := rfl
@[simp] theorem lineMoves_bp (s : State) : (lineMoves s).bp = s.bp := rfl
@[simp] theorem lineMoves_ci (s : State) : (lineMoves s).ci = s.ci := rfl
@[simp] theorem lineMoves_cq (s : State) : (lineMoves s).cq = s.cq := rfl
@[simp] theorem lineMoves_ri (s : State) : (lineMoves s).ri = s.ri := rfl
@[simp] theorem lineMoves_sm (s : State) : (lineMoves s).sm = s.sm := rfl
@[simp] theorem lineMoves_wr (s : State) : (lineMoves s).wr = s.wr := rfl
@[simp] theorem lineMoves_rd (s : State) : (lineMoves s).rd = s.rd := rfl
@[simp] theorem lineMoves_ch (s : State) : (lineMoves s).ch = s.ch := rfl
@[simp] theorem lineMoves_re (s : State) : (lineMoves s).re = s.re := rfl
@[simp] theorem lineMoves_pw (s : State) : (lineMoves s).pw = s.pw := rfl
@[simp] theorem lineMoves_mo (s : State) : (lineMoves s).mo = s.mo := rfl
@[simp] theorem lineMoves_sp (s : State) : (lineMoves s).sp = s.sp := rfl
@[simp] theorem lineMoves_he (s : State) : (lineMoves s).he = s.he := rfl
@[simp] theorem lineMoves_li (s : State) : (lineMoves s).li = { s.li with active := true, idleTimer := true } := rfl
@[simp] theorem lineMoves_frees (s : State) : (lineMoves s).frees = s.frees := rfl
@[simp] theorem lineMoves_pending (s : State) : (lineMoves s).pending = s.pending := rfl

/-! ### `endTransaction` -/

@[simp] theorem endTransaction_mem (s : State) : (endTransaction s).mem = s.mem := rfl
@[simp] theorem endTransaction_bp (s : State) : (endTransaction s).bp = s.bp := rfl
@[simp] theorem endTransaction_ci (s : State) : (endTransaction s).ci = s.ci := rfl
@[simp] theorem endTransaction_cq (s : State) : (endTransaction s).cq = s.cq := rfl
@[simp] theorem endTransaction_ri (s : State) : (endTransaction s).ri = s.ri := rfl
@[simp] theorem endTransaction_sm (s : State) : (endTransaction s).sm = s.sm := rfl
@[simp] theorem endTransaction_wr (s : State) : (endTransaction s).wr = s.wr := rfl
@[simp] theorem endTransaction_rd (s : State) : (endTransaction s).rd = s.rd := rfl
@[simp] theorem endTransaction_ch (s : State) : (endTransaction s).ch = s.ch := rfl
@[simp] theorem endTransaction_re (s : State) : (endTransaction s).re = s.re := rfl
@[simp] theorem endTransaction_pw (s : State) : (endTransaction s).pw = s.pw := rfl
@[simp] theorem endTransaction_mo (s : State) : (endTransaction s).mo = s.mo := rfl
@[simp] theorem endTransaction_sp (s : State) : (endTransaction s).sp = s.sp := rfl
@[simp] theorem endTransaction_he (s : State) : (endTransaction s).he = s.he := rfl
@[simp] theorem endTransaction_li (s : State) :
    (endTransaction s).li = { s.li with phase := .awaitAttention, bitTime := none, tx := [], copied := false } := rfl
@[simp] theorem endTransaction_frees (s : State) : (endTransaction s).frees = s.frees := rfl
@[simp] theorem endTransaction_pending (s : State) : (endTransaction s).pending = s.pending := rfl

/-! ### `reelsZero` -/

@[simp] theorem reelsZero_mem (s : State) : (s.reelsZero).mem = s.mem := rfl
@[simp] theorem reelsZero_bp (s : State) : (s.reelsZero).bp = s.bp := rfl
@[simp] theorem reelsZero_ci (s : State) : (s.reelsZero).ci = s.ci := rfl
@[simp] theorem reelsZero_cq (s : State) : (s.reelsZero).cq = s.cq := rfl
@[simp] theorem reelsZero_ri (s : State) : (s.reelsZero).ri = s.ri := rfl
@[simp] theorem reelsZero_sm (s : State) : (s.reelsZero).sm = s.sm := rfl
@[simp] theorem reelsZero_wr (s : State) : (s.reelsZero).wr = s.wr := rfl
@[simp] theorem reelsZero_rd (s : State) : (s.reelsZero).rd = s.rd := rfl
@[simp] theorem reelsZero_ch (s : State) : (s.reelsZero).ch = s.ch := rfl
@[simp] theorem reelsZero_re (s : State) :
    (s.reelsZero).re = { s.re with sup := s.re.sup.stage 0 0, tak := s.re.tak.stage 0 0 } := rfl
@[simp] theorem reelsZero_pw (s : State) : (s.reelsZero).pw = s.pw := rfl
@[simp] theorem reelsZero_mo (s : State) : (s.reelsZero).mo = s.mo := rfl
@[simp] theorem reelsZero_sp (s : State) : (s.reelsZero).sp = s.sp := rfl
@[simp] theorem reelsZero_he (s : State) : (s.reelsZero).he = s.he := rfl
@[simp] theorem reelsZero_li (s : State) : (s.reelsZero).li = s.li := rfl
@[simp] theorem reelsZero_frees (s : State) : (s.reelsZero).frees = s.frees := rfl
@[simp] theorem reelsZero_pending (s : State) : (s.reelsZero).pending = s.pending := rfl

/-! ### `lost` -/

@[simp] theorem lost_mem (s : State) : (s.lost).mem = s.mem := rfl
@[simp] theorem lost_bp (s : State) : (s.lost).bp = s.bp := rfl
@[simp] theorem lost_ci (s : State) : (s.lost).ci = s.ci := rfl
@[simp] theorem lost_cq (s : State) : (s.lost).cq = s.cq := rfl
@[simp] theorem lost_ri (s : State) : (s.lost).ri = s.ri := rfl
@[simp] theorem lost_sm (s : State) : (s.lost).sm = s.sm := rfl
@[simp] theorem lost_wr (s : State) : (s.lost).wr = s.wr := rfl
@[simp] theorem lost_rd (s : State) : (s.lost).rd = { s.rd with start := none } := rfl
@[simp] theorem lost_ch (s : State) : (s.lost).ch = s.ch := rfl
@[simp] theorem lost_re (s : State) : (s.lost).re = s.re := rfl
@[simp] theorem lost_pw (s : State) : (s.lost).pw = s.pw := rfl
@[simp] theorem lost_mo (s : State) : (s.lost).mo = { s.mo with quality := .unknown, lp := none, stands := none } := rfl
@[simp] theorem lost_sp (s : State) : (s.lost).sp = s.sp := rfl
@[simp] theorem lost_he (s : State) : (s.lost).he = s.he := rfl
@[simp] theorem lost_li (s : State) : (s.lost).li = s.li := rfl
@[simp] theorem lost_frees (s : State) : (s.lost).frees = s.frees := rfl
@[simp] theorem lost_pending (s : State) : (s.lost).pending = s.pending := rfl

/-! ### `forgetAll` -/

@[simp] theorem forgetAll_mem (p : Purpose) (s : State) : (forgetAll p s).mem = s.mem := rfl
@[simp] theorem forgetAll_bp (p : Purpose) (s : State) :
    (forgetAll p s).bp = { s.bp with reqs := s.bp.reqs.map (Req.forget p) } := rfl
@[simp] theorem forgetAll_ci (p : Purpose) (s : State) : (forgetAll p s).ci = s.ci := rfl
@[simp] theorem forgetAll_cq (p : Purpose) (s : State) : (forgetAll p s).cq = s.cq := rfl
@[simp] theorem forgetAll_ri (p : Purpose) (s : State) : (forgetAll p s).ri = s.ri := rfl
@[simp] theorem forgetAll_sm (p : Purpose) (s : State) : (forgetAll p s).sm = s.sm := rfl
@[simp] theorem forgetAll_wr (p : Purpose) (s : State) : (forgetAll p s).wr = s.wr := rfl
@[simp] theorem forgetAll_rd (p : Purpose) (s : State) : (forgetAll p s).rd = s.rd := rfl
@[simp] theorem forgetAll_ch (p : Purpose) (s : State) : (forgetAll p s).ch = s.ch := rfl
@[simp] theorem forgetAll_re (p : Purpose) (s : State) : (forgetAll p s).re = s.re := rfl
@[simp] theorem forgetAll_pw (p : Purpose) (s : State) : (forgetAll p s).pw = s.pw := rfl
@[simp] theorem forgetAll_mo (p : Purpose) (s : State) : (forgetAll p s).mo = s.mo := rfl
@[simp] theorem forgetAll_sp (p : Purpose) (s : State) : (forgetAll p s).sp = s.sp := rfl
@[simp] theorem forgetAll_he (p : Purpose) (s : State) : (forgetAll p s).he = s.he := rfl
@[simp] theorem forgetAll_li (p : Purpose) (s : State) : (forgetAll p s).li = s.li := rfl
@[simp] theorem forgetAll_frees (p : Purpose) (s : State) : (forgetAll p s).frees = s.frees := rfl
@[simp] theorem forgetAll_pending (p : Purpose) (s : State) : (forgetAll p s).pending = s.pending := rfl

/-! ### `fillWindow` -/

@[simp] theorem fillWindow_mem (s : State) : (fillWindow s).mem = s.mem := rfl
@[simp] theorem fillWindow_bp (s : State) : (fillWindow s).bp = s.bp := rfl
@[simp] theorem fillWindow_ci (s : State) : (fillWindow s).ci = s.ci := rfl
@[simp] theorem fillWindow_cq (s : State) : (fillWindow s).cq = s.cq := rfl
@[simp] theorem fillWindow_ri (s : State) : (fillWindow s).ri = s.ri := rfl
@[simp] theorem fillWindow_sm (s : State) : (fillWindow s).sm = s.sm := rfl
@[simp] theorem fillWindow_wr (s : State) : (fillWindow s).wr = s.wr := rfl
@[simp] theorem fillWindow_rd (s : State) : (fillWindow s).rd = s.rd := rfl
@[simp] theorem fillWindow_ch (s : State) : (fillWindow s).ch = s.ch := rfl
@[simp] theorem fillWindow_re (s : State) : (fillWindow s).re = { s.re with window := s.re.window.map (fun _ => s.re.input) } := rfl
@[simp] theorem fillWindow_pw (s : State) : (fillWindow s).pw = s.pw := rfl
@[simp] theorem fillWindow_mo (s : State) : (fillWindow s).mo = s.mo := rfl
@[simp] theorem fillWindow_sp (s : State) : (fillWindow s).sp = s.sp := rfl
@[simp] theorem fillWindow_he (s : State) : (fillWindow s).he = s.he := rfl
@[simp] theorem fillWindow_li (s : State) : (fillWindow s).li = s.li := rfl
@[simp] theorem fillWindow_frees (s : State) : (fillWindow s).frees = s.frees := rfl
@[simp] theorem fillWindow_pending (s : State) : (fillWindow s).pending = s.pending := rfl

/-! ### `openWindow` -/

@[simp] theorem openWindow_mem (s : State) : (openWindow s).mem = s.mem := rfl
@[simp] theorem openWindow_bp (s : State) : (openWindow s).bp = s.bp := rfl
@[simp] theorem openWindow_ci (s : State) : (openWindow s).ci = s.ci := rfl
@[simp] theorem openWindow_cq (s : State) : (openWindow s).cq = s.cq := rfl
@[simp] theorem openWindow_ri (s : State) : (openWindow s).ri = s.ri := rfl
@[simp] theorem openWindow_sm (s : State) : (openWindow s).sm = s.sm := rfl
@[simp] theorem openWindow_wr (s : State) : (openWindow s).wr = s.wr := rfl
@[simp] theorem openWindow_rd (s : State) : (openWindow s).rd = s.rd := rfl
@[simp] theorem openWindow_ch (s : State) : (openWindow s).ch = s.ch := rfl
@[simp] theorem openWindow_re (s : State) : (openWindow s).re = { s.re with window := [], scanDue := false } := rfl
@[simp] theorem openWindow_pw (s : State) : (openWindow s).pw = s.pw := rfl
@[simp] theorem openWindow_mo (s : State) : (openWindow s).mo = s.mo := rfl
@[simp] theorem openWindow_sp (s : State) : (openWindow s).sp = s.sp := rfl
@[simp] theorem openWindow_he (s : State) : (openWindow s).he = s.he := rfl
@[simp] theorem openWindow_li (s : State) : (openWindow s).li = s.li := rfl
@[simp] theorem openWindow_frees (s : State) : (openWindow s).frees = s.frees := rfl
@[simp] theorem openWindow_pending (s : State) : (openWindow s).pending = s.pending := rfl

/-! ### `positionInput` -/

@[simp] theorem positionInput_mem (n : Int) (s : State) : (positionInput n s).mem = s.mem := rfl
@[simp] theorem positionInput_bp (n : Int) (s : State) : (positionInput n s).bp = s.bp := rfl
@[simp] theorem positionInput_ci (n : Int) (s : State) : (positionInput n s).ci = s.ci := rfl
@[simp] theorem positionInput_cq (n : Int) (s : State) : (positionInput n s).cq = s.cq := rfl
@[simp] theorem positionInput_ri (n : Int) (s : State) : (positionInput n s).ri = s.ri := rfl
@[simp] theorem positionInput_sm (n : Int) (s : State) : (positionInput n s).sm = s.sm := rfl
@[simp] theorem positionInput_wr (n : Int) (s : State) : (positionInput n s).wr = s.wr := rfl
@[simp] theorem positionInput_rd (n : Int) (s : State) : (positionInput n s).rd = s.rd := rfl
@[simp] theorem positionInput_ch (n : Int) (s : State) : (positionInput n s).ch = s.ch := rfl
@[simp] theorem positionInput_re (n : Int) (s : State) :
    (positionInput n s).re = { s.re with input := n, window := List.replicate 33 n } := rfl
@[simp] theorem positionInput_pw (n : Int) (s : State) : (positionInput n s).pw = s.pw := rfl
@[simp] theorem positionInput_mo (n : Int) (s : State) : (positionInput n s).mo = s.mo := rfl
@[simp] theorem positionInput_sp (n : Int) (s : State) : (positionInput n s).sp = s.sp := rfl
@[simp] theorem positionInput_he (n : Int) (s : State) : (positionInput n s).he = s.he := rfl
@[simp] theorem positionInput_li (n : Int) (s : State) : (positionInput n s).li = s.li := rfl
@[simp] theorem positionInput_frees (n : Int) (s : State) : (positionInput n s).frees = s.frees := rfl
@[simp] theorem positionInput_pending (n : Int) (s : State) : (positionInput n s).pending = s.pending := rfl

/-! ### `carryMovement` -/

@[simp] theorem carryMovement_mem (d : Int) (s : State) : (carryMovement d s).mem = s.mem := rfl
@[simp] theorem carryMovement_bp (d : Int) (s : State) : (carryMovement d s).bp = s.bp := rfl
@[simp] theorem carryMovement_ci (d : Int) (s : State) : (carryMovement d s).ci = s.ci := rfl
@[simp] theorem carryMovement_cq (d : Int) (s : State) : (carryMovement d s).cq = s.cq := rfl
@[simp] theorem carryMovement_ri (d : Int) (s : State) : (carryMovement d s).ri = s.ri := rfl
@[simp] theorem carryMovement_sm (d : Int) (s : State) : (carryMovement d s).sm = s.sm := rfl
@[simp] theorem carryMovement_wr (d : Int) (s : State) : (carryMovement d s).wr = s.wr := rfl
@[simp] theorem carryMovement_rd (d : Int) (s : State) : (carryMovement d s).rd = s.rd := rfl
@[simp] theorem carryMovement_ch (d : Int) (s : State) : (carryMovement d s).ch = s.ch := rfl
@[simp] theorem carryMovement_re (d : Int) (s : State) : (carryMovement d s).re = s.re := rfl
@[simp] theorem carryMovement_pw (d : Int) (s : State) : (carryMovement d s).pw = s.pw := rfl
@[simp] theorem carryMovement_mo (d : Int) (s : State) :
    (carryMovement d s).mo = { s.mo with meter := if s.ch.tape then s.mo.meter + d.natAbs else s.mo.meter } := rfl
@[simp] theorem carryMovement_sp (d : Int) (s : State) : (carryMovement d s).sp = s.sp := rfl
@[simp] theorem carryMovement_he (d : Int) (s : State) :
    (carryMovement d s).he = { s.he with cleanDist := s.he.cleanDist.map (· + d) } := rfl
@[simp] theorem carryMovement_li (d : Int) (s : State) : (carryMovement d s).li = s.li := rfl
@[simp] theorem carryMovement_frees (d : Int) (s : State) : (carryMovement d s).frees = s.frees := rfl
@[simp] theorem carryMovement_pending (d : Int) (s : State) : (carryMovement d s).pending = s.pending := rfl

/-! ### `unmoved` -/

@[simp] theorem unmoved_mem (s : State) : (s.unmoved).mem = s.mem := rfl
@[simp] theorem unmoved_bp (s : State) : (s.unmoved).bp = s.bp := rfl
@[simp] theorem unmoved_ci (s : State) : (s.unmoved).ci = s.ci := rfl
@[simp] theorem unmoved_cq (s : State) : (s.unmoved).cq = s.cq := rfl
@[simp] theorem unmoved_ri (s : State) : (s.unmoved).ri = s.ri := rfl
@[simp] theorem unmoved_sm (s : State) : (s.unmoved).sm = s.sm := rfl
@[simp] theorem unmoved_wr (s : State) : (s.unmoved).wr = s.wr := rfl
@[simp] theorem unmoved_rd (s : State) : (s.unmoved).rd = s.rd := rfl
@[simp] theorem unmoved_ch (s : State) : (s.unmoved).ch = s.ch := rfl
@[simp] theorem unmoved_re (s : State) : (s.unmoved).re = { s.re with exc := 0, excDue := false } := rfl
@[simp] theorem unmoved_pw (s : State) : (s.unmoved).pw = s.pw := rfl
@[simp] theorem unmoved_mo (s : State) :
    (s.unmoved).mo = { s.mo with
      mode := none, into := none, stopping := false, passWait := false, legs := [], goal := .none, bandTo := none, v := 0, dest := 0,
      pend := [], mask := false, wait := .none, savedLegs := [], savedGoal := .none, redirect := false, skipResume := false,
      recT := Config.tStream } := rfl
@[simp] theorem unmoved_sp (s : State) : (s.unmoved).sp = s.sp := rfl
@[simp] theorem unmoved_he (s : State) : (s.unmoved).he = s.he := rfl
@[simp] theorem unmoved_li (s : State) : (s.unmoved).li = s.li := rfl
@[simp] theorem unmoved_frees (s : State) : (s.unmoved).frees = s.frees := rfl
@[simp] theorem unmoved_pending (s : State) : (s.unmoved).pending = s.pending := rfl

/-! ### `moved` -/

@[simp] theorem moved_mem (t : Transport) (s : State) : (s.moved t).mem = s.mem := rfl
@[simp] theorem moved_bp (t : Transport) (s : State) : (s.moved t).bp = s.bp := rfl
@[simp] theorem moved_ci (t : Transport) (s : State) : (s.moved t).ci = s.ci := rfl
@[simp] theorem moved_cq (t : Transport) (s : State) : (s.moved t).cq = s.cq := rfl
@[simp] theorem moved_ri (t : Transport) (s : State) : (s.moved t).ri = s.ri := rfl
@[simp] theorem moved_sm (t : Transport) (s : State) : (s.moved t).sm = s.sm := rfl
@[simp] theorem moved_wr (t : Transport) (s : State) : (s.moved t).wr = s.wr := rfl
@[simp] theorem moved_rd (t : Transport) (s : State) : (s.moved t).rd = s.rd := rfl
@[simp] theorem moved_ch (t : Transport) (s : State) : (s.moved t).ch = { s.ch with transport := t } := rfl
@[simp] theorem moved_re (t : Transport) (s : State) : (s.moved t).re = s.re := rfl
@[simp] theorem moved_pw (t : Transport) (s : State) : (s.moved t).pw = { s.pw with dwell := false, settling := false } := rfl
@[simp] theorem moved_mo (t : Transport) (s : State) : (s.moved t).mo = { s.mo with reacquire := false, passWait := false } := rfl
@[simp] theorem moved_sp (t : Transport) (s : State) : (s.moved t).sp = s.sp := rfl
@[simp] theorem moved_he (t : Transport) (s : State) : (s.moved t).he = { s.he with tick := tickRuns t } := rfl
@[simp] theorem moved_li (t : Transport) (s : State) : (s.moved t).li = s.li := rfl
@[simp] theorem moved_frees (t : Transport) (s : State) : (s.moved t).frees = s.frees := rfl
@[simp] theorem moved_pending (t : Transport) (s : State) : (s.moved t).pending = s.pending := rfl

end Sys2Proof.Machine
end

