-- ==== Sys2Proof/Tests/Slice0.lean ====
section
/-! SUPPORT. Tests. First, for every statement of Obligations.lean that has hypotheses, concrete states and operands that meet them
together (`witness_<Statement>`, with `_<part>` where a statement has several parts; where its clauses exclude each other, one state
for each); then what the well-formedness check refuses, what decoding answers, and the worked examples of the spec. -/

open Sys2Proof Sys2Proof.Machine

namespace Sys2Proof.Tests

set_option Elab.async false

def L0 : Layout :=
  { serial := 7, driveId := List.replicate 8 1, cmdBase := 4096, k := 16, compBase := 8192, n := 32, consumer := 12288,
    stBase := 1048576, z := 1048576, dlBase := 2097152, zd := 1048576, segBase := 4194304, s := 8, cartBase := 16384,
    histBase := 32768, ctxBase := 40960 }
def s0 : State :=
  { State.reset with
    bp.layout := some L0, sm.slots := List.replicate 8 (freshSlot .free 0), sm.free := List.range 8,
    bp.acks.controlProcessor := 5, cq.p := 3, cq.c := 1, re.dt := 17, mo.count := 4000, re.supDirS := .reverse,
    re.sup := { rise := 100, fall := 500, sRise := 10, sFall := 20, flag := false }, mo.quality := .estimated, mo.lp := some 5,
    mo.meter := 7, he.clean := .advised, ch.attempt := 2, rd.start := some { pos := { pass := 0, count := 9}, seg := 4 },
    mo.stands := some {pass := 0, count := 3}, sp.policy.highMark := 4 }
def hb (n : Nat) : List Byte := (List.range n).map byteOf
def ob (bs : List Byte) : List (Option Byte) := bs.map some
def at_ (t : Transport) (st : Option Step) : State :=
  { s0 with
    ch.transport := t, ch.step := st, ch.activityAt := (t, none), ch.seat := true, re.settle := 20, re.exc := 3, ch.attempt := 1,
    re.window := List.replicate 33 4, re.input := 4 }
/-- Slot k stands as x, and is off the free list. -/
def putSlot (k : Nat) (x : Slot) (s : State) : State := { s with sm.slots := s.sm.slots.set k x, sm.free := s.sm.free.filter (fun j => decide (j ≠ k)) }
def fw1 : FrontWrite := { master := .interfaceController, addr := 1048576, data := [some 1] }
def nt (s : State) : State := { s with re.tstar := tStar s, ch.activityAt := (s.ch.transport, s.mo.mode) }

namespace Loading

def ld (t : Transport) : State :=
  { at_ t (some .pinCapture) with
    ch.hub := true, he.clean := .ok, ci.transport := runningNow { tag := 7, op := .load }, re.limTak := 4, re.degTak := true,
    re.excDue := true }
def lossy (t : Transport) : State := nt
  { at_ t none with
    ch.tape := true, pw.dwell := true, pw.waiters := [.read], ch.recordHeld := true, mo.recT := 8, mo.passWait := true }
def cartD (kind gen : Nat) : List Byte := cartImage
  { blankCart with
    gen := gen, cleaning := decide (kind = 2), uses := if kind = 2 then 50 else 0 }
def un (x : Step) : State := nt
  { at_ .unloading (some x) with
    ci.transport := runningNow { tag := 9, op := .unload false }, he.clean := .ok, re.armDirS := .towardPull, ch.hub := true,
    ch.pin := true, ch.recordHeld := true, ch.arm := 3000 }

theorem witness_SeatSensor :
    (s0.ch.transport = .empty ∧ s0.ch.settlePending = false ∧ unthreaded s0 = true ∧ s0.pw.seatW = false ∧
     s0.pw.seatN = false ∧ (s0.ch.transport = .empty ∨ s0.ch.transport = .faulted ∧ s0.ch.tape = true)) ∧
    (let s : State := { s0 with ch.transport := .seated, ch.seat := true, ch.tab := some .isWritable, li.unloadRefused := true }
     s.ch.transport ≠ .empty ∧ s.ch.transport = .seated ∧ unthreaded s = true ∧ cqOpen s = true) ∧
    (let s : State := { s0 with pw.seatN := true }
     s.ch.transport = .empty ∧ s.ch.settlePending = false ∧ unthreaded s = true ∧ s.pw.seatW = false ∧ s.pw.seatN = true ∧
     cqOpen s = true) ∧
    (let s : State := { at_ .faulted none with re.exc := 0, he.cleanDist := some 3 }
     s.ch.transport = .faulted ∧ s.ch.tape = false ∧ s.ch.step = none ∧ s.re.limSup = 0 ∧ s.re.limTak = 0 ∧ s.re.exc = 0 ∧
     s.re.excDue = false ∧ s.re.stall = 0 ∧ s.re.stallDue = false ∧ cqOpen s = true) ∧
    (let s : State := ld .loading
     s.ch.transport = .loading ∧ s.ch.tape = false ∧ s.ch.step ≠ some .eject ∧ quiet s = true ∧ s.he.clean ≠ .cleaning ∧
     s.ci.transport = runningNow { tag := 7, op := .load } ∧ s.pw.cancelled ≠ some .transport ∧ s.cq.waiting = [] ∧
     s.cq.queue.length < 7) := by
  refine ⟨?_, ?_, ?_, ?_, ?_⟩ <;> decide +kernel

theorem witness_LossEntersFaulted :
    let s : State := lossy .ready
    (s.ch.transport = .ready ∨ s.ch.transport = .parked ∨ s.ch.transport = .unpositioned) ∧ noOperations s = true ∧
    quiet s = true ∧ s.mo.stack = [] ∧ s.ch.step = none := by decide +kernel

theorem witness_LoadBegins :
    (let s : State := { at_ .seated none with ch.autoWaiting := true, ci.transport.pending := none }
     quiet s = true ∧ s.re.brake = false ∧ s.ch.transport = .seated ∧ s.ch.step = none ∧ s.pw.dwell = false ∧
     s.bp.layout.isSome = true ∧ s.ci.transport = Job.clear ∧ s.ch.autoWaiting = true ∧ s.ci.transport.running = none) ∧
    (let s : State := { at_ .empty none with pw.seatW := true }
     quiet s = true ∧ s.re.brake = false ∧ s.ch.transport = .empty ∧ s.ch.step = none ∧ s.ch.settlePending = false ∧
     s.pw.seatW = true ∧ s.pw.seatN = false ∧ s.ci.transport.running = none ∧ s.ch.transport ≠ .seated ∧
     dwellSteady s = true ∧ placeOpen .transport s = true) := by
  refine ⟨?_, ?_⟩ <;> decide +kernel

theorem witness_TagReadJudged :
    (let bs : List Byte := hb 5
     let s : State := at_ .loading (some (.tagRead false))
     s.bp.layout = some L0 ∧ s.ch.transport = .loading ∧ s.re.brake = false ∧ s.ch.hub = false ∧ s.ch.seat = true ∧
     calm s = true ∧ bs ≠ [] ∧ (bitAt bs 13 1 = false ∨ field bs 14 1 ≤ 50) ∧ s.ch.step = some (Step.tagRead false) ∧
     tagGood bs = false) ∧
    (let bs : List Byte := hb 5
     let s : State := at_ .loading (some (.tagRead true))
     s.bp.layout = some L0 ∧ s.ch.transport = .loading ∧ s.re.brake = false ∧ s.ch.hub = false ∧ s.ch.seat = true ∧
     calm s = true ∧ bs ≠ [] ∧ (bitAt bs 13 1 = false ∨ field bs 14 1 ≤ 50) ∧ s.ch.step = some (Step.tagRead true) ∧
     tagGood bs = false) ∧
    (let bs : List Byte := cartD 1 3
     let s : State := at_ .loading (some (.tagRead false))
     s.bp.layout = some L0 ∧ s.ch.transport = .loading ∧ s.re.brake = false ∧ s.ch.hub = false ∧ s.ch.seat = true ∧
     calm s = true ∧ bs ≠ [] ∧ (bitAt bs 13 1 = false ∨ field bs 14 1 ≤ 50) ∧
     (s.ch.step = some (Step.tagRead false) ∨ s.ch.step = some (Step.tagRead true)) ∧ tagGood bs = true ∧ field bs 8 1 = 1 ∧
     (field bs 9 1 = 3 ∨ field bs 9 1 = 2)) ∧
    (let bs : List Byte := cartD 1 1
     let s : State := at_ .loading (some (.tagRead true))
     s.bp.layout = some L0 ∧ s.ch.transport = .loading ∧ s.re.brake = false ∧ s.ch.hub = false ∧ s.ch.seat = true ∧
     calm s = true ∧ bs ≠ [] ∧ (bitAt bs 13 1 = false ∨ field bs 14 1 ≤ 50) ∧
     (s.ch.step = some (Step.tagRead false) ∨ s.ch.step = some (Step.tagRead true)) ∧ tagGood bs = true ∧ field bs 8 1 = 1 ∧
     field bs 9 1 ≠ 3 ∧ field bs 9 1 ≠ 2) ∧
    (let bs : List Byte := cartD 2 1
     let s : State := at_ .loading (some (.tagRead true))
     s.bp.layout = some L0 ∧ s.ch.transport = .loading ∧ s.re.brake = false ∧ s.ch.hub = false ∧ s.ch.seat = true ∧
     calm s = true ∧ bs ≠ [] ∧ (bitAt bs 13 1 = false ∨ field bs 14 1 ≤ 50) ∧
     (s.ch.step = some (Step.tagRead false) ∨ s.ch.step = some (Step.tagRead true)) ∧ tagGood bs = true ∧ field bs 8 1 = 2 ∧
     bitAt bs 13 1 = true ∧ field bs 14 1 = 50) := by
  simp only [tagGood, cartD, cartCheck_cartImage, Bool.true_and]
  refine ⟨?_, ?_, ?_, ?_, ?_⟩ <;> decide +kernel

theorem witness_ThreadingAdvances :
    (let s : State := at_ .loading (some .threadPull)
     s.ch.transport = .loading ∧ s.re.brake = false ∧ s.ch.step = some .threadPull ∧ 3800 ≤ 4000 ∧ s.ch.attempt < 3 ∧
     s.ch.step ≠ some .hubEngage ∧ s.ch.step ≠ some .pinCapture) ∧
    (let s : State := at_ .loading (some .hubEngage)
     s.ch.transport = .loading ∧ s.re.brake = false ∧ s.ch.step = some .hubEngage ∧ s.ch.pin = false) ∧
    (let s : State := at_ .loading (some .pinCapture)
     s.ch.transport = .loading ∧ s.re.brake = false ∧ s.ch.step = some .pinCapture) ∧
    (let s : State := at_ .loading (some .threadPull)
     s.ch.transport = .loading ∧ s.re.brake = false ∧ s.ch.step = some .threadPull ∧ 3000 < 3800) ∧
    (let s : State := { at_ .loading (some .tensionUp) with re.tstar := 1600 }
     s.ch.transport = .loading ∧ s.re.brake = false ∧ s.ch.step = some .tensionUp ∧ 16 ≤ s.re.settle ∧ s.re.tstar = tStar s ∧
     s.ch.tagUnreadable = false ∧ s.cart.cleaning = false) ∧
    (let s : State := { at_ .loading (some .tensionUp) with re.settle := 3 }
     s.ch.transport = .loading ∧ s.re.brake = false ∧ s.ch.step = some .tensionUp ∧ s.re.settle < 16) := by
  refine ⟨?_, ?_, ?_, ?_, ?_, ?_⟩ <;> decide +kernel

theorem witness_StepLimitsJudged_1 :
    (let s : State := at_ .loading (some .hubEngage)
     s.ch.transport = .loading ∧ s.re.brake = false ∧ noted s = true ∧ s.ch.giveUp = false ∧ s.ch.seat = true ∧
     1 ≤ s.ch.attempt ∧ s.he.clean ≠ .cleaning ∧ s.ch.step = some .hubEngage ∧ s.ch.attempt < 3) ∧
    (let s : State := { at_ .loading (some .hubEngage) with ch.attempt := 3 }
     s.ch.transport = .loading ∧ s.re.brake = false ∧ noted s = true ∧ s.ch.giveUp = false ∧ s.ch.seat = true ∧
     1 ≤ s.ch.attempt ∧ s.he.clean ≠ .cleaning ∧ s.ch.step = some .hubEngage ∧ s.ch.attempt = 3) ∧
    (let s : State := at_ .loading (some .pinCapture)
     s.ch.transport = .loading ∧ s.re.brake = false ∧ noted s = true ∧ s.ch.giveUp = false ∧ s.ch.seat = true ∧
     1 ≤ s.ch.attempt ∧ s.he.clean ≠ .cleaning ∧ s.ch.step = some .pinCapture ∧ s.ch.attempt < 3) ∧
    (let s : State := at_ .loading (some .armHomeForCapture)
     s.ch.transport = .loading ∧ s.re.brake = false ∧ noted s = true ∧ s.ch.giveUp = false ∧ s.ch.seat = true ∧
     1 ≤ s.ch.attempt ∧ s.he.clean ≠ .cleaning ∧ s.ch.step = some .armHomeForCapture ∧ s.ch.attempt < 3) ∧
    (let s : State := { at_ .loading (some .armHomeForCapture) with ch.attempt := 3 }
     s.ch.transport = .loading ∧ s.re.brake = false ∧ noted s = true ∧ s.ch.giveUp = false ∧ s.ch.seat = true ∧
     1 ≤ s.ch.attempt ∧ s.he.clean ≠ .cleaning ∧ (s.ch.step = some .pinCapture ∨ s.ch.step = some .armHomeForCapture) ∧
     s.ch.attempt = 3) ∧
    (let s : State := nt (at_ .loading (some .threadPull))
     s.ch.transport = .loading ∧ s.re.brake = false ∧ noted s = true ∧ s.ch.giveUp = false ∧ s.ch.seat = true ∧
     1 ≤ s.ch.attempt ∧ s.he.clean ≠ .cleaning ∧ s.ch.step = some .threadPull ∧ s.ch.attempt < 3) ∧
    (let s : State := nt { at_ .loading (some .threadPull) with ch.attempt := 3 }
     s.ch.transport = .loading ∧ s.re.brake = false ∧ noted s = true ∧ s.ch.giveUp = false ∧ s.ch.seat = true ∧
     1 ≤ s.ch.attempt ∧ s.he.clean ≠ .cleaning ∧ s.ch.step = some .threadPull ∧ s.ch.attempt = 3) ∧
    (let s : State := at_ .loading (some .tensionUp)
     s.ch.transport = .loading ∧ s.re.brake = false ∧ noted s = true ∧ s.ch.giveUp = false ∧ s.ch.seat = true ∧
     1 ≤ s.ch.attempt ∧ s.he.clean ≠ .cleaning ∧ (s.ch.step = some .tensionUp ∨ s.ch.step = some .servoAcquire) ∧
     s.ch.attempt < 3) ∧
    (let s : State := at_ .loading (some .backHub)
     s.ch.transport = .loading ∧ s.re.brake = false ∧ noted s = true ∧ s.ch.giveUp = false ∧ s.ch.seat = true ∧
     1 ≤ s.ch.attempt ∧ s.he.clean ≠ .cleaning ∧
     (s.ch.step = some .backArm ∨ s.ch.step = some .backHub ∨ s.ch.step = some .eject)) := by
  refine ⟨?_, ?_, ?_, ?_, ?_, ?_, ?_, ?_, ?_⟩ <;> decide +kernel

theorem witness_StepLimitsJudged_2 :
    (let s : State := un .tagWrite
     s.ch.transport = .unloading ∧ s.ch.seat = true ∧ s.re.brake = false ∧ cqOpen s = true ∧
     s.ci.transport = runningNow { tag := 9, op := .unload false } ∧ s.ci.write = Job.clear ∧ s.ci.read = Job.clear ∧
     quiet s = true ∧ s.rd.user = none ∧ s.pw.cancelled = none ∧ s.he.clean ≠ .cleaning ∧ s.ch.step = some .tagWrite) ∧
    (let s : State := un .eject
     s.ch.transport = .unloading ∧ s.ch.seat = true ∧ s.re.brake = false ∧ cqOpen s = true ∧
     s.ci.transport = runningNow { tag := 9, op := .unload false } ∧ s.ci.write = Job.clear ∧ s.ci.read = Job.clear ∧
     quiet s = true ∧ s.rd.user = none ∧ s.pw.cancelled = none ∧ s.he.clean ≠ .cleaning ∧ (s.ch.step = some .eject ∨ s.ch.step
     = some .threadReturn ∨ s.ch.step = some .pinRelease ∨ s.ch.step = some .hubRelease)) ∧
    (let s : State := un .rewind
     s.ch.transport = .unloading ∧ s.ch.seat = true ∧ s.re.brake = false ∧ cqOpen s = true ∧
     s.ci.transport = runningNow { tag := 9, op := .unload false } ∧ s.ci.write = Job.clear ∧ s.ci.read = Job.clear ∧
     quiet s = true ∧ s.rd.user = none ∧ s.pw.cancelled = none ∧ s.he.clean ≠ .cleaning ∧ s.ch.step = some .rewind) := by
  refine ⟨?_, ?_, ?_⟩ <;> decide +kernel

end Loading

namespace Unloading

def de : DriveEntry :=
  { serial := hb 8, unknown := false, after := true, frames := 1, rewrites := 2, rate := 4, heavy := 4, retries := 5 }
def un (x : Step) : State := nt
  { at_ .unloading (some x) with
    ci.transport := runningNow { tag := 9, op := .unload false }, he.clean := .ok, re.armDirS := .towardPull, ch.hub := true,
    ch.pin := true, ch.recordHeld := true, ch.arm := 3000 }
def smp (n : Nat) (m : Int) : ScanSample :=
  { tension := n, supplyCurrent := 3700, takeUpCurrent := 5, arm := 77, movement := m, servoPass := 2, servoCount := 5678,
    tape := true }
def rdy : State := nt
  { at_ .ready none with
    re.scanDue := true, mo.quality := .locked, mo.locked := true, ch.tape := true, re.degSup := true, re.limSup := 5,
    re.stall := 3, he.clean := .ok, mo.count := 40000 }
def uw : State := { rdy with pw.settling := true, re.settle := 16 }
def cx : Context :=
  { cause := .endApproach, op := .write, pos := bot, dir := .forward, band := 0, slot := none, frame := none, pending := [],
    phase := .stream }
def rv : State := nt
  { at_ .active none with
    mo.stack := [cx], mo.mask := true, mo.mode := some .recovery, re.excDue := true, re.stallDue := true, mo.wait := .stop }

theorem witness_LoadCompletes :
    let s : State := nt
      { at_ .loading (some .servoAcquire) with
        ci.transport := runningNow { tag := 5, op := .load }, he.clean := .ok, he.tally.frames := 5, mo.warned := true,
        mo.reacquire := false, wr.openAsked := true }
    s.bp.layout = some L0 ∧ s.ch.transport = .loading ∧ s.ch.step = some .servoAcquire ∧ s.re.brake = false ∧
    s.ci.transport = runningNow { tag := 5, op := .load } ∧ cqOpen s = true ∧ s.pw.cancelled = none ∧
    s.cart.openFlag = false ∧ s.he.clean = .ok ∧ quiet s = true := by decide +kernel

theorem witness_UnloadBegins :
    (let s : State := { at_ .ready none with ri.session := .opened }
     s.re.brake = false ∧ s.ch.seat = true ∧ s.ch.transport = .ready ∧ false = false ∧ sessionOpen s = true ∧ calm s = true ∧
     dwellSteady s = true ∧ placeOpen .transport s = true) ∧
    (let s : State := nt { at_ .empty none with ch.seat := true }
     s.re.brake = false ∧ s.ch.seat = true ∧ s.ch.transport = .empty ∧ quiet s = true ∧ dwellSteady s = true ∧
     placeOpen .transport s = true) ∧
    (let s : State := nt { at_ .loading none with ch.seat := true }
     s.re.brake = false ∧ s.ch.seat = true ∧ (s.ch.transport = .loading ∨ s.ch.transport = .unloading) ∧ quiet s = true ∧
     dwellSteady s = true ∧ placeOpen .transport s = true) ∧
    (let s : State := { at_ .seated none with ri.session := .closed }
     s.re.brake = false ∧ s.ch.seat = true ∧ s.ch.transport = .seated ∧ s.ch.step = none ∧ quiet s = true ∧
     s.pw.dwell = false ∧ s.bp.layout.isSome = true ∧ s.ci.transport = Job.clear) ∧
    (let s : State := { at_ .ready none with mo.count := 30000, mo.pass := 3, pw.dwell := true }
     s.re.brake = false ∧ s.ch.seat = true ∧ s.ch.transport = .ready ∧ s.pw.settling = false ∧ quiet s = true ∧
     dwellSteady s = true ∧ s.bp.layout.isSome = true ∧ s.ci.transport = Job.clear ∧ s.ci.read = Job.clear ∧
     s.ci.write = Job.clear ∧ s.mo.quality ≠ .unknown ∧ s.he.cleanDist = none ∧ 24000 ≤ s.mo.count) := by
  refine ⟨?_, ?_, ?_, ?_, ?_⟩ <;> decide +kernel

theorem witness_UnloadAdvances :
    (let s : State := { un .threadReturn with re.downK := 1 }
     s.ch.transport = .unloading ∧ s.ch.seat = true ∧ s.re.brake = false ∧ s.bp.layout = some L0 ∧
     s.ch.step = some .threadReturn ∧ 100 ≤ 200 ∧ s.ch.pin = true) ∧
    (let s : State := { un .pinRelease with re.downK := 1 }
     s.ch.transport = .unloading ∧ s.ch.seat = true ∧ s.re.brake = false ∧ s.bp.layout = some L0 ∧
     s.ch.step = some .pinRelease ∧ s.ch.hub = true) ∧
    (let s : State := { un .hubRelease with ch.recordHeld := false }
     s.ch.transport = .unloading ∧ s.ch.seat = true ∧ s.re.brake = false ∧ s.bp.layout = some L0 ∧
     s.ch.step = some .hubRelease ∧ s.ch.recordHeld = false ∧ s.he.tallyOpen = false) ∧
    (let s : State :=
       { un .hubRelease with
         ch.tagUnreadable := true, he.tallyOpen := true, he.tally.frames := 4000, he.tally.rewrites := 100,
         he.history := List.replicate 8 de }
     s.ch.transport = .unloading ∧ s.ch.seat = true ∧ s.re.brake = false ∧ s.bp.layout = some L0 ∧
     s.ch.step = some .hubRelease ∧ s.ch.recordHeld = true ∧ s.ch.tagUnreadable = true ∧ s.he.tallyOpen = true ∧
     s.he.tally.frames < 4096) ∧
    (let s : State := un .hubRelease
     s.ch.transport = .unloading ∧ s.ch.seat = true ∧ s.re.brake = false ∧ s.bp.layout = some L0 ∧
     s.ch.step = some .hubRelease ∧ s.ch.recordHeld = true ∧ s.ch.tagUnreadable = false ∧ s.he.tallyOpen = false ∧
     (L0.cartBase + 16384 ≤ L0.histBase ∨ L0.histBase + 512 ≤ L0.cartBase)) ∧
    (let s : State :=
       { un .hubRelease with
         he.tallyOpen := true, he.tally.frames := 4000, he.tally.rewrites := 100,
         mem := [(16385, 1), (16386, 2), (16387, 3), (16392, 1), (16393, 3), (16396, 1)] }
     s.ch.transport = .unloading ∧ s.ch.seat = true ∧ s.re.brake = false ∧ s.bp.layout = some L0 ∧
     s.ch.step = some .hubRelease ∧ s.ch.recordHeld = true ∧ s.ch.tagUnreadable = false ∧ s.he.tallyOpen = true ∧
     s.he.tally.frames < 4096 ∧ s.cart.cleaning = false ∧
     (L0.cartBase + 16384 ≤ L0.histBase ∨ L0.histBase + 512 ≤ L0.cartBase)) ∧
    (let s : State := un .tagWrite
     s.ch.transport = .unloading ∧ s.ch.seat = true ∧ s.re.brake = false ∧ s.bp.layout = some L0 ∧
     s.ch.step = some .tagWrite ∧ cqOpen s = true) ∧
    (let s : State := un .eject
     s.ch.transport = .unloading ∧ s.ch.seat = true ∧ s.re.brake = false ∧ s.bp.layout = some L0 ∧ s.ch.step = some .eject ∧
     s.ci.transport = runningNow { tag := 9, op := .unload false } ∧ s.cq.waiting = [] ∧ s.cq.queue.length < 7 ∧
     s.pw.cancelled = none ∧ s.re.degSup = false ∧ s.re.degTak = false) := by
  refine ⟨?_, ?_, ?_, ?_, ?_, ?_, ?_, ?_⟩ <;> decide +kernel

theorem witness_PowerOnDecides :
    let s : State := { s0 with bp.held := some fw1, bp.reqs := [writeOf 100 [some 1], partWrite 5 [1] .plain], bp.behind := [fw1] }
    (∀ w ∈ waitingWrites s, ∀ i < 8, w.enables (248 + i) = false) := by decide +kernel

theorem witness_ResetLineThenSettle :
    (let s : State :=
       { at_ .ready none with
         bp.held := some fw1, bp.reqs := [writeOf 100 [some 1], partWrite 5 [1] .plain], bp.behind := [fw1] }
     (∀ w ∈ waitingWrites s, ∀ i < 8, w.enables (248 + i) = false) ∧ s.ch.settlePending = false) ∧
    (let s : State := { at_ .empty none with ch.settlePending := true, re.brake := true }
     s.ch.settlePending = true ∧ s.ch.transport = .empty) := by
  refine ⟨?_, ?_⟩ <;> decide +kernel

theorem witness_PeriodStartAndBrake_1 :
    (let s : State := { s0 with re.tak.flag := true, re.tak.sFall := 4, re.sup.flag := true, re.supDirS := .reverse }
     powerOf s.ch.transport = .sleep) ∧
    (let s : State := { at_ .parked none with re.tak.flag := true }
     powerOf s.ch.transport = .parkPower) ∧
    (let s : State := { at_ .active none with re.tak.flag := true }
     (powerOf s.ch.transport = .holdPower ∨ powerOf s.ch.transport = .full)) := by
  refine ⟨?_, ?_, ?_⟩ <;> decide +kernel

theorem witness_PeriodStartAndBrake_2 :
    (let s : State := { at_ .ready none with re.brake := true, re.input := 9 }
     s.re.brake = true ∧ s.ch.step ≠ some .tensionDown ∧ s.ch.step ≠ some .backTension) ∧
    (let s : State := at_ .ready none
     (s.re.brake = false ∨ s.ch.step = some .tensionDown ∨ s.ch.step = some .backTension)) := by
  refine ⟨?_, ?_⟩ <;> decide +kernel

theorem witness_PeriodStartAndBrake_3 :
    (let s : State := { un .tensionDown with re.downK := 16, re.brake := true }
     s.ch.transport = .unloading ∧ s.ch.step = some .tensionDown ∧ 16 ≤ s.re.downK) ∧
    (let s : State :=
       { un .tensionDown with
         ch.transport := .loading, ch.step := some .backTension, re.downK := 16, re.brake := true }
     s.ch.transport = .loading ∧ s.ch.step = some .backTension ∧ 16 ≤ s.re.downK) ∧
    (let s : State := { un .tensionDown with re.downK := 1, re.brake := true }
     s.re.downK < 16) := by
  refine ⟨?_, ?_, ?_⟩ <;> decide +kernel

theorem witness_ParkAndPolicy_1 :
    (let s : State := { rdy with pw.dwell := true }
     s.re.brake = false ∧ s.ch.step = none ∧ s.ch.transport = .ready ∧ quiet s = true ∧ placeOpen .transport s = true ∧
     s.pw.dwell = true) ∧
    (let s : State := nt { rdy with ch.transport := .parked }
     s.re.brake = false ∧ s.ch.step = none ∧ s.ch.transport = .parked ∧ quiet s = true ∧ placeOpen .transport s = true ∧
     s.pw.dwell = false) ∧
    (let s : State := nt { rdy with ch.transport := .active }
     s.re.brake = false ∧ s.ch.step = none ∧ s.ch.transport ≠ .ready ∧ s.ch.transport ≠ .parked ∧ quiet s = true ∧
     placeOpen .transport s = true) ∧
    (let s : State := nt
       { rdy with
         ch.transport := .active, mo.mode := some .waitData, pw.dwell := true, ri.session := .opened, ri.st := .header,
         bp.watch := true }
     s.re.brake = false ∧ s.ch.step = none ∧ s.ch.transport = .active ∧ s.mo.mode = some .waitData ∧ s.pw.dwell = true ∧
     s.mo.stack = [] ∧ s.ri.session = .opened ∧ s.bp.held = none ∧ s.wr.flush = none ∧ s.wr.close = false ∧
     fetchDue s = false ∧ intakeWaits s = false ∧ s.ci.deferred = []) := by
  refine ⟨?_, ?_, ?_, ?_⟩ <;> decide +kernel

theorem witness_ParkAndPolicy_2 :
    let s : State := { rdy with pw.dwell := true }
    placeOpen .transport s = true ∧ (calm s = true ∨ quiet s = true) ∧ s.mo.mask = false := by decide +kernel

theorem witness_ParkAndPolicy_3 :
    (uw.ch.transport = .ready ∧ uw.pw.settling = true ∧ uw.pw.waiters = [] ∧ quiet uw = true ∧ noOperations uw = true ∧
     uw.re.brake = false ∧ uw.mo.stack = [] ∧ uw.ch.step = none ∧ 16 ≤ uw.re.settle ∧ uw.mo.locked = true ∧ stands uw = true) ∧
    (let s : State := { uw with mo.locked := false }
     s.ch.transport = .ready ∧ s.pw.settling = true ∧ s.pw.waiters = [] ∧ quiet s = true ∧ noOperations s = true ∧
     s.re.brake = false ∧ s.mo.stack = [] ∧ s.ch.step = none ∧ s.mo.locked = false) ∧
    (let s : State := { uw with re.settle := 4 }
     s.ch.transport = .ready ∧ s.pw.settling = true ∧ s.pw.waiters = [] ∧ quiet s = true ∧ noOperations s = true ∧
     s.re.brake = false ∧ s.mo.stack = [] ∧ s.ch.step = none ∧ s.re.settle < 16) := by
  refine ⟨?_, ?_, ?_⟩ <;> decide +kernel

theorem witness_ScanStepsLoops :
    (let s : State := rdy
     s.re.scanDue = true ∧ s.re.brake = false ∧ s.ch.tape = true ∧ s.he.cleanDist = none ∧ s.ch.step = none ∧ quiet s = true ∧
     s.ch.transport = .ready ∧ s.mo.mode = none ∧ s.mo.legs = [] ∧ s.mo.quality = .locked ∧ s.mo.passWait = false) ∧
    (let s : State := { rdy with mo.quality := .estimated, mo.locked := false }
     s.re.scanDue = true ∧ s.re.brake = false ∧ s.ch.tape = true ∧ s.he.cleanDist = none ∧ s.ch.step = none ∧ quiet s = true ∧
     s.ch.transport = .ready ∧ s.mo.mode = none ∧ s.mo.legs = [] ∧ s.mo.quality = .estimated ∧ s.mo.passWait = false) ∧
    (let s : State := { rdy with re.scanDue := false }
     s.re.scanDue = false) ∧
    (let x : ScanSample := smp 1500 30
     let leg : Leg := moveLeg .locate { pass := 2, count := 50000} 307
     let s : State := nt { rdy with
         ch.transport := .active, mo.mode := some .locate, mo.legs := [moveLeg .locate { pass := 2, count := 50000} 307],
           mo.v := 307, re.supDir := .reverse, re.exc := 3, re.excHold := 0, he.cleanDist := none }
     s.re.scanDue = true ∧ s.re.brake = false ∧ s.ch.tape = true ∧ s.he.cleanDist = none ∧ s.ch.step = none ∧ quiet s = true ∧
     s.ch.transport = .active ∧ s.mo.mode = some .locate ∧ s.mo.recal = false ∧ s.mo.quality = .locked ∧ s.mo.legs = [leg] ∧
     leg.target = some 50000 ∧ s.mo.stopping = false ∧ s.mo.passWait = false ∧ s.mo.v ≠ 0 ∧ s.mo.v * (s.mo.v + 1) < (if s.mo.dir
     = .forward then 50000 - x.servoCount else x.servoCount - 50000) * 256) := by
  refine ⟨?_, ?_, ?_, ?_⟩ <;> decide +kernel

theorem witness_ReelLimitsAndRaisedFaults_1 :
    (let s : State := { rdy with re.degSup := false, re.limSup := 8, re.limTak := 9 }
     s.re.degSup = false ∧ 8 ≤ s.re.limSup ∧ loopsRun s = true ∧ (¬(s.ch.transport = .loading ∧ s.ch.step = some .threadPull))) ∧
    (let s : State := { rdy with re.degSup := false, re.limSup := 8, re.limTak := 9 }
     s.re.degTak = false ∧ 8 ≤ s.re.limTak ∧ loopsRun s = true ∧ (¬(s.ch.transport = .loading ∧ s.ch.step = some .threadPull) ∨
     s.ch.tape = true)) ∧
    (let s : State := { rdy with re.degSup := true, re.limSup := 1024, re.limTak := 1024, re.degTak := true }
     s.re.degSup = true ∧ 1024 ≤ s.re.limSup) ∧
    (let s : State := { rdy with re.degSup := true, re.limSup := 1024, re.limTak := 1024, re.degTak := true }
     s.re.degTak = true ∧ 1024 ≤ s.re.limTak) ∧
    (let s : State := rv
     s.re.limSup < 8) ∧
    (let s : State := rv
     s.re.limTak < 8) ∧
    (let s : State := rv
     s.re.limSup < 1024) ∧
    (let s : State := rv
     s.re.limTak < 1024) := by
  refine ⟨?_, ?_, ?_, ?_, ?_, ?_, ?_, ?_⟩ <;> decide +kernel

theorem witness_ReelLimitsAndRaisedFaults_2 :
    (let s : State := rv
     s.ch.transport = .active ∧ s.mo.stack = [cx] ∧ cx.cause = .endApproach ∧ s.mo.mask = true ∧ s.mo.recal = false ∧ s.mo.wait
     ≠ .failing ∧ calm s = true ∧ s.re.excDue = true ∧ s.re.stallDue = true) ∧
    (let s : State := { rv with re.excDue := false, re.stallDue := false }
     s.ch.transport = .active ∧ s.mo.stack = [cx] ∧ cx.cause = .endApproach ∧ s.mo.mask = true ∧ s.mo.recal = false ∧ s.mo.wait
     ≠ .failing ∧ calm s = true ∧ s.re.excDue = false ∧ s.re.stallDue = false) ∧
    (let s : State := { at_ .seated none with re.limSup := 8, re.limTak := 8 }
     s.re.degSup = false ∧ 8 ≤ s.re.limSup ∧ (loopsRun s = false ∨ s.ch.transport = .loading ∧ s.ch.step = some .threadPull)) ∧
    (let s : State := { at_ .seated none with re.limSup := 8, re.limTak := 8 }
     s.re.degTak = false ∧ 8 ≤ s.re.limTak ∧ (loopsRun s = false ∨ (s.ch.transport = .loading ∧ s.ch.step = some .threadPull) ∧
     s.ch.tape = false)) := by
  refine ⟨?_, ?_, ?_, ?_⟩ <;> decide +kernel

end Unloading

namespace Motion

def cmem : List Host.Cell := [(16392, 2), (16393, 3), (16397, 2), (16398, 7)]
def emem : List Host.Cell := [(16392, 1), (16393, 3), (16397, 1), (16400, 1), (16404, 6), (16408, 50), (16412, 2), (16416, 96),
  (16417, 234), (17408, 3), (17412, 9), (17420, 48), (17421, 117)]
def sx (p n : Nat) : ScanSample :=
  { tension := 1500, supplyCurrent := 3700, takeUpCurrent := 5, arm := 77, movement := 30, servoPass := p, servoCount := n, tape := true }
def E0 : Eod := { seg := 6, firstRec := 50, pos := { pass := 2, count := 60000 } }
def M0 : Mark := { seg := 3, firstRec := 9, pos := { pass := 0, count := 30000 } }
def xmem : List Host.Cell := [(40960, 165), (40961, 4), (40962, 1), (40968, 80), (40969, 195), (40972, 255), (40973, 255), (40974,
  255), (40975, 2)]
def de : DriveEntry :=
  { serial := hb 8, unknown := false, after := true, frames := 1, rewrites := 2, rate := 4, heavy := 4, retries := 5 }
def rdy : State := nt
  { at_ .ready none with
    re.scanDue := true, mo.quality := .locked, mo.locked := true, ch.tape := true, re.degSup := true, re.limSup := 5,
    re.stall := 3, he.clean := .ok, mo.count := 40000 }
def cx : Context :=
  { cause := .servoLoss, op := .locate, pos := { pass := 0, count := 50000 }, dir := .forward, band := 0, slot := none,
    frame := none, pending := [], phase := .move }
def act : State := nt
  { rdy with
    ch.transport := .active, mo.mode := some .locate, mo.legs := [moveLeg .locate bot 307],
    mo.goal := .locateAt .ok (some 0) none, mo.v := 307, mo.count := 50000, pw.dwell := true }
def rvr : State := nt
  { act with
    mo.mode := some .recovery, mo.stack := [cx], mo.mask := true, mo.wait := .stop, mo.legs := [stopLeg .recovery],
    mo.goal := .recStop, mo.stopping := true, mo.recT := 2048, he.counters := List.replicate 4 Counter.clear }
def mvd : Context :=
  { cause := .servoLoss, op := .locate, pos := { pass := 0, count := 50000 }, dir := .forward, band := 0, slot := none,
    frame := none, pending := [], phase := .move }
def rvx : State := { rvr with ci.transport := runningNow { tag := 9, op := .locate 2 4 }, ri.session := .closed }
def mv : State := nt { rdy with ch.transport := .active, mo.mode := some .ramp, mo.stopping := true }

theorem witness_RecoveryLimits :
    (let s : State := { rvx with mo.wait := .retension, re.settle := 3, mo.v := 0 }
     s.ch.transport = .active ∧ s.mo.mode = some .recovery ∧ s.mo.mask = true ∧ s.mo.wait = .retension ∧ s.re.settle < 16 ∧
     atRest s = true ∧ s.mo.wait ≠ .forwardMove ∧ s.mo.wait ≠ .failing) ∧
    (let s : State := { rvx with mo.wait := .forwardMove, re.settle := 3, mo.v := 0, mo.locked := false }
     s.ch.transport = .active ∧ s.mo.mode = some .recovery ∧ s.mo.mask = true ∧ s.mo.wait = .forwardMove ∧ atRest s = true ∧
     (s.mo.stack.all fun x => decide (x.cause ≠ .reelStall)) = true ∧ s.mo.wait ≠ .retension) ∧
    (let s : State :=
       { rvx with
         mo.wait := .retension, re.settle := 3, mo.v := 40,
         re.window := (List.range 33).map (fun (i : Nat) => (100 - 3 * (i : Int))) }
     s.ch.transport = .active ∧ s.mo.mode = some .recovery ∧ s.mo.mask = true ∧ s.mo.wait = .retension ∧ s.re.settle < 16 ∧
     atRest s = false ∧ quiet s = true) ∧
    (let s : State :=
       { rvx with
         mo.wait := .forwardMove, mo.stack := [{ cx with cause := .reelStall }], re.settle := 3, mo.v := 0, mo.locked := false,
         ri.session := .opened, ri.st := .header }
     s.ch.transport = .active ∧ s.mo.mode = some .recovery ∧ s.mo.mask = true ∧ s.mo.wait = .forwardMove ∧ atRest s = true ∧
     (s.mo.stack.any fun x => decide (x.cause = .reelStall)) = true) ∧
    (let s : State :=
       { rvx with
         mo.wait := .failing, re.settle := 3, mo.v := 6, mo.goal := .failStop true,
         re.window := (List.range 33).map (fun (i : Nat) => (100 - 3 * (i : Int))), ci.transport := Job.clear,
         ci.read := runningNow { tag := 9, op := .readRecords 3 }, rd.user := some .records, rd.state := .streaming }
     s.ch.transport = .active ∧ s.mo.mode = some .recovery ∧ s.mo.mask = true ∧ s.mo.wait = .failing ∧ atRest s = false) := by
  refine ⟨?_, ?_, ?_, ?_, ?_⟩ <;> decide +kernel

theorem witness_RampsAndMovesEnd :
    (let s : State := { mv with mo.v := 307, mo.dest := 307, mo.into := some .locate, mo.stopping := false }
     quiet s = true ∧ s.re.brake = false ∧ s.ch.step ≠ some .backTension ∧ s.ch.transport = .active ∧
     (s.mo.mode = some .ramp ∨ s.mo.mode = some .turn) ∧ s.mo.into = some .locate ∧ MotionMode.locate ≠ .readStream ∧
     s.mo.v = s.mo.dest ∧ (s.mo.stopping = false ∨ atRest s = false)) ∧
    (let s : State := { mv with mo.legs := [stopLeg .ramp], mo.goal := .toReady }
     quiet s = true ∧ s.re.brake = false ∧ s.ch.step ≠ some .backTension ∧ (s.mo.v ≠ s.mo.dest ∨ s.mo.into = none) ∧
     s.ch.transport = .active ∧ s.mo.stopping = true ∧ atRest s = true ∧ s.mo.legs = [stopLeg .ramp] ∧ s.mo.goal = .toReady ∧
     s.mo.stack = [] ∧ s.ci.read = Job.clear) ∧
    (let s : State := { mv with mo.v := 307, mo.dest := 307, mo.into := some .readStream, mo.stopping := false }
     quiet s = true ∧ s.re.brake = false ∧ s.ch.step ≠ some .backTension ∧ s.ch.transport = .active ∧
     (s.mo.mode = some .ramp ∨ s.mo.mode = some .turn) ∧ s.mo.into = some .readStream ∧ s.mo.v = s.mo.dest) ∧
    (let o : Option Nat := some 0
     let leg : Leg := moveLeg .locate { pass := 0, count := 18464} 307
     let s : State :=
       { mv with
         mo.legs := [moveLeg .locate { pass := 0, count := 18464} 307], mo.goal := .locateAt .ok (some 0) none,
         ci.transport := runningNow { tag := 5, op := .locate 3 0 } }
     quiet s = true ∧ s.re.brake = false ∧ s.ch.step ≠ some .backTension ∧ s.ch.transport = .active ∧ s.mo.stopping = true ∧
     atRest s = true ∧ s.mo.legs = [leg] ∧ leg.target = some 18464 ∧ s.mo.goal = .locateAt .ok o none ∧ s.mo.stack = [] ∧
     s.ci.transport = runningNow { tag := 5, op := .locate 3 0 } ∧ cqOpen s = true ∧
     (s.pw.cancelled = none ∨ s.pw.cancelled = some .transport)) ∧
    (let leg : Leg := moveLeg .locate { pass := 0, count := 18464} 307
     let s : State := nt
       { mv with
         mo.legs := [moveLeg .locate { pass := 0, count := 18464} 307], mo.goal := .rewind, ch.transport := .unloading,
         ch.step := some .rewind }
     quiet s = true ∧ s.re.brake = false ∧ s.ch.step ≠ some .backTension ∧ s.ch.transport = .unloading ∧
     s.ch.step = some .rewind ∧ s.mo.stopping = true ∧ atRest s = true ∧ s.mo.legs = [leg] ∧ leg.target = some 18464 ∧
     s.mo.goal = .rewind) := by
  refine ⟨?_, ?_, ?_, ?_, ?_⟩ <;> decide +kernel

theorem witness_LocateBegins_1 :
    (let s : State := rdy
     quiet s = true ∧ placeOpen JobId.transport s = true ∧ dwellSteady s = true ∧ 2 < 9 ∧ s.bp.layout.isSome = true ∧
     s.ci.transport = Job.clear ∧ s.ch.transport = .ready ∧ s.pw.settling = false ∧ s.re.brake = false ∧ s.mo.mask = false ∧
     s.mo.stands ≠ some { pass := 0, count := 18464 } ∧ s.mo.v = 0 ∧ stands s = true ∧ s.mo.pass = 0 ∧ 18464 < s.mo.count ∧
     s.bp.layout = some L0 ∧ s.cart.eod = none ∧ s.ch.tagUnreadable = false ∧ (s.mo.stands ≠ some { pass := 0, count := 18464 }
     ∧ s.mo.count ≠ (18464))) ∧
    (let s : State := nt { rdy with ch.transport := .active }
     quiet s = true ∧ placeOpen JobId.transport s = true ∧ dwellSteady s = true ∧ 2 ≤ 2 ∧ s.ch.transport ≠ .ready ∧
     s.ch.transport ≠ .parked) ∧
    (let s : State := { rdy with mo.stands := some { pass := 0, count := 18464 }, pw.dwell := true }
     quiet s = true ∧ placeOpen JobId.transport s = true ∧ dwellSteady s = true ∧ 2 = 2 ∧ s.ch.transport = .ready ∧
     s.pw.settling = false ∧ s.mo.stands = some { pass := 0, count := 18464 }) ∧
    (let s : State := nt { rdy with ch.transport := .parked, pw.dwell := false }
     quiet s = true ∧ s.bp.layout.isSome = true ∧ s.ci.transport = Job.clear ∧ s.re.brake = false ∧ s.ch.step = none ∧ 2 ≤ 2 ∧
     s.ch.transport = .parked ∧ s.pw.dwell = false) ∧
    (let s : State := { rdy with mo.pass := 3 }
     quiet s = true ∧ s.bp.layout.isSome = true ∧ s.ci.transport = Job.clear ∧ dwellSteady s = true ∧ s.ch.transport = .ready ∧
     s.pw.settling = false ∧ s.re.brake = false ∧ s.mo.mask = false ∧ s.mo.stands ≠ some { pass := 0, count := 18464 } ∧ s.mo.v
     = 0 ∧ stands s = true ∧ s.mo.pass ≠ 0) ∧
    (let s : State := { rdy with mem := emem }
     quiet s = true ∧ s.bp.layout = some L0 ∧ s.ci.transport = Job.clear ∧ dwellSteady s = true ∧ s.ch.transport = .ready ∧
     s.pw.settling = false ∧ s.re.brake = false ∧ s.mo.mask = false ∧ s.mo.v = 0 ∧ stands s = true ∧ s.cart.eod = some E0 ∧
     (s.mo.stands ≠ some (standing (eodResume E0)) ∧ s.mo.count ≠ (standing (eodResume E0)).count) ∧ E0.firstRec ≤ 60) ∧
    (let s : State := { rdy with mem := emem }
     quiet s = true ∧ s.bp.layout = some L0 ∧ s.ci.transport = Job.clear ∧ dwellSteady s = true ∧ s.ch.transport = .ready ∧
     s.pw.settling = false ∧ s.re.brake = false ∧ s.mo.mask = false ∧ s.mo.v = 0 ∧ stands s = true ∧ s.cart.eod = some E0 ∧ 49 <
     E0.firstRec ∧ (List.filter (fun m => decide (m.firstRec < 49)) s.cart.marks).getLast? = some M0 ∧ s.mo.count ≠ back
     M0.pos.pass M0.pos.count 3072) ∧
    (let s : State := { rdy with mem := emem }
     quiet s = true ∧ s.bp.layout = some L0 ∧ s.ci.transport = Job.clear ∧ dwellSteady s = true ∧ s.ch.transport = .ready ∧
     s.pw.settling = false ∧ s.re.brake = false ∧ s.mo.mask = false ∧ s.mo.v = 0 ∧ stands s = true ∧ s.cart.eod = some E0 ∧
     (s.mo.stands ≠ some (standing (eodResume E0)) ∧ s.mo.count ≠ (standing (eodResume E0)).count) ∧ 9 < E0.firstRec ∧
     (List.filter (fun m => decide (m.firstRec < 9)) s.cart.marks).getLast? = none ∧ s.mo.count ≠ 18464) := by
  refine ⟨?_, ?_, ?_, ?_, ?_, ?_, ?_, ?_⟩ <;> decide +kernel

theorem witness_LocateBegins_2 :
    let s : State := { rdy with ch.tagUnreadable := true }
    quiet s = true ∧ s.bp.layout = some L0 ∧ s.ci.transport = Job.clear ∧ dwellSteady s = true ∧ s.ch.transport = .ready ∧
    s.pw.settling = false ∧ s.re.brake = false ∧ s.mo.mask = false ∧ s.mo.v = 0 ∧ stands s = true ∧ s.cart.eod = none ∧
    s.ch.tagUnreadable = true ∧ s.mo.count ≠ 18464 := by decide +kernel

theorem witness_RecalibrateSearches :
    (let s : State := nt { rdy with ch.transport := .unpositioned, ch.recordHeld := true }
     quiet s = true ∧ s.re.brake = false ∧ s.ch.transport = .unpositioned ∧ s.mo.mode = none ∧ s.pw.dwell = false ∧
     s.ch.recordHeld = true ∧ s.bp.layout.isSome = true ∧ s.ci.transport = Job.clear) ∧
    (let s : State := nt { rdy with ch.transport := .unpositioned, ch.recordHeld := false }
     quiet s = true ∧ s.re.brake = false ∧ s.ch.transport = .unpositioned ∧ s.pw.dwell = false ∧ s.ch.recordHeld = false ∧
     s.bp.layout.isSome = true ∧ s.ci.transport = Job.clear) ∧
    (let s : State := nt { rdy with ch.transport := .active }
     quiet s = true ∧ s.re.brake = false ∧ s.ch.transport ≠ .unpositioned ∧ dwellSteady s = true ∧ placeOpen JobId.transport s =
     true ∧ s.mo.locked = true ∧ s.mo.recal = false) ∧
    (let s : State := nt { rdy with
         ch.transport := .active, mo.recal := true, mo.goal := .recalSearch, mo.mode := some .locate, mo.v := 26, mo.locked :=
           true, mo.quality := .unknown, ci.transport := runningNow { tag := 5, op := .recalibrate } }
     quiet s = true ∧ s.re.brake = false ∧ s.ch.transport = .active ∧ s.mo.recal = true ∧ s.mo.goal = .recalSearch ∧ s.mo.mode =
     some .locate ∧ s.mo.v = 26 ∧ s.ci.transport = runningNow { tag := 5, op := .recalibrate } ∧ cqOpen s = true ∧
     s.pw.cancelled = none ∧ s.ci.write = Job.clear ∧ s.ci.read = Job.clear ∧ s.rd.user = none ∧ s.he.clean ≠ .cleaning ∧
     s.mo.locked = true ∧ s.re.scanDue = true ∧ s.he.cleanDist = none ∧ s.ch.step = none ∧ s.mo.passWait = false) ∧
    (let s : State := nt { rdy with
         ch.transport := .active, mo.recal := true, mo.goal := .recalSearch, mo.mode := some .locate, mo.v := 26, mo.locked :=
           false, mo.quality := .unknown, ci.transport := runningNow { tag := 5, op := .recalibrate } }
     quiet s = true ∧ s.re.brake = false ∧ s.ch.transport = .active ∧ s.mo.recal = true ∧ s.mo.goal = .recalSearch ∧ s.mo.mode =
     some .locate ∧ s.mo.v = 26 ∧ s.ci.transport = runningNow { tag := 5, op := .recalibrate } ∧ cqOpen s = true ∧
     s.pw.cancelled = none ∧ s.ci.write = Job.clear ∧ s.ci.read = Job.clear ∧ s.rd.user = none ∧ s.he.clean ≠ .cleaning ∧
     s.mo.locked = false) := by
  refine ⟨?_, ?_, ?_, ?_, ?_⟩ <;> decide +kernel

theorem witness_LockLostAtRest :
    (let s : State := { rdy with mo.reacquire := true, mo.locked := false, mo.quality := .estimated }
     s.ch.transport = .ready ∧ s.pw.settling = false ∧ s.re.brake = false ∧ s.ch.step = none ∧ quiet s = true ∧ noOperations s =
     true ∧ s.pw.waiters = [] ∧ s.mo.stack = [] ∧ s.mo.reacquire = true ∧ 0 = s.mo.pass ∧ gapOf 40020 s.mo.count ≤ 24) ∧
    (let s : State := { rdy with mo.reacquire := true, mo.locked := false, mo.quality := .estimated }
     s.ch.transport = .ready ∧ s.pw.settling = false ∧ s.re.brake = false ∧ s.ch.step = none ∧ quiet s = true ∧ noOperations s =
     true ∧ s.pw.waiters = [] ∧ s.mo.stack = [] ∧ s.mo.locked = false ∧ s.mo.quality ≠ .locked ∧ s.mo.reacquire = true ∧ (0 ≠
     s.mo.pass ∨ 24 < gapOf 5020 s.mo.count)) ∧
    (let s : State := rdy
     s.ch.transport = .ready ∧ s.pw.settling = false ∧ s.re.brake = false ∧ s.ch.step = none ∧ quiet s = true ∧ noOperations s =
     true ∧ s.pw.waiters = [] ∧ s.mo.stack = [] ∧ s.mo.locked = true ∧ s.mo.quality = .locked ∧ s.mo.reacquire = false) := by
  refine ⟨?_, ?_, ?_⟩ <;> decide +kernel

theorem witness_MeterAndCleaningRun :
    (let s : State := { rdy with mo.meter := 16005 }
     16000 ≤ s.mo.meter ∧ unmonitored Ev.meter s = true ∧ (s.ch.tagUnreadable = true ∨ s.cart.cleaning = false) ∧ (s.he.clean ≠
     .ok ∨ s.he.meters + 1 < s.he.usage) ∧ s.he.meters < 4294967295 ∧ s.he.tally.meters < 4294967295) ∧
    (let s : State := { rdy with mo.meter := 16005, mem := cmem }
     16000 ≤ s.mo.meter ∧ unmonitored Ev.meter s = true ∧ s.ch.tagUnreadable = false ∧ s.cart.cleaning = true ∧
     s.he.tally.meters < 4294967295) ∧
    (let s : State := nt { at_ .loading (some .tensionUp) with
         re.settle := 16, mem := cmem, he.useCounted := true, he.clean := .cleaning }
     s.mo.meter < 16000) ∧
    (let s : State := nt { at_ .loading (some .tensionUp) with
         re.settle := 16, mem := cmem, he.useCounted := true, he.clean := .cleaning }
     s.bp.layout = some L0 ∧ s.ch.transport = .loading ∧ s.ch.step = some .tensionUp ∧ s.re.brake = false ∧ 16 ≤ s.re.settle ∧
     noted s = true ∧ s.ch.tagUnreadable = false ∧ s.cart.cleaning = true ∧ s.he.cleanDist = none) ∧
    (let s : State := nt { rdy with
         he.cleanDist := some 960000, ch.transport := .active, mo.mode := some .cleanRun, mo.v := 26 }
     s.bp.layout = some L0 ∧ s.he.cleanDist = some 960000 ∧ 960000 ≤ 960000 ∧ s.ch.transport = .active ∧ s.mo.mode = some
     .cleanRun ∧ s.mo.mask = false) ∧
    (let s : State := nt { rdy with he.cleanDist := some 95, ch.transport := .active, mo.mode := some .cleanRun, mo.v := 26 }
     s.bp.layout = some L0 ∧ s.he.cleanDist = some 95 ∧ 95 < 960000) ∧
    (let s : State := nt { rdy with
         he.cleanDist := some 960009, ch.transport := .active, mo.mode := some .ramp, mo.stopping := true, mo.legs := [stopLeg
           .ramp], mo.goal := .cleanStop, he.clean := .cleaning, mem := cmem, he.meters := 777, he.history := [de] }
     s.bp.layout = some L0 ∧ s.he.cleanDist = some 960009 ∧ s.ch.transport = .active ∧ s.mo.stopping = true ∧ atRest s = true ∧
     s.mo.legs = [stopLeg MotionMode.ramp] ∧ s.mo.goal = .cleanStop ∧ s.mo.stack = [] ∧ s.he.clean = .cleaning ∧ s.cart.cleaning
     = true ∧ s.re.brake = false ∧ cqOpen s = true ∧ quiet s = true) := by
  refine ⟨?_, ?_, ?_, ?_, ?_, ?_, ?_⟩ <;> decide +kernel

theorem witness_RecoveryEntered_1 :
    (let legs : List Leg := [moveLeg .locate bot 307]
     let g : Goal := .locateAt .ok (some 0) none
     let s : State := { act with mo.entry := 3 }
     s.bp.layout = some L0 ∧ s.ch.transport = .active ∧ s.mo.recal = false ∧ s.he.cleanDist = none ∧ quiet s = true ∧
     (s.mo.locked = true ∧ s.mo.quality = .locked ∧ s.mo.mask = false ∧ s.mo.stack = [] ∧ s.mo.pend = [] ∧ s.mo.wait = .none ∧
     s.mo.mode = some .locate ∧ s.mo.legs = legs ∧ legs ≠ [] ∧ s.mo.goal = g ∧ s.rd.scan = none ∧ s.wr.verifyQ = [] ∧
     s.mo.passWait = false) ∧ s.mo.entry < 4 ∧ unmonitored Ev.servoLoss s = true) ∧
    (let legs : List Leg := [moveLeg .locate bot 307]
     let g : Goal := .locateAt .ok (some 0) none
     let s : State := { act with mo.entry := 4 }
     s.bp.layout = some L0 ∧ s.ch.transport = .active ∧ s.mo.recal = false ∧ s.he.cleanDist = none ∧ quiet s = true ∧
     (s.mo.locked = true ∧ s.mo.quality = .locked ∧ s.mo.mask = false ∧ s.mo.stack = [] ∧ s.mo.pend = [] ∧ s.mo.wait = .none ∧
     s.mo.mode = some .locate ∧ s.mo.legs = legs ∧ legs ≠ [] ∧ s.mo.goal = g ∧ s.rd.scan = none ∧ s.wr.verifyQ = [] ∧
     s.mo.passWait = false) ∧ s.mo.entry = 4 ∧ atRest s = false) ∧
    (let s : State := { rvr with re.excDue := true, mo.pend := [.frameSlip] }
     s.bp.layout = some L0 ∧ s.ch.transport = .active ∧ s.mo.recal = false ∧ s.he.cleanDist = none ∧ quiet s = true ∧
     s.re.excDue = true ∧ s.mo.mask = true ∧ s.mo.wait ≠ .failing ∧ s.mo.stack = [cx] ∧ cx.cause = .servoLoss ∧ s.mo.entry < 4 ∧
     unmonitored Ev.tensionExcursion s = true) ∧
    (let c : Context := { cx with cause := .tensionExcursion }
     let s : State := { rvr with mo.stack := [{ cx with cause := .tensionExcursion }], mo.v := 0 }
     s.bp.layout = some L0 ∧ s.ch.transport = .active ∧ s.mo.recal = false ∧ s.he.cleanDist = none ∧ quiet s = true ∧
     s.mo.stopping = true ∧ atRest s = true ∧ s.mo.mode = some .recovery ∧ s.mo.legs = [stopLeg MotionMode.recovery] ∧ s.mo.goal
     = .recStop ∧ s.mo.stack = [c] ∧ c.cause = .tensionExcursion) ∧
    (let c : Context := { cx with cause := .tensionExcursion, phase := .scan }
     let s : State := nt { rvr with
         mo.stack := [{ cx with cause := .tensionExcursion, phase := .scan }], mo.v := 0, mo.wait := .retension, mo.recT :=
           1600, mo.stopping := false, mo.legs := [], mo.count := 30000 }
     s.bp.layout = some L0 ∧ s.ch.transport = .active ∧ s.mo.recal = false ∧ s.he.cleanDist = none ∧ quiet s = true ∧ 16 ≤
     s.re.settle ∧ s.mo.wait = .retension ∧ s.mo.mode = some .recovery ∧ s.mo.stack = [c] ∧ c.op = .locate ∧ c.phase = .scan ∧
     s.mo.v = 0 ∧ stands s = true ∧ s.mo.pass = c.pos.pass ∧ c.pos.pass % 2 = 0 ∧ s.mo.count < c.pos.count - 1536 ∧ 1536 ≤
     c.pos.count) ∧
    (let g : Goal := .locateAt .ok (some 0) none
     let s : State := { rvr with
         mo.wait := .pop, mo.stopping := false, mo.legs := [], mo.goal := .none, mo.v := 0, mo.savedLegs :=
           [{ mode := .locate, pass := some 0, target := some 18464, speed := 307 }], mo.savedGoal := .locateAt .ok (some 0)
           none, bp.reqs := [readOf 40960 64 (.contextPop 1)], mem := xmem }
     s.bp.layout = some L0 ∧ s.ch.transport = .active ∧ s.mo.recal = false ∧ s.he.cleanDist = none ∧ quiet s = true ∧ s.mo.wait
     = .pop ∧ s.mo.stack = [cx] ∧ s.mo.mask = true ∧ s.mo.mode = some .recovery ∧ s.mo.redirect = false ∧ s.bp.reqs = [readOf
     L0.ctxBase 64 (Purpose.contextPop 1)] ∧ L0.ctxBase % 64 = 0 ∧ memReadBytes s.mem L0.ctxBase 64 = contextBytes
       { cause := .servoLoss, op := .locate, pos := { pass := s.mo.pass, count := s.mo.count }, dir := s.mo.dir, band :=
           s.mo.band, slot := none, frame := none, pending := [], phase := .move }
     ∧ s.mo.pass < 48 ∧ s.mo.count < 65536 ∧ s.mo.band < 8 ∧ s.mo.pend = [] ∧ s.mo.savedGoal = g ∧ s.mo.savedLegs =
     [{ mode := .locate, pass := some s.mo.pass, target := some 18464, speed := 307 }] ∧ s.mo.v = 0 ∧ stands s = true ∧ 24000 <
     s.mo.count) ∧
    (let c : Context := { cx with cause := .reelStall, op := .locate, pos := { pass := 0, count := 30000 } }
     let s : State := { rvr with
         mo.stack := [{ cx with cause := .reelStall, op := .locate, pos := { pass := 0, count := 30000 } }], mo.v := 0 }
     s.ch.transport = .active ∧ s.mo.recal = false ∧ calm s = true ∧ s.mo.stopping = true ∧ atRest s = true ∧ s.mo.mode = some
     .recovery ∧ s.mo.legs = [stopLeg MotionMode.recovery] ∧ s.mo.goal = .recStop ∧ s.mo.stack = [c] ∧ c.cause = .reelStall) ∧
    (let c : Context := { cx with cause := .frameSlip, op := .write, pos := { pass := 0, count := 30000 } }
     let s : State := { rvr with
         mo.stack := [{ cx with cause := .frameSlip, op := .write, pos := { pass := 0, count := 30000 } }], mo.v := 0 }
     s.ch.transport = .active ∧ s.mo.recal = false ∧ calm s = true ∧ s.mo.stopping = true ∧ atRest s = true ∧ s.mo.mode = some
     .recovery ∧ s.mo.legs = [stopLeg MotionMode.recovery] ∧ s.mo.goal = .recStop ∧ s.mo.stack = [c] ∧ (c.cause = .endApproach ∨
     c.cause = .frameSlip) ∧ c.op = .write ∧ s.mo.skipResume = false ∧ s.mo.pass = c.pos.pass ∧ (standing
     ({ c.pos with count := ahead c.pos.pass c.pos.count 48 })).count < s.mo.count) := by
  refine ⟨?_, ?_, ?_, ?_, ?_, ?_, ?_, ?_⟩ <;> decide +kernel

end Motion

namespace Requests

def layoutBytes (l : Layout) : List Byte := leBytes 4 0x55444A31 ++ leBytes 4 l.serial ++ padTo 8 l.driveId ++ leBytes 4 l.cmdBase
  ++ leBytes 4 l.k ++ leBytes 4 l.compBase ++ leBytes 4 l.n ++ leBytes 4 l.consumer ++ leBytes 4 0 ++ leBytes 4 l.stBase ++
  leBytes 4 l.z ++ leBytes 4 l.dlBase ++ leBytes 4 l.zd ++ leBytes 4 l.segBase ++ leBytes 4 l.s ++ leBytes 4 l.cartBase ++ leBytes
  4 l.histBase ++ leBytes 4 l.ctxBase
def anchorB (l : Layout) : List Byte := let b := padTo 252 (layoutBytes l); b ++ leBytes 4 (checkOf (wordSum b))
def sw : State :=
  { s0 with
    bp.watch := true, bp.release := 1000, bp.rl := 500, ri.st := .placing, ri.session := .opened, ri.cursor := 1500 }
def pc (a n : Nat) (x : PieceState) : Piece := { start := a, len := n, state := x }
def r1 : Req := { cls := .front, isWrite := true, addr := 1000, len := 40, data := ob (hb 40), got := [], what := .plain }
def r2 : Req := { cls := .internal, isWrite := false, addr := 1000, len := 40, data := [], got := [], what := .plain }
def fr1 : RecordInProgress := { num := 5, len := 100, placed := 32 }
def hw (n : Nat) : FrontWrite := { master := .interfaceController, addr := 1048576 + 994, data := ob (hb n) }
def hs (n : Nat) : State :=
  { sw with
    bp.rl := 1048570, bp.held := some (hw n), ri.item := some .filemark, ri.cursor := 1016, ri.fetch := some 1016, sm.free := [2, 3],
    ri.nextSeg := 7, ri.nextRec := 9 }

theorem witness_FrontPortForwards_1 :
    (let ws : List (Option Byte) := [some 1, none, some 3]
     requestWf 512 ws.length = true ∧ s0.bp.held = none ∧
     unwatchedWrite { master := .controlProcessor, addr := 512, data := ws } s0 = true ∧ calm s0 = true ∧
     requestWf 512 64 = true ∧ unwatchedRead 512 s0 = true) ∧
    (let ws : List (Option Byte) := [some 1, none, some 3]
     let s : State := { s0 with bp.held := some fw1 }
     requestWf 512 ws.length = true ∧ s.bp.held.isSome = true) := by
  refine ⟨?_, ?_⟩ <;> decide +kernel

theorem witness_FrontPortForwards_2 :
    (let ws : List (Option Byte) := none :: none :: ob [1,2,3]
     requestWf 250 ws.length = true ∧ 4 < 8 ∧
     ({ master := .controlProcessor, addr := 250, data := ws } : FrontWrite).enables (248 + 4) = true ∧ s0.bp.held = none ∧
     s0.bp.watch = false ∧ calm s0 = true ∧ s0.bp.binding = false) ∧
    (let ws : List (Option Byte) := ob [1,2,3]
     let s : State := { s0 with bp.binding := true }
     requestWf 250 ws.length = true ∧ 2 < 8 ∧
     ({ master := .controlProcessor, addr := 250, data := ws } : FrontWrite).enables (248 + 2) = true ∧ s.bp.held = none ∧
     s.bp.watch = false ∧ calm s = true ∧ s.bp.binding = true) := by
  refine ⟨?_, ?_⟩ <;> decide +kernel

theorem witness_AnchorJudged :
    (let bs : List Byte := List.replicate 256 0
     let s : State := { s0 with bp.anchor := some (List.replicate 256 0) }
     s.bp.anchor = some bs ∧ anchorIntegrity bs = false) ∧
    (let bs : List Byte := anchorB { L0 with stBase := 1048577 }
     let s : State := { s0 with bp.anchor := some (anchorB { L0 with stBase := 1048577 }), bp.rebind := true }
     s.bp.anchor = some bs ∧ anchorIntegrity bs = true ∧
     firstBadRegion (regionsOf (layoutOf bs)) 0 (regionsOf (layoutOf bs)) = some 4) ∧
    (let bs : List Byte := anchorB L0
     let s : State :=
       { s0 with
         bp.anchor := some (anchorB L0), ci.link := { Job.clear with pending := some { tag := 0, op := .load} } }
     s.bp.anchor = some bs ∧ anchorIntegrity bs = true ∧
     firstBadRegion (regionsOf (layoutOf bs)) 0 (regionsOf (layoutOf bs)) = none ∧ s.bp.layout.isSome = true ∧
     adoptionAllowed s = false) ∧
    (let bs : List Byte := anchorB L0
     let s : State :=
       { State.reset with
         bp.anchor := some (anchorB L0), bp.reqs := [readOf 5 5 .slotRead, readOf 6 6 .parityRead, partWrite 6 [1] .record] }
     s.bp.anchor = some bs ∧ anchorIntegrity bs = true ∧
     firstBadRegion (regionsOf (layoutOf bs)) 0 (regionsOf (layoutOf bs)) = none ∧
     (s.bp.layout = none ∨ adoptionAllowed s = true)) := by
  refine ⟨?_, ?_, ?_, ?_⟩ <;> decide +kernel

theorem witness_GrantMovesChosenLine_2 :
    s0.bp.reqs = [] := by decide +kernel

theorem witness_GrantMovesChosenLine_3 :
    (let rs : List Req := []
     let rs2 : List Req := []
     let s : State := { s0 with bp.reqs := [r1] }
     chooseGrant s = some (rs, r1, rs2) ∧ 0 < r1.len ∧ min r1.len (64 - r1.addr % 64) < r1.len ∧ r1.isWrite = true) ∧
    (let rs : List Req := []
     let rs2 : List Req := []
     let s : State := { s0 with bp.reqs := [r2], bp.starve := 5 }
     chooseGrant s = some (rs, r2, rs2) ∧ 0 < r2.len ∧ min r2.len (64 - r2.addr % 64) < r2.len ∧ r2.isWrite = false) ∧
    (let rs : List Req := []
     let rs2 : List Req := []
     let r : Req := { r1 with addr := 1024 }
     let s : State := { s0 with bp.reqs := [{ r1 with addr := 1024 }] }
     chooseGrant s = some (rs, r, rs2) ∧ 0 < r.len ∧ min r.len (64 - r.addr % 64) = r.len ∧ r.isWrite = true ∧ r.what = .plain) ∧
    (let rs : List Req := []
     let rs2 : List Req := []
     let r : Req := { r2 with addr := 1024, cls := .front, what := .frontRead .interfaceController }
     let s : State :=
       { s0 with
         bp.reqs := [{ r2 with addr := 1024, cls := .front, what := .frontRead .interfaceController }], bp.starve := 5 }
     chooseGrant s = some (rs, r, rs2) ∧ 0 < r.len ∧ min r.len (64 - r.addr % 64) = r.len ∧ r.isWrite = false ∧
     r.what = .frontRead .interfaceController) := by
  refine ⟨?_, ?_, ?_, ?_⟩ <;> decide +kernel

theorem witness_StagingWriteJudged :
    (let bs : List (Option Byte) := ob (hb 15)
     let s : State := sw
     requestWf (1048576 + 1489) bs.length = true ∧ s.bp.layout = some L0 ∧ s.bp.watch = true ∧ s.bp.held = none ∧ insideRegion
     L0.stBase L0.z (1048576 + 1489) = true ∧ calm s = true ∧ (L0.z - s.bp.rl < ringDist L0.z (Machine.frontier s) (1048576 +
     1489 - L0.stBase) + bs.length ∨ ringDist L0.z (Machine.frontier s) (1048576 + 1489 - L0.stBase) ≠ 0 ∧ ((List.map (spanFrom
     L0.z (Machine.frontier s)) s.bp.spans).any fun r => decide (r.1 ≤ ringDist L0.z (Machine.frontier s) (1048576 + 1489 -
     L0.stBase) + bs.length) && decide (ringDist L0.z (Machine.frontier s) (1048576 + 1489 - L0.stBase) ≤ r.2)) = false ∧ 8 ≤
     s.bp.spans.length)) ∧
    (let bs : List (Option Byte) := ob (hb 32)
     let s : State := sw
     requestWf (1048576 + 1536) bs.length = true ∧ s.bp.layout = some L0 ∧ s.bp.watch = true ∧ s.bp.held = none ∧ insideRegion
     L0.stBase L0.z (1048576 + 1536) = true ∧ calm s = true ∧ ringDist L0.z (Machine.frontier s) (1048576 + 1536 - L0.stBase) +
     bs.length ≤ L0.z - s.bp.rl ∧ ringDist L0.z (Machine.frontier s) (1048576 + 1536 - L0.stBase) ≠ 0 ∧ (((List.map (spanFrom
     L0.z (Machine.frontier s)) s.bp.spans).any fun r => decide (r.1 ≤ ringDist L0.z (Machine.frontier s) (1048576 + 1536 -
     L0.stBase) + bs.length) && decide (ringDist L0.z (Machine.frontier s) (1048576 + 1536 - L0.stBase) ≤ r.2)) = true ∨
     s.bp.spans.length < 8)) ∧
    (let bs : List (Option Byte) := ob (hb 32)
     let s : State := { sw with bp.spans := [{ start := 1532, stop := 1540 }, { start := 1600, stop := 1604 }] }
     requestWf (1048576 + 1500) bs.length = true ∧ s.bp.layout = some L0 ∧ s.bp.watch = true ∧ s.bp.held = none ∧ insideRegion
     L0.stBase L0.z (1048576 + 1500) = true ∧ calm s = true ∧ ringDist L0.z (Machine.frontier s) (1048576 + 1500 - L0.stBase) +
     bs.length ≤ L0.z - s.bp.rl ∧ ringDist L0.z (Machine.frontier s) (1048576 + 1500 - L0.stBase) = 0 ∧ takesBytes s = false) ∧
    (let bs : List (Option Byte) := some 5 :: none :: ob (hb 6)
     let s : State := { sw with ri.st := .header, ri.hdr := [9, 8] }
     requestWf (1048576 + 1500) bs.length = true ∧ s.bp.layout = some L0 ∧ s.bp.watch = true ∧ s.bp.held = none ∧ insideRegion
     L0.stBase L0.z (1048576 + 1500) = true ∧ calm s = true ∧ (ringDist L0.z (Machine.frontier s) (1048576 + 1500 - L0.stBase) +
     bs.length ≤ L0.z - s.bp.rl ∧ ringDist L0.z (Machine.frontier s) (1048576 + 1500 - L0.stBase) = 0 ∧ s.bp.spans = [] ∧
     s.bp.release < L0.z ∧ s.bp.rl + bs.length < L0.z ∧ s.ri.cursor = Machine.frontier s) ∧ s.ri.st = .header ∧ s.ri.padOwed = 0
     ∧ s.ri.hdr.length + bs.length < 16) ∧
    (let bs : List (Option Byte) := some 5 :: none :: ob (hb 6)
     let s : State := { sw with ri.st := .data, ri.cur := some fr1, ri.raw := [9, 8] }
     requestWf (1048576 + 1500) bs.length = true ∧ s.bp.layout = some L0 ∧ s.bp.watch = true ∧ s.bp.held = none ∧ insideRegion
     L0.stBase L0.z (1048576 + 1500) = true ∧ calm s = true ∧ (ringDist L0.z (Machine.frontier s) (1048576 + 1500 - L0.stBase) +
     bs.length ≤ L0.z - s.bp.rl ∧ ringDist L0.z (Machine.frontier s) (1048576 + 1500 - L0.stBase) = 0 ∧ s.bp.spans = [] ∧
     s.bp.release < L0.z ∧ s.bp.rl + bs.length < L0.z ∧ s.ri.cursor = Machine.frontier s) ∧ s.ri.st = .data ∧ s.ri.cur = some
     fr1 ∧ s.ri.raw.length + bs.length < min 16384 (fr1.len - fr1.placed)) ∧
    (let s : State := hs 23
     s.bp.layout = some L0 ∧ s.bp.watch = true ∧ s.bp.held = some (hw 23) ∧ s.bp.behind = [] ∧ insideRegion L0.stBase L0.z (hw
     23).addr = true ∧ steady s = true ∧ s.wr.flush = none ∧ s.wr.close = false ∧ s.ch.transport ≠ .parked ∧ (¬(s.ch.transport =
     .active ∧ s.mo.mode = some .waitData)) ∧ s.ri.session = .opened ∧ s.ri.st = .placing ∧ s.ri.item = some .filemark ∧
     s.ri.filling = none ∧ s.ri.fetch ≠ none ∧ s.sm.free = [2, 3] ∧ (s.sm.slots.all fun x => decide (x.st ≠ .filling)) = true ∧
     s.bp.release < L0.z ∧ s.bp.rl ≤ L0.z ∧ 16 < s.bp.rl ∧ ringDist L0.z s.bp.release s.ri.cursor = 16 ∧ L0.z - (s.bp.rl - 16) <
     ringDist L0.z (Machine.frontier s) ((hw 23).addr - L0.stBase) + (hw 23).data.length) ∧
    (let s : State := hs 22
     s.bp.layout = some L0 ∧ s.bp.watch = true ∧ s.bp.held = some (hw 22) ∧ s.bp.behind = [] ∧ insideRegion L0.stBase L0.z (hw
     22).addr = true ∧ steady s = true ∧ s.wr.flush = none ∧ s.wr.close = false ∧ s.ch.transport ≠ .parked ∧ (¬(s.ch.transport =
     .active ∧ s.mo.mode = some .waitData)) ∧ s.ri.session = .opened ∧ s.ri.st = .placing ∧ s.ri.item = some .filemark ∧
     s.ri.filling = none ∧ s.ri.fetch ≠ none ∧ s.sm.free = [2, 3] ∧ (s.sm.slots.all fun x => decide (x.st ≠ .filling)) = true ∧
     s.bp.release < L0.z ∧ s.bp.rl ≤ L0.z ∧ 16 < s.bp.rl ∧ ringDist L0.z s.bp.release s.ri.cursor = 16 ∧ ringDist L0.z
     (Machine.frontier s) ((hw 22).addr - L0.stBase) = 0 ∧ (hw 22).data.length ≤ L0.z - (s.bp.rl - 16)) := by
  refine ⟨?_, ?_, ?_, ?_, ?_, ?_, ?_⟩ <;> decide +kernel

theorem witness_HoldExpiryStops :
    let s : State := { s0 with
        bp.held := some fw1, bp.watch := true, ri.session := .opened, ri.st := .header, bp.rl := 100, bp.release := 64,
          li.lastErr := .ok, ri.lastComplete := 4 }
    s.bp.held = some fw1 ∧ fw1.data ≠ [] ∧ s.bp.behind = [] ∧ s.ri.cur = none ∧ s.ri.filling = none ∧ s.wr.flush = none ∧
    s.wr.close = false ∧ cqOpen s = true ∧ s.ch.transport ≠ .parked ∧ s.bp.watch = true ∧ steady s = true ∧ (¬(s.ch.transport =
    .active ∧ s.mo.mode = some .waitData)) := by decide +kernel

theorem witness_DeliveryTailReleasesPieces :
    let s : State := { s0 with bp.pieces := [pc 0 96 .written, pc 96 64 .marked, pc 160 64 .written], bp.occupied := 224 }
    requestWf (2097152 + 64) 32 = true ∧ s.bp.layout = some L0 ∧ insideRegion L0.dlBase L0.zd (2097152 + 64) = true := by decide +kernel

end Requests

namespace Writing

def ws0 : State := nt
  { at_ .active none with
    mo.mode := some .writeStream, mo.pass := 6, mo.count := 1500003, mo.planned := 1500000, mo.v := 184, mo.band := 0,
    ri.session := .opened, ri.st := .header, bp.watch := true, bp.release := 64, ri.cursor := 64, wr.stamp := 9, sp.timer := true,
    he.tally.frames := 5, he.tallyOpen := true, wr.openAsked := true, mo.lastEnd := { pass := 6, count := 1500000 } }
def goods (n : Nat) : List FrameEntry := List.replicate n { st := .good, count := 1 } ++ List.replicate (32 - n)
  { st := .unwritten, count := 0 }
def seg40 (n : Nat) : Slot := { freshSlot .onTape 40 with frames := goods n, f0 := some { pass := 6, count := 1490000 } }
def ws1 : State := putSlot 2 (seg40 23) ws0
def vq (i : Nat) : VerifyEntry :=
  { slot := 2, idx := i, id := { seg := 40, idx := i, placement := 1, stamp := 9 }, isVoid := false }
def ws5 : State := putSlot 5 (freshSlot .sealed 41) (putSlot 2 (seg40 32) { ws0 with wr.verifyQ := [vq 20] })
def tx0 : Transmission := { slot := 2, idx := 28, start := { pass := 6, count := 1499900 }, bytes := [] }
def ck : State :=
  { ws1 with
    wr.rewriteQ := [(2, 21)], he.tally.frames := 4095, he.soft := 20, he.hard := 60, he.clean := .ok, sp.c := 3,
    bp.reqs := [partWrite 5 [3] .plain] }
def de (n : Nat) : DriveEntry :=
  { serial := hb 8, unknown := false, after := true, frames := 1, rewrites := 2, rate := n, heavy := 4, retries := 5 }
def vs (n : Nat) (v : VerifyEntry) : State := putSlot 2
  { seg40 n with
    frames := (goods n).set v.idx { st := .inVerify, count := 1 } } { ws0 with wr.verifyQ := [v, vq 30] }
def rd3 : State := nt
  { at_ .ready none with
    mem := [(16393, 3)], bp.reqs := [readOf 4 4 .stagingFetch, readOf 4 64 .plain], ch.tab := some .isWritable,
    ch.recordHeld := true, ch.eodConfirmed := true, mo.lp := some 0, mo.quality := .locked, mo.locked := true, mo.pass := 1,
    wr.heldF0 := some 3, ri.hdr := hb 2, sp.sum := 4 }
def rd3b : State := { rd3 with bp.reqs := [partWrite 16448 (ones 768) .plain, readOf 4 4 .stagingFetch, readOf 4 64 .plain] }
def E0 : Eod := { seg := 6, firstRec := 50, pos := { pass := 2, count := 60000} }
def rdE : State :=
  { rd3 with
    mem := [(16392, 1), (16393, 3), (16397, 1), (16404, 6), (16408, 50), (16412, 2), (16416, 96), (16417, 234)], mo.lp := some 50 }
def sp0 : StartPoint := { pos := { pass := 1, count := 50000 }, seg := 4, located := true }
def spl : State := nt
  { putSlot 2 { freshSlot .rebuilding 7 with held := (List.replicate 32 true).set 29 false |>.set 30 false, f0 := some { pass := 1, count := 50000 }, frameEnd := some bot } rdE with
    ch.transport := .active, mo.mode := some .readStream, mo.v := 205, rd.user := some .splice, rd.state := .streaming,
    rd.rebuildQ := [2], rd.rebuildGot := List.replicate 917504 0, rd.x := 8, mo.lp := some 3, rd.spliceRec := 3,
    sm.free := [0,1,3,4,5,6,7] }
def spm : State := nt
  { rdE with
    ch.transport := .active, mo.mode := some .backhitch, mo.v := 0, mo.stopping := true,
    mo.legs := [moveLeg .backhitch { pass := 1, count := 48464 } 102], mo.goal := .spliceStand, rd.state := .ending,
    rd.user := some .splice, rd.splice := some 2, rd.spliceAt := some { pass := 1, count := 50000 }, rd.spliceRec := 3,
    sm.slots := (List.replicate 8 (freshSlot .free 0)).set 2 (freshSlot .filling 7), sm.free := [0,1,3,4,5,6,7],
    ci.write := runningNow { tag := 5, op := .writeOpen 32 true }, bp.reqs := [partWrite (4194304 + 2*1048576 + 917440)
    (trailerBytes 7 2 2 50 0) .plain, partWrite (4194304 + 2*1048576 + 917424) (entryBytes 2 true true true false false 30 20)
    .plain, partWrite (4194304 + 2*1048576 + 917424-16) (entryBytes 3 true true true false false 35 30) .plain] }
def wx (c : Cause) (p : Nat) : Context :=
  { cause := c, op := .write, pos := { pass := p, count := 1500000 }, dir := .forward, band := 0, slot := some 2, frame := some 23,
    pending := [], phase := .stream }
def memOf (a : Nat) (bs : List Byte) : List Host.Cell := (bs.zipIdx a).filterMap (fun x => if x.1 = 0 then none else some (x.2, x.1))
def wrec (x : Context) (s : State) : State := nt
  { s with
    mo.pass := x.pos.pass, mo.mode := some .recovery, mo.mask := true, mo.stack := [x], mo.v := 0, mo.wait := .pop,
    bp.reqs := [readOf 40960 64 (.contextPop 1)], mem := memOf 40960 (contextBytes x) }

def tx7 : Transmission := { tx0 with start := { pass := 7, count := 24000 } }

theorem witness_RecoveryEntered_2 :
    (let s : State := { ws1 with re.stallDue := true, wr.verifyQ := [vq 4], wr.rewriteQ := [(2, 3)], mo.goal := .none }
     s.bp.layout = some L0 ∧ s.ch.transport = .active ∧ s.mo.mode = some .writeStream ∧ s.ri.session = .opened ∧ s.mo.recal =
     false ∧ s.he.cleanDist = none ∧ calm s = true ∧ s.mo.mask = false ∧ s.mo.stack = [] ∧ s.mo.pend = [] ∧ s.mo.wait = .none ∧
     s.mo.entry < 4 ∧ s.wr.abandon = none ∧ s.mo.passWait = false ∧ s.mo.goal = .none ∧ s.re.stallDue = true ∧ s.wr.verifyQ =
     [vq 4] ∧ (vq 4).isVoid = false ∧ (slotAt s (vq 4).slot).st = .onTape ∧ ((frameAt s (vq 4).slot (vq 4).idx).count + 0 < 4 ∧
     (slotAt s (vq 4).slot).rewrites < 8) ∧ s.wr.rewriteQ.length < 16 ∧ unmonitored Ev.reelStall s = true) ∧
    (let s : State := { ws1 with wr.rewriteQ := [(2, 23)], mo.count := 1500025 }
     s.bp.layout = some L0 ∧ s.ch.transport = .active ∧ s.mo.mode = some .writeStream ∧ s.ri.session = .opened ∧ s.mo.recal =
     false ∧ s.he.cleanDist = none ∧ calm s = true ∧ s.mo.mask = false ∧ s.mo.stack = [] ∧ s.mo.pend = [] ∧ s.mo.wait = .none ∧
     s.mo.entry < 4 ∧ s.wr.abandon = none ∧ s.mo.passWait = false ∧ s.mo.goal = .none ∧ slotDue s = true ∧ s.wr.pendingEnd =
     .none ∧ s.wr.countBusy = false ∧ s.wr.verifyQ = [] ∧ s.wr.heldF0 = none ∧ s.wr.rewriteQ = [(2, 23)] ∧ 23 ≠ 0 ∧ (slotAt s
     2).st = .onTape ∧ 24 < gapOf s.mo.count s.mo.planned ∧ ((frameAt s 2 23).count + 1 < 4 ∧ (slotAt s 2).rewrites < 8) ∧
     unmonitored Ev.frameWritten s = true ∧ (s.he.tallyOpen = true → min (s.he.tally.frames + 1) 4294967295 % 4096 ≠ 0)) ∧
    (let s : State := { ws1 with
         re.scanDue := true, ch.tape := true, mo.quality := .locked, mo.locked := true, mo.warned := true }
     s.bp.layout = some L0 ∧ s.ch.transport = .active ∧ s.mo.mode = some .writeStream ∧ s.ri.session = .opened ∧ s.mo.recal =
     false ∧ s.he.cleanDist = none ∧ calm s = true ∧ s.mo.mask = false ∧ s.mo.stack = [] ∧ s.mo.pend = [] ∧ s.mo.wait = .none ∧
     s.mo.entry < 4 ∧ s.wr.abandon = none ∧ s.mo.passWait = false ∧ s.mo.goal = .none ∧ s.re.scanDue = true ∧ s.re.brake = false
     ∧ s.ch.tape = true ∧ s.ch.step = none ∧ s.mo.quality = .locked ∧ s.mo.legs = [] ∧ s.wr.verifyQ = [] ∧ s.mo.warned = true ∧
     (Motion.sx 6 3630000).servoPass = s.mo.pass ∧ passed s.mo.pass (Motion.sx 6 3630000).servoCount (regionEnd s.mo.pass) =
     true) ∧
    (let s : State := wrec (wx .endApproach 6) ws0
     s.bp.layout = some L0 ∧ s.ch.transport = .active ∧ s.mo.recal = false ∧ calm s = true ∧ s.mo.wait = .pop ∧
     s.mo.stack.length = 1 ∧ s.mo.mask = true ∧ s.mo.mode = some .recovery ∧ s.mo.redirect = false ∧ s.mo.pend = [] ∧ s.bp.reqs
     = [readOf L0.ctxBase 64 (Purpose.contextPop 1)] ∧ L0.ctxBase % 64 = 0 ∧ contextOf s.sm.slots.length (memReadBytes s.mem
     L0.ctxBase 64) = some (wx Cause.endApproach 6) ∧ (wx Cause.endApproach 6).cause = .endApproach ∧ (wx Cause.endApproach
     6).op = .write ∧ s.ri.session = .opened ∧ s.ri.filling = none ∧ s.mo.pass < 47 ∧ slotsIn isOnTape s = []) ∧
    (let s : State := wrec (wx .endApproach 46) (putSlot 2 (seg40 23) { ws0 with wr.rewriteQ := [(2, 3)] })
     s.bp.layout = some L0 ∧ s.ch.transport = .active ∧ s.mo.recal = false ∧ calm s = true ∧ s.mo.wait = .pop ∧
     s.mo.stack.length = 1 ∧ s.mo.mask = true ∧ s.mo.mode = some .recovery ∧ s.mo.redirect = false ∧ s.mo.pend = [] ∧ s.bp.reqs
     = [readOf L0.ctxBase 64 (Purpose.contextPop 1)] ∧ L0.ctxBase % 64 = 0 ∧ contextOf s.sm.slots.length (memReadBytes s.mem
     L0.ctxBase 64) = some (wx Cause.endApproach 46) ∧ (wx Cause.endApproach 46).cause = .endApproach ∧ (wx Cause.endApproach
     46).op = .write ∧ s.ri.session = .opened ∧ s.ri.filling = none ∧ s.mo.pass < 47 ∧ slotsIn isOnTape s = [2] ∧ (slotAt s
     2).st = .onTape ∧ (slotAt s 2).placement = 1 ∧ s.wr.verifyQ = [] ∧ unmonitored Ev.segmentSkip s = true) ∧
    (let s : State := wrec (wx .endApproach 47) (putSlot 2 (seg40 23) { ws0 with wr.rewriteQ := [(2, 3)] })
     s.bp.layout = some L0 ∧ s.ch.transport = .active ∧ s.mo.recal = false ∧ calm s = true ∧ s.mo.wait = .pop ∧
     s.mo.stack.length = 1 ∧ s.mo.mask = true ∧ s.mo.mode = some .recovery ∧ s.mo.redirect = false ∧ s.mo.pend = [] ∧ s.bp.reqs
     = [readOf L0.ctxBase 64 (Purpose.contextPop 1)] ∧ L0.ctxBase % 64 = 0 ∧ contextOf s.sm.slots.length (memReadBytes s.mem
     L0.ctxBase 64) = some (wx Cause.endApproach 47) ∧ (wx Cause.endApproach 47).cause = .endApproach ∧ (wx Cause.endApproach
     47).op = .write ∧ s.ri.session = .opened ∧ s.ri.filling = none ∧ s.mo.pass = 47 ∧ slotsIn isOnTape s = [2] ∧ (slotAt s
     2).st = .onTape ∧ cqOpen s = true) := by
  refine ⟨?_, ?_, ?_, ?_, ?_, ?_⟩ <;> decide +kernel

theorem witness_FrameSlotTaken_1 :
    (let s : State := ws1
     s.wr.tx = none ∧ calm s = true) ∧
    (let s : State := ws1
     calm s = true ∧ unmonitored Ev.frameWritten s = true ∧ (s.he.tallyOpen = true → min (s.he.tally.frames + 1) 4294967295 %
     4096 ≠ 0) ∧ gapOf s.mo.count s.mo.planned ≤ 24 ∧ slotDue s = true ∧ s.wr.pendingEnd = .none ∧ sessionOpen s = true ∧
     (s.wr.countBusy = false ∧ s.wr.verifyQ.length < 4) ∧ (s.wr.turnWait = true ∨ s.wr.heldF0 = none) ∧ s.wr.rewriteQ = [] ∧
     unwrittenFrame s = some (2, 23) ∧ 23 ≠ 0) ∧
    (let s : State := { ws1 with wr.rewriteQ := [(2, 21)], wr.verifyQ := [vq 20] }
     calm s = true ∧ unmonitored Ev.frameWritten s = true ∧ (s.he.tallyOpen = true → min (s.he.tally.frames + 1) 4294967295 %
     4096 ≠ 0) ∧ gapOf s.mo.count s.mo.planned ≤ 24 ∧ slotDue s = true ∧ s.wr.pendingEnd = .none ∧ sessionOpen s = true ∧
     (s.wr.countBusy = false ∧ s.wr.verifyQ.length < 4) ∧ (s.wr.turnWait = true ∨ s.wr.heldF0 = none) ∧ s.wr.rewriteQ = [(2,
     21)] ∧ (slotAt s 2).st = .onTape) ∧
    (let s : State := ws5
     calm s = true ∧ unmonitored Ev.frameWritten s = true ∧ (s.he.tallyOpen = true → min (s.he.tally.frames + 1) 4294967295 %
     4096 ≠ 0) ∧ gapOf s.mo.count s.mo.planned ≤ 24 ∧ slotDue s = true ∧ s.wr.pendingEnd = .none ∧ sessionOpen s = true ∧
     (s.wr.countBusy = false ∧ s.wr.verifyQ.length < 4) ∧ (s.wr.turnWait = true ∨ s.wr.heldF0 = none) ∧ s.wr.rewriteQ = [] ∧
     ((unwrittenFrame s = some (5, 0) ∧ s.wr.eot = false ∧ s.wr.turnWait = false ∨ unwrittenFrame s = none ∧ sealedFrame0 s =
     some 5 ∧ (frameAt s 5 0).st = .unwritten) ∧ ¬(s.he.clean = .required ∧ s.mo.band ≠ 0 ∧ firstOfStream s = true) ∧
     s.wr.skipStart = none) ∧ s.mo.bandTo.getD s.mo.band = s.sp.c ∧ 2304 ≤ roomAfter s.mo.pass s.mo.planned) ∧
    (let s : State := { ws5 with sp.c := 3 }
     calm s = true ∧ unmonitored Ev.frameWritten s = true ∧ (s.he.tallyOpen = true → min (s.he.tally.frames + 1) 4294967295 %
     4096 ≠ 0) ∧ gapOf s.mo.count s.mo.planned ≤ 24 ∧ slotDue s = true ∧ s.wr.pendingEnd = .none ∧ sessionOpen s = true ∧
     (s.wr.countBusy = false ∧ s.wr.verifyQ.length < 4) ∧ (s.wr.turnWait = true ∨ s.wr.heldF0 = none) ∧ s.wr.rewriteQ = [] ∧
     ((unwrittenFrame s = some (5, 0) ∧ s.wr.eot = false ∧ s.wr.turnWait = false ∨ unwrittenFrame s = none ∧ sealedFrame0 s =
     some 5 ∧ (frameAt s 5 0).st = .unwritten) ∧ ¬(s.he.clean = .required ∧ s.mo.band ≠ 0 ∧ firstOfStream s = true) ∧
     s.wr.skipStart = none) ∧ s.mo.bandTo.getD s.mo.band ≠ s.sp.c ∧ 2304 ≤ roomAfter s.mo.pass (ahead s.mo.pass s.mo.planned
     768)) ∧
    (let s : State := { ws5 with mo.pass := 7, mo.count := 20100, mo.planned := 20103 }
     calm s = true ∧ unmonitored Ev.frameWritten s = true ∧ (s.he.tallyOpen = true → min (s.he.tally.frames + 1) 4294967295 %
     4096 ≠ 0) ∧ gapOf s.mo.count s.mo.planned ≤ 24 ∧ slotDue s = true ∧ s.wr.pendingEnd = .none ∧ sessionOpen s = true ∧
     (s.wr.countBusy = false ∧ s.wr.verifyQ.length < 4) ∧ (s.wr.turnWait = true ∨ s.wr.heldF0 = none) ∧ s.wr.rewriteQ = [] ∧
     ((unwrittenFrame s = some (5, 0) ∧ s.wr.eot = false ∧ s.wr.turnWait = false ∨ unwrittenFrame s = none ∧ sealedFrame0 s =
     some 5 ∧ (frameAt s 5 0).st = .unwritten) ∧ ¬(s.he.clean = .required ∧ s.mo.band ≠ 0 ∧ firstOfStream s = true) ∧
     s.wr.skipStart = none) ∧ s.mo.bandTo.getD s.mo.band = s.sp.c ∧ (¬2304 ≤ roomAfter s.mo.pass s.mo.planned) ∧ s.mo.pass < 47
     ∧ s.wr.verifyQ ≠ []) ∧
    (let s : State := { ws5 with wr.heldF0 := some 5, mo.bandTo := some 4, sp.c := 5, wr.rewriteQ := [(2,21)] }
     calm s = true ∧ unmonitored Ev.frameWritten s = true ∧ (s.he.tallyOpen = true → min (s.he.tally.frames + 1) 4294967295 %
     4096 ≠ 0) ∧ gapOf s.mo.count s.mo.planned ≤ 24 ∧ slotDue s = true ∧ s.wr.pendingEnd = .none ∧ sessionOpen s = true ∧
     (s.wr.countBusy = false ∧ s.wr.verifyQ.length < 4) ∧ s.wr.turnWait = false ∧ (s.wr.heldF0 = some 5 ∧ ((slotAt s 5).st =
     .onTape ∨ (slotAt s 5).st = .sealed ∧ (frameAt s 5 0).st = .unwritten ∧ (List.filter (fun x => isOnTape x.st)
     s.sm.slots).length < 2)) ∧ (s.he.clean ≠ .required ∨ s.mo.bandTo.getD s.mo.band = 0) ∧ 2304 ≤ roomAfter s.mo.pass
     s.mo.planned) ∧
    (let s : State := { ws5 with wr.heldF0 := some 5, mo.bandTo := some 4, he.clean := .required, sp.c := 0 }
     calm s = true ∧ unmonitored Ev.frameWritten s = true ∧ (s.he.tallyOpen = true → min (s.he.tally.frames + 1) 4294967295 %
     4096 ≠ 0) ∧ gapOf s.mo.count s.mo.planned ≤ 24 ∧ slotDue s = true ∧ s.wr.pendingEnd = .none ∧ sessionOpen s = true ∧
     (s.wr.countBusy = false ∧ s.wr.verifyQ.length < 4) ∧ s.wr.turnWait = false ∧ s.wr.heldF0 = some 5 ∧ s.he.clean = .required
     ∧ s.mo.bandTo.getD s.mo.band ≠ 0 ∧ s.sp.c = 0 ∧ s.wr.skipStart = none ∧ 2304 ≤ roomAfter s.mo.pass (ahead s.mo.pass (ahead
     s.mo.pass s.mo.planned 48) 768)) := by
  refine ⟨?_, ?_, ?_, ?_, ?_, ?_, ?_, ?_⟩ <;> decide +kernel

theorem witness_FrameSlotTaken_2 :
    (let s : State := { ws1 with wr.verifyQ := [vq 20, vq 1, vq 2, vq 3] }
     calm s = true ∧ unmonitored Ev.frameWritten s = true ∧ (s.he.tallyOpen = true → min (s.he.tally.frames + 1) 4294967295 %
     4096 ≠ 0) ∧ gapOf s.mo.count s.mo.planned ≤ 24 ∧ slotDue s = true ∧ s.wr.pendingEnd = .none ∧ sessionOpen s = true ∧
     (s.wr.countBusy = true ∨ 4 ≤ s.wr.verifyQ.length)) ∧
    (let s : State := putSlot 2 (seg40 32) { ws0 with wr.verifyQ := [vq 20] }
     calm s = true ∧ unmonitored Ev.frameWritten s = true ∧ (s.he.tallyOpen = true → min (s.he.tally.frames + 1) 4294967295 %
     4096 ≠ 0) ∧ gapOf s.mo.count s.mo.planned ≤ 24 ∧ slotDue s = true ∧ s.wr.pendingEnd = .none ∧ sessionOpen s = true ∧
     (s.wr.countBusy = false ∧ s.wr.verifyQ.length < 4) ∧ (s.wr.turnWait = true ∨ s.wr.heldF0 = none) ∧ (s.wr.rewriteQ = [] ∧
     unwrittenFrame s = none ∧ sealedFrame0 s = none) ∧ s.wr.verifyQ ≠ []) ∧
    (let s : State := putSlot 2 (seg40 32) { ws0 with wr.verifyQ := [] }
     calm s = true ∧ unmonitored Ev.frameWritten s = true ∧ (s.he.tallyOpen = true → min (s.he.tally.frames + 1) 4294967295 %
     4096 ≠ 0) ∧ gapOf s.mo.count s.mo.planned ≤ 24 ∧ slotDue s = true ∧ s.wr.pendingEnd = .none ∧ sessionOpen s = true ∧
     (s.wr.countBusy = false ∧ s.wr.verifyQ.length < 4) ∧ s.wr.turnWait = false ∧ s.wr.heldF0 = none ∧ (s.wr.rewriteQ = [] ∧
     unwrittenFrame s = none ∧ sealedFrame0 s = none) ∧ s.wr.verifyQ = [] ∧ s.ri.session = .opened ∧ s.mo.v ≠ 0) ∧
    (let s : State := { ws1 with wr.tx := some tx0 }
     slotDue s = false) ∧
    (let s : State := { ws1 with wr.tx := some tx0 }
     s.wr.tx = some tx0 ∧ calm s = true ∧ unmonitored Ev.segmentSkip s = true ∧ (s.ch.transport = .active ∧ s.mo.pass =
     tx0.start.pass ∧ reached (tx0.start.pass) s.mo.count (ahead tx0.start.pass tx0.start.count 48) = true) ∧ s.wr.abandon =
     none) ∧
    (let s : State := { ws1 with wr.tx := some tx0, mo.count := 1499910 }
     s.wr.tx = some tx0 ∧ calm s = true ∧ unmonitored Ev.segmentSkip s = true ∧ (¬(s.ch.transport = .active ∧ s.mo.pass =
     tx0.start.pass ∧ reached (tx0.start.pass) s.mo.count (ahead tx0.start.pass tx0.start.count 48) = true))) ∧
    (let s : State := { ws1 with
         wr.tx := some tx0, wr.abandon := some { slot := 2, following := none }, wr.verifyQ := [vq 4, { vq 4 with slot := 3}],
           wr.rewriteQ := [(2,3), (3,4)] }
     s.wr.tx = some tx0 ∧ calm s = true ∧ unmonitored Ev.segmentSkip s = true ∧ (s.ch.transport = .active ∧ s.mo.pass =
     tx0.start.pass ∧ reached (tx0.start.pass) s.mo.count (ahead tx0.start.pass tx0.start.count 48) = true) ∧ s.wr.abandon =
     some { slot := 2, following := none } ∧ s.wr.eot = false ∧ s.mo.band = s.sp.c ∧ (slotAt s 2).st = .onTape ∧ (∀ j ∈ none, j
     ≠ 2 ∧ (slotAt s j).st = .onTape) ∧ 2304 ≤ roomAfter s.mo.pass (ahead (tx0.start.pass) (ahead tx0.start.pass tx0.start.count
     48) 3072)) ∧
    (let s : State := { ws5 with mo.pass := 47, mo.count := 20100, mo.planned := 20103 }
     calm s = true ∧ unmonitored Ev.frameWritten s = true ∧ (s.he.tallyOpen = true → min (s.he.tally.frames + 1) 4294967295 %
     4096 ≠ 0) ∧ gapOf s.mo.count s.mo.planned ≤ 24 ∧ slotDue s = true ∧ s.wr.pendingEnd = .none ∧ sessionOpen s = true ∧
     (s.wr.countBusy = false ∧ s.wr.verifyQ.length < 4) ∧ (s.wr.turnWait = true ∨ s.wr.heldF0 = none) ∧ s.wr.rewriteQ = [] ∧
     ((unwrittenFrame s = some (5, 0) ∧ s.wr.eot = false ∧ s.wr.turnWait = false ∨ unwrittenFrame s = none ∧ sealedFrame0 s =
     some 5 ∧ (frameAt s 5 0).st = .unwritten) ∧ ¬(s.he.clean = .required ∧ s.mo.band ≠ 0 ∧ firstOfStream s = true) ∧
     s.wr.skipStart = none) ∧ s.mo.bandTo.getD s.mo.band = s.sp.c ∧ (¬2304 ≤ roomAfter s.mo.pass s.mo.planned) ∧ 47 ≤ s.mo.pass
     ∧ s.ri.filling = none ∧ cqOpen s = true) := by
  refine ⟨?_, ?_, ?_, ?_, ?_, ?_, ?_, ?_⟩ <;> decide +kernel

theorem witness_FrameSlotTaken_3 :
    (let s : State := putSlot 2 (freshSlot .onTape 40) { ws0 with wr.eot := true, wr.verifyQ := [vq 20] }
     calm s = true ∧ unmonitored Ev.frameWritten s = true ∧ (s.he.tallyOpen = true → min (s.he.tally.frames + 1) 4294967295 %
     4096 ≠ 0) ∧ gapOf s.mo.count s.mo.planned ≤ 24 ∧ slotDue s = true ∧ s.wr.pendingEnd = .none ∧ sessionOpen s = true ∧
     (s.wr.countBusy = false ∧ s.wr.verifyQ.length < 4) ∧ (s.wr.turnWait = true ∨ s.wr.heldF0 = none) ∧ s.wr.rewriteQ = [] ∧
     unwrittenFrame s = some (2, 0) ∧ s.wr.eot = true ∧ followingOf s 2 = none) ∧
    (let s : State := { ws5 with wr.skipStart := some { pass := 6, count := 1503000 } }
     calm s = true ∧ unmonitored Ev.frameWritten s = true ∧ (s.he.tallyOpen = true → min (s.he.tally.frames + 1) 4294967295 %
     4096 ≠ 0) ∧ gapOf s.mo.count s.mo.planned ≤ 24 ∧ slotDue s = true ∧ s.wr.pendingEnd = .none ∧ sessionOpen s = true ∧
     (s.wr.countBusy = false ∧ s.wr.verifyQ.length < 4) ∧ (s.wr.turnWait = true ∨ s.wr.heldF0 = none) ∧ s.wr.rewriteQ = [] ∧
     (unwrittenFrame s = some (5, 0) ∧ s.wr.eot = false ∧ s.wr.turnWait = false ∨ unwrittenFrame s = none ∧ sealedFrame0 s =
     some 5 ∧ (frameAt s 5 0).st = .unwritten) ∧ (¬(s.he.clean = .required ∧ s.mo.band ≠ 0 ∧ firstOfStream s = true)) ∧
     s.mo.bandTo.getD s.mo.band = s.sp.c ∧ s.wr.skipStart = some { pass := 6, count := 1503000 } ∧ (6) = s.mo.pass ∧ reached (6)
     s.mo.planned (1503000) = false ∧ 2304 ≤ roomAfter s.mo.pass (1503000)) ∧
    (let s : State := { ws5 with
         mo.band := 2, he.clean := .required, wr.verifyQ := [], wr.tx := none, mo.planned := (regionStart 6), mo.count :=
           regionStart 6, mo.lastEnd := { pass := 5, count := 20000 } }
     calm s = true ∧ unmonitored Ev.frameWritten s = true ∧ (s.he.tallyOpen = true → min (s.he.tally.frames + 1) 4294967295 %
     4096 ≠ 0) ∧ gapOf s.mo.count s.mo.planned ≤ 24 ∧ slotDue s = true ∧ s.wr.pendingEnd = .none ∧ sessionOpen s = true ∧
     (s.wr.countBusy = false ∧ s.wr.verifyQ.length < 4) ∧ (s.wr.turnWait = true ∨ s.wr.heldF0 = none) ∧ s.wr.rewriteQ = [] ∧
     (unwrittenFrame s = some (5, 0) ∧ s.wr.eot = false ∧ s.wr.turnWait = false ∨ unwrittenFrame s = none ∧ sealedFrame0 s =
     some 5 ∧ (frameAt s 5 0).st = .unwritten) ∧ (s.he.clean = .required ∧ s.mo.band ≠ 0 ∧ firstOfStream s = true) ∧
     s.wr.skipStart = none ∧ s.mo.bandTo = none ∧ s.sp.c = 0 ∧ 2304 ≤ roomAfter s.mo.pass (ahead s.mo.pass (ahead s.mo.pass
     s.mo.planned 48) 768)) ∧
    (let s : State := putSlot 3 { freshSlot .onTape 41 with frames := goods 4 } { ws1 with
         mo.pass := 7, mo.count := 23000, wr.tx := some tx7, wr.abandon := some { slot := 2, following := some 3 },
           wr.verifyQ := [vq 4, { vq 4 with slot := 3 }], wr.rewriteQ := [(2, 3), (3, 4), (4, 5)] }
     s.wr.tx = some tx7 ∧ calm s = true ∧ unmonitored Ev.segmentSkip s = true ∧ (s.ch.transport = .active ∧ s.mo.pass =
     tx7.start.pass ∧ reached (tx7.start.pass) s.mo.count (ahead tx7.start.pass tx7.start.count 48) = true) ∧ s.wr.abandon =
     some { slot := 2, following := some 3 } ∧ s.wr.eot = false ∧ (slotAt s 2).st = .onTape ∧ (∀ j ∈ some 3, j ≠ 2 ∧ (slotAt s
     j).st = .onTape) ∧ roomAfter s.mo.pass (ahead (tx7.start.pass) (ahead tx7.start.pass tx7.start.count 48) 3072) < 2304 ∧
     s.mo.pass < 47) := by
  refine ⟨?_, ?_, ?_, ?_⟩ <;> decide +kernel

theorem witness_CheckpointJudged :
    (let s : State := { ck with he.tally.rewrites := 400, he.history := [de 20, de 30] }
     calm s = true ∧ unmonitored Ev.frameWritten s = true ∧ unmonitored Ev.demotion s = true ∧ gapOf s.mo.count s.mo.planned ≤
     24 ∧ slotDue s = true ∧ s.wr.pendingEnd = .none ∧ s.ri.session = .opened ∧ s.wr.countBusy = false ∧ s.wr.verifyQ.length < 4
     ∧ s.wr.heldF0 = none ∧ s.wr.rewriteQ = [(2, 21)] ∧ (slotAt s 2).st = .onTape ∧ s.he.tallyOpen = true ∧ s.he.tally.frames <
     4294967295 ∧ (s.he.tally.frames + 1) % 4096 = 0 ∧ s.bp.layout = some L0 ∧ cqOpen s = true ∧ (s.he.hard ≤
     s.he.tally.rewrites * 1000 / (s.he.tally.frames + 1) ∧ 2 ≤ (List.filter (fun e => decide (s.he.soft ≤ e.rate)) (List.take 3
     (List.filter (fun e => decide (e.after = true ∧ (e.unknown = true ∨ s.ch.tagUnreadable = true ∨ e.serial ≠ s.cart.serial)))
     s.he.history.reverse))).length) ∧ s.he.clean ≠ .required) ∧
    (let s : State := { ck with he.tally.rewrites := 400, he.history := [de 20, de 30], he.clean := .required }
     calm s = true ∧ unmonitored Ev.frameWritten s = true ∧ unmonitored Ev.demotion s = true ∧ gapOf s.mo.count s.mo.planned ≤
     24 ∧ slotDue s = true ∧ s.wr.pendingEnd = .none ∧ s.ri.session = .opened ∧ s.wr.countBusy = false ∧ s.wr.verifyQ.length < 4
     ∧ s.wr.heldF0 = none ∧ s.wr.rewriteQ = [(2, 21)] ∧ (slotAt s 2).st = .onTape ∧ s.he.tallyOpen = true ∧ s.he.tally.frames <
     4294967295 ∧ (s.he.tally.frames + 1) % 4096 = 0 ∧ s.bp.layout = some L0 ∧ cqOpen s = true ∧ (s.he.hard ≤
     s.he.tally.rewrites * 1000 / (s.he.tally.frames + 1) ∧ 2 ≤ (List.filter (fun e => decide (s.he.soft ≤ e.rate)) (List.take 3
     (List.filter (fun e => decide (e.after = true ∧ (e.unknown = true ∨ s.ch.tagUnreadable = true ∨ e.serial ≠ s.cart.serial)))
     s.he.history.reverse))).length) ∧ s.he.clean = .required) ∧
    (let s : State := { ck with he.tally.rewrites := 100, he.history := [de 20, de 30] }
     calm s = true ∧ unmonitored Ev.frameWritten s = true ∧ unmonitored Ev.demotion s = true ∧ gapOf s.mo.count s.mo.planned ≤
     24 ∧ slotDue s = true ∧ s.wr.pendingEnd = .none ∧ s.ri.session = .opened ∧ s.wr.countBusy = false ∧ s.wr.verifyQ.length < 4
     ∧ s.wr.heldF0 = none ∧ s.wr.rewriteQ = [(2, 21)] ∧ (slotAt s 2).st = .onTape ∧ s.he.tallyOpen = true ∧ s.he.tally.frames <
     4294967295 ∧ (s.he.tally.frames + 1) % 4096 = 0 ∧ s.bp.layout = some L0 ∧ cqOpen s = true ∧ (¬(s.he.hard ≤
     s.he.tally.rewrites * 1000 / (s.he.tally.frames + 1) ∧ 2 ≤ (List.filter (fun e => decide (s.he.soft ≤ e.rate)) (List.take 3
     (List.filter (fun e => decide (e.after = true ∧ (e.unknown = true ∨ s.ch.tagUnreadable = true ∨ e.serial ≠ s.cart.serial)))
     s.he.history.reverse))).length) ∧ s.he.soft ≤ s.he.tally.rewrites * 1000 / (s.he.tally.frames + 1) ∧ 1 ≤ (List.filter (fun
     e => decide (s.he.soft ≤ e.rate)) (List.take 3 (List.filter (fun e => decide (e.after = true ∧ (e.unknown = true ∨
     s.ch.tagUnreadable = true ∨ e.serial ≠ s.cart.serial))) s.he.history.reverse))).length) ∧ s.he.clean = .ok) ∧
    (let s : State := { ck with he.tally.rewrites := 100, he.history := [de 20, de 30], he.clean := .advised }
     calm s = true ∧ unmonitored Ev.frameWritten s = true ∧ unmonitored Ev.demotion s = true ∧ gapOf s.mo.count s.mo.planned ≤
     24 ∧ slotDue s = true ∧ s.wr.pendingEnd = .none ∧ s.ri.session = .opened ∧ s.wr.countBusy = false ∧ s.wr.verifyQ.length < 4
     ∧ s.wr.heldF0 = none ∧ s.wr.rewriteQ = [(2, 21)] ∧ (slotAt s 2).st = .onTape ∧ s.he.tallyOpen = true ∧ s.he.tally.frames <
     4294967295 ∧ (s.he.tally.frames + 1) % 4096 = 0 ∧ s.bp.layout = some L0 ∧ cqOpen s = true ∧ (¬(s.he.hard ≤
     s.he.tally.rewrites * 1000 / (s.he.tally.frames + 1) ∧ 2 ≤ (List.filter (fun e => decide (s.he.soft ≤ e.rate)) (List.take 3
     (List.filter (fun e => decide (e.after = true ∧ (e.unknown = true ∨ s.ch.tagUnreadable = true ∨ e.serial ≠ s.cart.serial)))
     s.he.history.reverse))).length) ∧ s.he.soft ≤ s.he.tally.rewrites * 1000 / (s.he.tally.frames + 1) ∧ 1 ≤ (List.filter (fun
     e => decide (s.he.soft ≤ e.rate)) (List.take 3 (List.filter (fun e => decide (e.after = true ∧ (e.unknown = true ∨
     s.ch.tagUnreadable = true ∨ e.serial ≠ s.cart.serial))) s.he.history.reverse))).length) ∧ s.he.clean ≠ .ok) ∧
    (let s : State := { ck with
         he.tally.rewrites := 400, he.history := [de 5, { de 30 with after := false }], mem := [(16399, 2), (17217, 1), (17218,
           2), (17224, 4), (17228, 4), (17232, 40), (17241, 1), (17248, 4), (17252, 4), (17256, 20)] }
     calm s = true ∧ unmonitored Ev.frameWritten s = true ∧ unmonitored Ev.demotion s = true ∧ gapOf s.mo.count s.mo.planned ≤
     24 ∧ slotDue s = true ∧ s.wr.pendingEnd = .none ∧ s.ri.session = .opened ∧ s.wr.countBusy = false ∧ s.wr.verifyQ.length < 4
     ∧ s.wr.heldF0 = none ∧ s.wr.rewriteQ = [(2, 21)] ∧ (slotAt s 2).st = .onTape ∧ s.he.tallyOpen = true ∧ s.he.tally.frames <
     4294967295 ∧ (s.he.tally.frames + 1) % 4096 = 0 ∧ s.bp.layout = some L0 ∧ cqOpen s = true ∧ (s.he.soft ≤
     s.he.tally.rewrites * 1000 / (s.he.tally.frames + 1) ∧ (List.filter (fun e => decide (s.he.soft ≤ e.rate)) (List.take 3
     (List.filter (fun e => decide (e.after = true ∧ (e.unknown = true ∨ s.ch.tagUnreadable = true ∨ e.serial ≠ s.cart.serial)))
     s.he.history.reverse))).length = 0 ∧ 2 ≤ (List.filter (fun r => decide (s.he.soft ≤ r)) (List.map TagLoad.rate
     s.cart.hist)).length) ∧ s.he.mediaPosted = false ∧ (¬(s.he.hard ≤ s.he.tally.rewrites * 1000 / (s.he.tally.frames + 1) ∧ 2
     ≤ (List.filter (fun e => decide (s.he.soft ≤ e.rate)) (List.take 3 (List.filter (fun e => decide (e.after = true ∧
     (e.unknown = true ∨ s.ch.tagUnreadable = true ∨ e.serial ≠ s.cart.serial))) s.he.history.reverse))).length))) ∧
    (let s : State := { ck with he.tally.rewrites := 10, he.history := [de 20, de 30] }
     calm s = true ∧ unmonitored Ev.frameWritten s = true ∧ unmonitored Ev.demotion s = true ∧ gapOf s.mo.count s.mo.planned ≤
     24 ∧ slotDue s = true ∧ s.wr.pendingEnd = .none ∧ s.ri.session = .opened ∧ s.wr.countBusy = false ∧ s.wr.verifyQ.length < 4
     ∧ s.wr.heldF0 = none ∧ s.wr.rewriteQ = [(2, 21)] ∧ (slotAt s 2).st = .onTape ∧ s.he.tallyOpen = true ∧ s.he.tally.frames <
     4294967295 ∧ (s.he.tally.frames + 1) % 4096 = 0 ∧ s.bp.layout = some L0 ∧ cqOpen s = true ∧ (¬(s.he.hard ≤
     s.he.tally.rewrites * 1000 / (s.he.tally.frames + 1) ∧ 2 ≤ (List.filter (fun e => decide (s.he.soft ≤ e.rate)) (List.take 3
     (List.filter (fun e => decide (e.after = true ∧ (e.unknown = true ∨ s.ch.tagUnreadable = true ∨ e.serial ≠ s.cart.serial)))
     s.he.history.reverse))).length)) ∧ (¬(¬(s.he.hard ≤ s.he.tally.rewrites * 1000 / (s.he.tally.frames + 1) ∧ 2 ≤ (List.filter
     (fun e => decide (s.he.soft ≤ e.rate)) (List.take 3 (List.filter (fun e => decide (e.after = true ∧ (e.unknown = true ∨
     s.ch.tagUnreadable = true ∨ e.serial ≠ s.cart.serial))) s.he.history.reverse))).length) ∧ s.he.soft ≤ s.he.tally.rewrites *
     1000 / (s.he.tally.frames + 1) ∧ 1 ≤ (List.filter (fun e => decide (s.he.soft ≤ e.rate)) (List.take 3 (List.filter (fun e
     => decide (e.after = true ∧ (e.unknown = true ∨ s.ch.tagUnreadable = true ∨ e.serial ≠ s.cart.serial)))
     s.he.history.reverse))).length)) ∧ (¬(s.he.soft ≤ s.he.tally.rewrites * 1000 / (s.he.tally.frames + 1) ∧ (List.filter (fun
     e => decide (s.he.soft ≤ e.rate)) (List.take 3 (List.filter (fun e => decide (e.after = true ∧ (e.unknown = true ∨
     s.ch.tagUnreadable = true ∨ e.serial ≠ s.cart.serial))) s.he.history.reverse))).length = 0 ∧ 2 ≤ (List.filter (fun r =>
     decide (s.he.soft ≤ r)) (List.map TagLoad.rate s.cart.hist)).length) ∨ s.he.mediaPosted = true)) := by
  refine ⟨?_, ?_, ?_, ?_, ?_, ?_⟩ <;> decide +kernel

theorem witness_VerifyResultJudged_1 :
    (let v : VerifyEntry := vq 4
     let id : FrameId := (vq 4).id
     let s : State := vs 20 (vq 4)
     calm s = true ∧ unmonitored Ev.frameRewrite s = true ∧ unmonitored Ev.frameHeavy s = true ∧ (slotAt s v.slot).st ≠ .free ∧
     (s.wr.discard = false ∧ s.wr.verifyQ = v :: [vq 30]) ∧ v.isVoid = false ∧ v.id = id ∧ slotsIn isOnTape s = [v.slot] ∧
     (((slotAt s v.slot).frames.set v.idx ({ frameAt s v.slot v.idx with st := .good })).any fun f => decide (f.st ≠ .good)) =
     true ∧ s.sp.policy.heavy < 20) ∧
    (let v : VerifyEntry := vq 4
     let id : FrameId := (vq 5).id
     let s : State := vs 20 (vq 4)
     calm s = true ∧ unmonitored Ev.frameRewrite s = true ∧ unmonitored Ev.frameHeavy s = true ∧ (slotAt s v.slot).st ≠ .free ∧
     (s.wr.discard = false ∧ s.wr.verifyQ = v :: [vq 30]) ∧ v.isVoid = false ∧ v.id ≠ id ∧ ((frameAt s v.slot v.idx).count < 4 ∧
     (slotAt s v.slot).rewrites < 8 ∧ s.wr.rewriteQ.length < 16)) ∧
    (let v : VerifyEntry := vq 4
     let id : FrameId := (vq 4).id
     let s : State := vs 32 (vq 4)
     steady s = true ∧ s.bp.held = none ∧ fetchDue s = false ∧ s.ch.transport = .active ∧ s.mo.mode = some .writeStream ∧
     s.bp.layout = some L0 ∧ s.wr.discard = false ∧ s.wr.verifyQ = v :: [vq 30] ∧ v.isVoid = false ∧ v.id = id ∧ slotsIn
     isOnTape s = [v.slot] ∧ (slotAt s v.slot).st = .onTape ∧ (((slotAt s v.slot).frames.set v.idx
     ({ frameAt s v.slot v.idx with st := .good })).all fun f => decide (f.st = .good)) = true ∧ s.wr.flush = none ∧ s.wr.close
     = false ∧ (¬(s.wr.openAsked = false ∧ s.ch.tagUnreadable = false))) ∧
    (let v : VerifyEntry := vq 4
     let id : FrameId := (vq 4).id
     let s : State := { vs 32 (vq 4) with wr.openAsked := false }
     steady s = true ∧ s.bp.held = none ∧ fetchDue s = false ∧ s.ch.transport = .active ∧ s.mo.mode = some .writeStream ∧
     s.bp.layout = some L0 ∧ s.wr.discard = false ∧ s.wr.verifyQ = v :: [vq 30] ∧ v.isVoid = false ∧ v.id = id ∧ slotsIn
     isOnTape s = [v.slot] ∧ (slotAt s v.slot).st = .onTape ∧ (((slotAt s v.slot).frames.set v.idx
     ({ frameAt s v.slot v.idx with st := .good })).all fun f => decide (f.st = .good)) = true ∧ s.wr.flush = none ∧ s.wr.close
     = false ∧ (s.wr.openAsked = false ∧ s.ch.tagUnreadable = false)) ∧
    (let s : State := { ws1 with wr.discard := true }
     calm s = true ∧ unmonitored Ev.frameRewrite s = true ∧ unmonitored Ev.frameHeavy s = true ∧ (slotAt s (vq 4).slot).st ≠
     .free ∧ (s.wr.discard = true ∨ s.wr.verifyQ = [])) ∧
    (let s : State := { ws1 with wr.verifyQ := [{ vq 4 with isVoid := true }, vq 30] }
     calm s = true ∧ unmonitored Ev.frameRewrite s = true ∧ unmonitored Ev.frameHeavy s = true ∧ (slotAt s
     ({ vq 4 with isVoid := true }).slot).st ≠ .free ∧ (s.wr.discard = false ∧ s.wr.verifyQ = [{ vq 4 with isVoid := true }, vq
     30]) ∧ ({ vq 4 with isVoid := true }).isVoid = true) ∧
    (let s : State := { vs 20 (vq 4) with wr.tx := some tx0, wr.rewriteQ := List.replicate 16 (2, 7) }
     calm s = true ∧ unmonitored Ev.frameRewrite s = true ∧ unmonitored Ev.frameHeavy s = true ∧ (slotAt s (vq 4).slot).st ≠
     .free ∧ (s.wr.discard = false ∧ s.wr.verifyQ = [vq 4, vq 30]) ∧ (vq 4).isVoid = false ∧ (vq 4).id = (vq 4).id ∧ slotsIn
     isOnTape s = [(vq 4).slot] ∧ (((slotAt s (vq 4).slot).frames.set (vq 4).idx
     ({ frameAt s (vq 4).slot (vq 4).idx with st := .good })).any fun f => decide (f.st ≠ .good)) = true ∧ 9 ≤ s.sp.policy.heavy
     ∧ (¬((frameAt s (vq 4).slot (vq 4).idx).count < 4 ∧ (slotAt s (vq 4).slot).rewrites < 8 ∧ s.wr.rewriteQ.length < 16)) ∧
     s.wr.eot = false ∧ (slotAt s (vq 4).slot).placement = 1 ∧ s.wr.tx.isSome = true) ∧
    (let s : State := putSlot 2 { slotAt (vs 20 (vq 4)) 2 with placement := 2, rewrites := 8 } { vs 20 (vq 4) with
         wr.rewriteQ := [(2, 9)], wr.tx := some tx0 }
     calm s = true ∧ unmonitored Ev.frameRewrite s = true ∧ unmonitored Ev.frameHeavy s = true ∧ (slotAt s (vq 4).slot).st ≠
     .free ∧ (s.wr.discard = false ∧ s.wr.verifyQ = [vq 4, vq 30]) ∧ (vq 4).isVoid = false ∧ (¬((frameAt s (vq 4).slot (vq
     4).idx).count < 4 ∧ (slotAt s (vq 4).slot).rewrites < 8 ∧ s.wr.rewriteQ.length < 16)) ∧ slotsIn isOnTape s = [(vq 4).slot]
     ∧ s.wr.eot = false ∧ (slotAt s (vq 4).slot).placement = 2 ∧ s.ri.session = .opened ∧ s.ri.filling = none ∧ cqOpen s = true
     ∧ unmonitored Ev.writeError s = true ∧ s.ch.transport = .active ∧ s.mo.mode = some .writeStream ∧ s.mo.mask = false ∧
     s.mo.v ≠ 0) := by
  refine ⟨?_, ?_, ?_, ?_, ?_, ?_, ?_, ?_⟩ <;> decide +kernel

theorem witness_VerifyResultJudged_2 :
    (let s : State := { vs 32 (vq 4) with wr.flush := some (some 41), ci.write := runningNow { tag := 7, op := .flush } }
     steady s = true ∧ s.bp.held = none ∧ fetchDue s = false ∧ s.ch.transport = .active ∧ s.mo.mode = some .writeStream ∧
     s.bp.layout = some L0 ∧ s.wr.discard = false ∧ s.wr.verifyQ = [vq 4, vq 30] ∧ (vq 4).isVoid = false ∧ (vq 4).id = (vq 4).id
     ∧ slotsIn isOnTape s = [(vq 4).slot] ∧ (slotAt s (vq 4).slot).st = .onTape ∧ (((slotAt s (vq 4).slot).frames.set (vq 4).idx
     ({ frameAt s (vq 4).slot (vq 4).idx with st := .good })).all fun f => decide (f.st = .good)) = true ∧ (s.wr.close = false ∧
     s.wr.flush = some (some 41) ∧ s.ri.session = .opened) ∧ (s.ci.write = runningNow { tag := 7, op := .flush } ∧ cqOpen s =
     true ∧ s.pw.cancelled = none ∧ s.ci.state ≠ .stalled JobId.write ∧ (slotAt s (vq 4).slot).seg < 4294967295) ∧
     (¬(s.wr.openAsked = false ∧ s.ch.tagUnreadable = false)) ∧ 41 ≤ (slotAt s (vq 4).slot).seg + 1) ∧
    (let s : State := { vs 32 (vq 4) with wr.flush := some (some 42), ci.write := runningNow { tag := 7, op := .flush } }
     steady s = true ∧ s.bp.held = none ∧ fetchDue s = false ∧ s.ch.transport = .active ∧ s.mo.mode = some .writeStream ∧
     s.bp.layout = some L0 ∧ s.wr.discard = false ∧ s.wr.verifyQ = [vq 4, vq 30] ∧ (vq 4).isVoid = false ∧ (vq 4).id = (vq 4).id
     ∧ slotsIn isOnTape s = [(vq 4).slot] ∧ (slotAt s (vq 4).slot).st = .onTape ∧ (((slotAt s (vq 4).slot).frames.set (vq 4).idx
     ({ frameAt s (vq 4).slot (vq 4).idx with st := .good })).all fun f => decide (f.st = .good)) = true ∧ (s.wr.close = false ∧
     s.wr.flush = some (some 42) ∧ s.ri.session = .opened) ∧ (s.ci.write = runningNow { tag := 7, op := .flush } ∧ cqOpen s =
     true ∧ s.pw.cancelled = none ∧ s.ci.state ≠ .stalled JobId.write ∧ (slotAt s (vq 4).slot).seg < 4294967295) ∧
     (¬(s.wr.openAsked = false ∧ s.ch.tagUnreadable = false)) ∧ (slotAt s (vq 4).slot).seg + 1 < 42) ∧
    (let s : State := nt { vs 32 (vq 4) with
         wr.close := true, ri.session := .closing, ri.st := .idle, ci.write := runningNow { tag := 7, op := .writeClose } }
     steady s = true ∧ s.bp.held = none ∧ fetchDue s = false ∧ s.ch.transport = .active ∧ s.mo.mode = some .writeStream ∧
     s.bp.layout = some L0 ∧ s.wr.discard = false ∧ s.wr.verifyQ = [vq 4, vq 30] ∧ (vq 4).isVoid = false ∧ (vq 4).id = (vq 4).id
     ∧ slotsIn isOnTape s = [(vq 4).slot] ∧ (slotAt s (vq 4).slot).st = .onTape ∧ (((slotAt s (vq 4).slot).frames.set (vq 4).idx
     ({ frameAt s (vq 4).slot (vq 4).idx with st := .good })).all fun f => decide (f.st = .good)) = true ∧ (s.wr.flush = none ∧
     s.wr.close = true ∧ s.ri.session = .closing ∧ s.ri.st = .idle ∧ s.ri.filling = none ∧ slotsIn isWriteBusy s = [(vq
     4).slot]) ∧ (s.ci.write = runningNow { tag := 7, op := .writeClose } ∧ cqOpen s = true ∧ s.pw.cancelled = none ∧ s.ci.state
     ≠ .stalled JobId.write ∧ (slotAt s (vq 4).slot).seg < 4294967295) ∧ (¬(s.wr.openAsked = false ∧ s.ch.tagUnreadable =
     false))) := by
  refine ⟨?_, ?_, ?_⟩ <;> decide +kernel

theorem witness_WriteOpenJudged_1 :
    (let s : State := rd3b
     s.bp.layout = some L0 ∧ placeOpen JobId.write s = true ∧ dwellSteady s = true ∧ steady s = true ∧ s.bp.held = none ∧
     s.wr.flush = none ∧ s.wr.close = false ∧ fetchDue s = false ∧ intakeWaits s = false ∧ (¬(s.ch.transport = .active ∧
     s.mo.mode = some .waitData)) ∧ slotsIn isOnTape s = [] ∧ (32 % 16 = 0 ∧ 32 < L0.z) ∧ (s.ch.transport = .ready ∧
     s.pw.settling = false ∧ s.re.brake = false ∧ sealedCount s < s.sp.policy.restart) ∧ (s.ri.session = .closed ∧ s.ci.read =
     Job.clear ∧ writable s = true) ∧ (s.mo.lp = some 0 ∧ s.cart.eod = none ∧ s.cart.marks = [] ∧ s.cart.passes.all
     Option.isNone = true)) ∧
    (let s : State := nt { rd3b with ch.transport := .seated }
     s.bp.layout = some L0 ∧ placeOpen JobId.write s = true ∧ dwellSteady s = true ∧ steady s = true ∧ s.bp.held = none ∧
     s.wr.flush = none ∧ s.wr.close = false ∧ fetchDue s = false ∧ intakeWaits s = false ∧ (¬(s.ch.transport = .active ∧
     s.mo.mode = some .waitData)) ∧ slotsIn isOnTape s = [] ∧ (32 % 16 = 0 ∧ 32 < L0.z) ∧ (¬(s.ch.transport = .ready ∨
     s.ch.transport = .parked))) ∧
    (let s : State := nt { rd3b with ch.transport := .parked }
     s.bp.layout = some L0 ∧ placeOpen JobId.write s = true ∧ dwellSteady s = true ∧ steady s = true ∧ s.bp.held = none ∧
     s.wr.flush = none ∧ s.wr.close = false ∧ fetchDue s = false ∧ intakeWaits s = false ∧ (¬(s.ch.transport = .active ∧
     s.mo.mode = some .waitData)) ∧ slotsIn isOnTape s = [] ∧ (32 % 16 = 0 ∧ 32 < L0.z) ∧ s.ch.transport = .parked ∧
     (s.ri.session = .closed ∧ s.ci.read = Job.clear ∧ writable s = true) ∧ (s.mo.lp = some 0 ∧ s.cart.eod = none ∧ s.cart.marks
     = [] ∧ s.cart.passes.all Option.isNone = true)) ∧
    (let s : State := nt { rdE with ch.transport := .parked }
     s.bp.layout = some L0 ∧ placeOpen JobId.write s = true ∧ dwellSteady s = true ∧ steady s = true ∧ s.bp.held = none ∧
     s.wr.flush = none ∧ s.wr.close = false ∧ fetchDue s = false ∧ intakeWaits s = false ∧ (¬(s.ch.transport = .active ∧
     s.mo.mode = some .waitData)) ∧ slotsIn isOnTape s = [] ∧ (32 % 16 = 0 ∧ 32 < L0.z) ∧ s.ch.transport = .parked ∧
     (s.ri.session = .closed ∧ s.ci.read = Job.clear ∧ writable s = true) ∧ (s.mo.lp = some 50 ∧ s.cart.eod = some E0 ∧ 50 =
     E0.firstRec)) ∧
    (let s : State := rdE
     s.bp.layout = some L0 ∧ placeOpen JobId.write s = true ∧ dwellSteady s = true ∧ steady s = true ∧ s.bp.held = none ∧
     s.wr.flush = none ∧ s.wr.close = false ∧ fetchDue s = false ∧ intakeWaits s = false ∧ (¬(s.ch.transport = .active ∧
     s.mo.mode = some .waitData)) ∧ slotsIn isOnTape s = [] ∧ (32 % 16 = 0 ∧ 32 < L0.z) ∧ (s.ch.transport = .ready ∧
     s.pw.settling = false ∧ s.re.brake = false ∧ sealedCount s < s.sp.policy.restart) ∧ (s.ri.session = .closed ∧ s.ci.read =
     Job.clear ∧ writable s = true) ∧ (s.mo.lp = some 50 ∧ s.cart.eod = some E0 ∧ 50 = E0.firstRec)) ∧
    (let s : State := rdE
     cqOpen s = true ∧ s.wr.openBusy = false ∧ s.wr.countBusy = false) ∧
    (let s : State := { rd3b with ch.eodConfirmed := false }
     s.bp.layout = some L0 ∧ placeOpen JobId.write s = true ∧ dwellSteady s = true ∧ steady s = true ∧ s.bp.held = none ∧
     s.wr.flush = none ∧ s.wr.close = false ∧ fetchDue s = false ∧ intakeWaits s = false ∧ (¬(s.ch.transport = .active ∧
     s.mo.mode = some .waitData)) ∧ slotsIn isOnTape s = [] ∧ (32 % 16 = 0 ∧ 32 < L0.z) ∧ (s.ch.transport = .ready ∨
     s.ch.transport = .parked) ∧ s.ri.session = .closed ∧ s.ci.read = Job.clear ∧ writable s = false) ∧
    (let s : State := { rd3b with mo.lp := none }
     s.bp.layout = some L0 ∧ placeOpen JobId.write s = true ∧ dwellSteady s = true ∧ steady s = true ∧ s.bp.held = none ∧
     s.wr.flush = none ∧ s.wr.close = false ∧ fetchDue s = false ∧ intakeWaits s = false ∧ (¬(s.ch.transport = .active ∧
     s.mo.mode = some .waitData)) ∧ slotsIn isOnTape s = [] ∧ (32 % 16 = 0 ∧ 32 < L0.z) ∧ (s.ch.transport = .ready ∨
     s.ch.transport = .parked) ∧ (s.ri.session = .closed ∧ s.ci.read = Job.clear ∧ writable s = true) ∧ s.mo.lp = none) := by
  refine ⟨?_, ?_, ?_, ?_, ?_, ?_, ?_, ?_⟩ <;> decide +kernel

theorem witness_WriteOpenJudged_2 :
    (let s : State := { rd3b with ci.read := runningNow { tag := 3, op := .readRecords 9 } }
     s.bp.layout = some L0 ∧ placeOpen JobId.write s = true ∧ dwellSteady s = true ∧ steady s = true ∧ s.bp.held = none ∧
     s.wr.flush = none ∧ s.wr.close = false ∧ fetchDue s = false ∧ intakeWaits s = false ∧ (¬(s.ch.transport = .active ∧
     s.mo.mode = some .waitData)) ∧ slotsIn isOnTape s = [] ∧ (32 % 16 = 0 ∧ 32 < L0.z) ∧ (s.ch.transport = .ready ∨
     s.ch.transport = .parked) ∧ s.ri.session = .closed ∧ s.ci.read = runningNow { tag := 3, op := .readRecords 9 }) ∧
    (let s : State := { rd3b with ri.session := .error, ri.err := some .writeError }
     s.bp.layout = some L0 ∧ placeOpen JobId.write s = true ∧ dwellSteady s = true ∧ steady s = true ∧ s.bp.held = none ∧
     s.wr.flush = none ∧ s.wr.close = false ∧ fetchDue s = false ∧ intakeWaits s = false ∧ (¬(s.ch.transport = .active ∧
     s.mo.mode = some .waitData)) ∧ slotsIn isOnTape s = [] ∧ (32 % 16 = 0 ∧ 32 < L0.z) ∧ (s.ch.transport = .ready ∨
     s.ch.transport = .parked) ∧ sessionOpen s = true) ∧
    (let s : State := { rd3 with wr.openBusy := true }
     s.bp.layout = some L0 ∧ placeOpen JobId.write s = true ∧ dwellSteady s = true ∧ steady s = true ∧ s.bp.held = none ∧
     s.wr.flush = none ∧ s.wr.close = false ∧ fetchDue s = false ∧ intakeWaits s = false ∧ (¬(s.ch.transport = .active ∧
     s.mo.mode = some .waitData)) ∧ slotsIn isOnTape s = [] ∧ (¬(33 % 16 = 0 ∧ 33 < L0.z))) ∧
    (let s : State := { rd3 with wr.openBusy := true }
     cqOpen s = true ∧ s.wr.openBusy = true) ∧
    (let s : State := { rd3 with wr.countBusy := true }
     cqOpen s = true ∧ s.wr.countBusy = true) := by
  refine ⟨?_, ?_, ?_, ?_, ?_⟩ <;> decide +kernel

theorem witness_SpliceOpens_1 :
    (let s : State := { rdE with mo.lp := some 3, rd.start := some sp0, mo.count := 60000, pw.dwell := true }
     s.bp.layout = some L0 ∧ placeOpen JobId.write s = true ∧ dwellSteady s = true ∧ quiet s = true ∧ intakeWaits s = false ∧
     s.ci.read = Job.clear ∧ 32 % 16 = 0 ∧ 32 < L0.z ∧ s.ch.transport = .ready ∧ s.pw.settling = false ∧ s.re.brake = false ∧
     writable s = true ∧ s.mo.lp = some 3 ∧ 3 ≠ 0 ∧ s.cart.eod = some E0 ∧ 3 ≠ E0.firstRec ∧ s.rd.start = some sp0 ∧ sp0.located
     = true ∧ s.mo.mask = false ∧ s.mo.v = 0 ∧ stands s = true ∧ s.mo.pass = sp0.pos.pass ∧ (standing sp0.pos).count <
     s.mo.count) ∧
    (let s : State := spm
     s.bp.layout = some L0 ∧ quiet s = true ∧ s.ci.write = runningNow { tag := 5, op := .writeOpen 32 true } ∧ cqOpen s = true ∧
     (s.pw.cancelled = none ∨ s.pw.cancelled = some .write) ∧ s.ci.state ≠ .stalled JobId.write ∧ 32 < L0.z ∧ s.ch.transport =
     .active ∧ s.mo.stopping = true ∧ atRest s = true ∧ s.mo.legs = [moveLeg MotionMode.backhitch { pass := 1, count := 48464 }
     102] ∧ (moveLeg MotionMode.backhitch { pass := 1, count := 48464 } 102).target = some 48464 ∧ s.mo.goal = .spliceStand ∧
     s.rd.splice = some 2 ∧ s.rd.spliceAt = some { pass := 1, count := 50000 } ∧ sealedCount s < s.sp.policy.restart ∧
     s.re.brake = false ∧ slotsIn isOnTape s = [] ∧ (keptEntries s 2 s.rd.spliceRec 1024 0 0).1 < trailerEntries (slotTrailer s
     2) ∧ (keptEntries s 2 s.rd.spliceRec 1024 0 0).1 < 1024) := by
  refine ⟨?_, ?_⟩ <;> decide +kernel

theorem witness_SpliceOpens_2 :
    let s : State := { spl with bp.reqs := [partWrite (4194304 + 2*1048576 + 917440) (trailerBytes 7 2 1 20 0) .plain] }
    s.rd.rebuildGot.length = 917504 ∧ s.rd.rebuildQ = [2] ∧ s.rd.user = some .splice ∧ calm s = true ∧ readSlots s = [2] ∧
    slotsIn isFilling s = [] ∧ (slotAt s 2).f0 = some { pass := 1, count := 50000 } ∧ s.ch.tagUnreadable = false ∧ s.mo.mask =
    false ∧ s.ch.transport = .active ∧ s.mo.mode = some .readStream ∧ s.mo.v ≠ 0 ∧ trailerGood (slotTrailer (rebuildFrames 2
    s.rd.rebuildGot s) 2) (slotAt s 2).seg = true :=
  ⟨List.length_replicate, by decide +kernel⟩

end Writing

namespace Intake

def fs0 : State := nt
  { at_ .active none with
    mo.mode := some .writeStream, ri.session := .opened, ri.st := .header, bp.watch := true, bp.release := 1048570, bp.rl := 8,
    ri.cursor := 1048570, ri.fetch := some 1048570, ri.hdr := [0,64,0,0], ri.history := hb 3, he.clean := .ok, sp.timer := true,
    ri.nextRec := 5, cq.c := 3 }
def hd (len kind st : Nat) : List Byte := leBytes 4 len ++ leBytes 4 kind ++ leBytes 2 st ++ List.replicate 6 0
def fr0 : RecordInProgress := { num := 5, len := 40, placed := 32 }
def fh (len kind st : Nat) : State := { fs0 with ri.fetched := some ((hd len kind st).drop 8), ri.hdr := (hd len kind st).take 8 }
def cp0 : State :=
  { fs0 with
    ri.st := .placing, ri.item := some (.chunk 8 8 true), ri.chunkBuf := hb 8, ri.cur := some fr0, ri.filling := some 2, ri.e := 3,
    ri.u := 400, ri.cursor := 2, sp.sum := 4294967290, ri.fetch := none, ri.hdr := [] }
def rc : State := { cp0 with ri.st := .recompress, ri.item := some (.chunk 8 0 false), ri.refetched := hb 8 }
def ss0 : State := nt
  { at_ .active none with
    mo.mode := some .writeStream, mo.pass := 6, mo.count := 1500003, mo.planned := 1500000, mo.v := 184, ri.session := .opened,
    ri.st := .header, ri.hdr := [1], bp.watch := true, bp.release := 64, ri.cursor := 66, bp.rl := 2, wr.stamp := 9,
    sp.timer := true, sp.dwellOn := true, sp.dwellCount := 4, ri.u := 4, ri.nextSeg := 3, he.clean := .ok }
def iv : State :=
  { ss0 with
    sp.hist := [0,0,0,0,0,0,0,0], sp.sum := 6000000, sp.resid := List.replicate 8 3, sp.dwellOn := true, sp.dwellHigh := 1,
    sp.dwellCount := 4 }

theorem witness_SessionCommands_timer :
    let s : State := { iv with sp.timer := false }
    s.sp.timer = false := by decide +kernel

theorem witness_IntervalDecidesBand :
    (iv.sp.timer = true ∧ (iv.sp.c < if iv.he.clean = .required then 0 else max iv.sp.policy.bandMin (min (if highMark iv ≤
     (List.filter (fun k => decide (k.st = .sealed)) iv.sm.slots).length then min (baseBand (min ((List.drop 1 (iv.sp.hist ++
     [iv.sp.sum])).sum * 15 / 131072) 65535) + 1) 7 else if (List.filter (fun k => decide (k.st = .sealed))
     iv.sm.slots).length ≤ 1 then baseBand (min ((List.drop 1 (iv.sp.hist ++ [iv.sp.sum])).sum * 15 / 131072) 65535) - 1 else
     baseBand (min ((List.drop 1 (iv.sp.hist ++ [iv.sp.sum])).sum * 15 / 131072) 65535)) iv.sp.policy.bandMax)) ∧
     iv.sp.promo ≠ 1) ∧
    (let s : State := { iv with sp.promo := 1 }
     s.sp.timer = true ∧ (s.sp.c < if s.he.clean = .required then 0 else max s.sp.policy.bandMin (min (if highMark s ≤
     (List.filter (fun k => decide (k.st = .sealed)) s.sm.slots).length then min (baseBand (min ((List.drop 1 (s.sp.hist ++
     [s.sp.sum])).sum * 15 / 131072) 65535) + 1) 7 else if (List.filter (fun k => decide (k.st = .sealed)) s.sm.slots).length
     ≤ 1 then baseBand (min ((List.drop 1 (s.sp.hist ++ [s.sp.sum])).sum * 15 / 131072) 65535) - 1 else baseBand (min
     ((List.drop 1 (s.sp.hist ++ [s.sp.sum])).sum * 15 / 131072) 65535)) s.sp.policy.bandMax)) ∧ s.sp.promo = 1) ∧
    (let s : State := { iv with sp.c := 6 }
     s.sp.timer = true ∧ ((if s.he.clean = .required then 0 else max s.sp.policy.bandMin (min (if highMark s ≤ (List.filter
     (fun k => decide (k.st = .sealed)) s.sm.slots).length then min (baseBand (min ((List.drop 1 (s.sp.hist ++
     [s.sp.sum])).sum * 15 / 131072) 65535) + 1) 7 else if (List.filter (fun k => decide (k.st = .sealed)) s.sm.slots).length
     ≤ 1 then baseBand (min ((List.drop 1 (s.sp.hist ++ [s.sp.sum])).sum * 15 / 131072) 65535) - 1 else baseBand (min
     ((List.drop 1 (s.sp.hist ++ [s.sp.sum])).sum * 15 / 131072) 65535)) s.sp.policy.bandMax)) < s.sp.c) ∧
     s.sp.dwellOn = true ∧ s.sp.dwellCount + 1 < s.sp.policy.dwell) ∧
    (let s : State := { iv with sp.c := 6, sp.dwellCount := 9 }
     s.sp.timer = true ∧ ((if s.he.clean = .required then 0 else max s.sp.policy.bandMin (min (if highMark s ≤ (List.filter
     (fun k => decide (k.st = .sealed)) s.sm.slots).length then min (baseBand (min ((List.drop 1 (s.sp.hist ++
     [s.sp.sum])).sum * 15 / 131072) 65535) + 1) 7 else if (List.filter (fun k => decide (k.st = .sealed)) s.sm.slots).length
     ≤ 1 then baseBand (min ((List.drop 1 (s.sp.hist ++ [s.sp.sum])).sum * 15 / 131072) 65535) - 1 else baseBand (min
     ((List.drop 1 (s.sp.hist ++ [s.sp.sum])).sum * 15 / 131072) 65535)) s.sp.policy.bandMax)) < s.sp.c) ∧
     s.sp.dwellOn = true ∧ s.sp.policy.dwell ≤ s.sp.dwellCount + 1) ∧
    (let s : State := { iv with sp.c := 6, sp.dwellOn := false }
     s.sp.timer = true ∧ ((if s.he.clean = .required then 0 else max s.sp.policy.bandMin (min (if highMark s ≤ (List.filter
     (fun k => decide (k.st = .sealed)) s.sm.slots).length then min (baseBand (min ((List.drop 1 (s.sp.hist ++
     [s.sp.sum])).sum * 15 / 131072) 65535) + 1) 7 else if (List.filter (fun k => decide (k.st = .sealed)) s.sm.slots).length
     ≤ 1 then baseBand (min ((List.drop 1 (s.sp.hist ++ [s.sp.sum])).sum * 15 / 131072) 65535) - 1 else baseBand (min
     ((List.drop 1 (s.sp.hist ++ [s.sp.sum])).sum * 15 / 131072) 65535)) s.sp.policy.bandMax)) < s.sp.c) ∧
     s.sp.dwellOn = false) ∧
    (let s : State := { iv with sp.c := 0, sp.dwellOn := false, sp.sum := 0 }
     s.sp.timer = true ∧ (s.sp.c = if s.he.clean = .required then 0 else max s.sp.policy.bandMin (min (if highMark s ≤
     (List.filter (fun k => decide (k.st = .sealed)) s.sm.slots).length then min (baseBand (min ((List.drop 1 (s.sp.hist ++
     [s.sp.sum])).sum * 15 / 131072) 65535) + 1) 7 else if (List.filter (fun k => decide (k.st = .sealed)) s.sm.slots).length
     ≤ 1 then baseBand (min ((List.drop 1 (s.sp.hist ++ [s.sp.sum])).sum * 15 / 131072) 65535) - 1 else baseBand (min
     ((List.drop 1 (s.sp.hist ++ [s.sp.sum])).sum * 15 / 131072) 65535)) s.sp.policy.bandMax))) := by
  refine ⟨?_, ?_, ?_, ?_, ?_, ?_⟩ <;> decide +kernel

theorem witness_FetchedBytesConsumed_1 :
    (let bs : List Byte := hb 8
     let s : State := { fs0 with ri.fetched := some (hb 8) }
     s.ri.fetch = some s.ri.cursor ∧ s.ri.fetched = some bs ∧ bs ≠ [] ∧ s.bp.layout = some L0 ∧ s.bp.release < L0.z ∧ s.bp.rl ≤
     L0.z ∧ available s = bs.length ∧ calm s = true ∧ s.ri.session = .opened ∧ s.ri.padOwed = 0 ∧ ((s.sm.slots.all fun x =>
     decide (x.st ≠ .filling)) = true ∨ s.ri.filling ≠ none) ∧ s.ri.st = .header ∧ (s.ri.hdr ++ bs).length < 16) ∧
    (let bs : List Byte := (hd 40 1 5).drop 8
     let s : State := fh 40 1 5
     s.ri.fetch = some s.ri.cursor ∧ s.ri.fetched = some bs ∧ bs ≠ [] ∧ s.bp.layout = some L0 ∧ s.bp.release < L0.z ∧ s.bp.rl ≤
     L0.z ∧ available s = bs.length ∧ calm s = true ∧ s.ri.session = .opened ∧ s.ri.padOwed = 0 ∧ ((s.sm.slots.all fun x =>
     decide (x.st ≠ .filling)) = true ∨ s.ri.filling ≠ none) ∧ (s.ri.st = .header ∧ (s.ri.hdr ++ bs).length = 16) ∧ field
     (s.ri.hdr ++ bs) 8 2 = s.ri.nextRec % 65536 ∧ field (s.ri.hdr ++ bs) 4 1 = 1 ∧ 0 < field (s.ri.hdr ++ bs) 0 4 ∧ field
     (s.ri.hdr ++ bs) 0 4 ≤ 16777216) ∧
    (let bs : List Byte := (hd 40 1 6).drop 8
     let s : State := fh 40 1 6
     s.ri.fetch = some s.ri.cursor ∧ s.ri.fetched = some bs ∧ bs ≠ [] ∧ s.bp.layout = some L0 ∧ s.bp.release < L0.z ∧ s.bp.rl ≤
     L0.z ∧ available s = bs.length ∧ calm s = true ∧ s.ri.session = .opened ∧ s.ri.padOwed = 0 ∧ ((s.sm.slots.all fun x =>
     decide (x.st ≠ .filling)) = true ∨ s.ri.filling ≠ none) ∧ (s.ri.st = .header ∧ (s.ri.hdr ++ bs).length = 16) ∧ s.ri.cur =
     none ∧ s.ri.filling = none ∧ cqOpen s = true ∧ (¬field (s.ri.hdr ++ bs) 8 2 = s.ri.nextRec % 65536 ∨ field (s.ri.hdr ++ bs)
     4 1 ≠ 1 ∧ field (s.ri.hdr ++ bs) 4 1 ≠ 2 ∨ field (s.ri.hdr ++ bs) 4 1 = 1 ∧ (field (s.ri.hdr ++ bs) 0 4 = 0 ∨ 16777216 <
     field (s.ri.hdr ++ bs) 0 4) ∨ field (s.ri.hdr ++ bs) 4 1 = 2 ∧ field (s.ri.hdr ++ bs) 0 4 ≠ 0)) ∧
    (let bs : List Byte := (hd 0 2 5).drop 8
     let s : State := { fh 0 2 5 with ri.filling := some 3, ri.e := 2, ri.u := 500 }
     s.ri.fetch = some s.ri.cursor ∧ s.ri.fetched = some bs ∧ bs ≠ [] ∧ s.bp.layout = some L0 ∧ s.bp.release < L0.z ∧ s.bp.rl ≤
     L0.z ∧ available s = bs.length ∧ calm s = true ∧ s.ri.session = .opened ∧ s.ri.padOwed = 0 ∧ ((s.sm.slots.all fun x =>
     decide (x.st ≠ .filling)) = true ∨ s.ri.filling ≠ none) ∧ ((s.ri.st = .header ∧ (s.ri.hdr ++ bs).length = 16) ∧ field
     (s.ri.hdr ++ bs) 8 2 = s.ri.nextRec % 65536 ∧ field (s.ri.hdr ++ bs) 4 1 = 2 ∧ field (s.ri.hdr ++ bs) 0 4 = 0) ∧
     s.ri.filling = some 3 ∧ s.ri.e + 1 ≤ 1024 ∧ s.ri.u + 16 * (s.ri.e + 1) ≤ 917440) ∧
    (let bs : List Byte := (hd 0 2 5).drop 8
     let s : State := { fh 0 2 5 with ri.filling := none, sm.free := [] }
     s.ri.fetch = some s.ri.cursor ∧ s.ri.fetched = some bs ∧ bs ≠ [] ∧ s.bp.layout = some L0 ∧ s.bp.release < L0.z ∧ s.bp.rl ≤
     L0.z ∧ available s = bs.length ∧ calm s = true ∧ s.ri.session = .opened ∧ s.ri.padOwed = 0 ∧ ((s.sm.slots.all fun x =>
     decide (x.st ≠ .filling)) = true ∨ s.ri.filling ≠ none) ∧ ((s.ri.st = .header ∧ (s.ri.hdr ++ bs).length = 16) ∧ field
     (s.ri.hdr ++ bs) 8 2 = s.ri.nextRec % 65536 ∧ field (s.ri.hdr ++ bs) 4 1 = 2 ∧ field (s.ri.hdr ++ bs) 0 4 = 0) ∧
     s.ri.filling = none ∧ s.sm.free = []) ∧
    (let bs : List Byte := hb 8
     let c : RecordInProgress := { fr0 with len := 100 }
     let s : State := { fs0 with
         ri.fetched := some (hb 8), ri.st := .data, ri.cur := some { fr0 with len := 100 }, ri.raw := hb 3 }
     s.ri.fetch = some s.ri.cursor ∧ s.ri.fetched = some bs ∧ bs ≠ [] ∧ s.bp.layout = some L0 ∧ s.bp.release < L0.z ∧ s.bp.rl ≤
     L0.z ∧ available s = bs.length ∧ calm s = true ∧ s.ri.session = .opened ∧ s.ri.padOwed = 0 ∧ ((s.sm.slots.all fun x =>
     decide (x.st ≠ .filling)) = true ∨ s.ri.filling ≠ none) ∧ s.ri.st = .data ∧ s.ri.cur = some c ∧ (s.ri.raw ++ bs).length <
     min 16384 (c.len - c.placed)) ∧
    (let bs : List Byte := hb 8
     let s : State := { fs0 with
         ri.fetched := some (hb 8), ri.st := .data, ri.cur := some fr0, ri.filling := none, sm.free := [] }
     s.ri.fetch = some s.ri.cursor ∧ s.ri.fetched = some bs ∧ bs ≠ [] ∧ s.bp.layout = some L0 ∧ s.bp.release < L0.z ∧ s.bp.rl ≤
     L0.z ∧ available s = bs.length ∧ calm s = true ∧ s.ri.session = .opened ∧ s.ri.padOwed = 0 ∧ ((s.sm.slots.all fun x =>
     decide (x.st ≠ .filling)) = true ∨ s.ri.filling ≠ none) ∧ (s.ri.st = .data ∧ s.ri.cur = some fr0 ∧ (s.ri.raw ++ bs).length
     = min 16384 (fr0.len - fr0.placed)) ∧ s.ri.filling = none ∧ s.sm.free = []) ∧
    (let bs : List Byte := hb 8
     let s : State := { fs0 with ri.fetched := some (hb 8), ri.st := .placing }
     calm s = true ∧ s.ri.fetch = some 1048570 ∧ s.ri.fetched = some bs ∧ takesBytes s = false) := by
  refine ⟨?_, ?_, ?_, ?_, ?_, ?_, ?_, ?_⟩ <;> decide +kernel

theorem witness_FetchedBytesConsumed_2 :
    (let bs : List Byte := hb 8
     let s : State := { fs0 with ri.fetched := some (hb 8), ri.cursor := 1048572, bp.rl := 5 }
     calm s = true ∧ s.ri.fetch = some 1048570 ∧ s.ri.fetched = some bs ∧ 1048570 ≠ s.ri.cursor ∧ takesBytes s = true ∧
     s.bp.watch = true ∧ 0 < available s ∧ s.bp.layout = some L0) ∧
    (let bs : List Byte := hb 8
     let s : State := { fs0 with
         bp.release := 64, bp.rl := 8, ri.cursor := 64, ri.fetch := some 64, ri.fetched := some (hb 8), ri.st := .data,
           ri.cur := some fr0, ri.hdr := [], ri.filling := some 2, ri.e := 3, ri.u := 400 }
     s.ri.fetch = some s.ri.cursor ∧ s.ri.fetched = some bs ∧ bs ≠ [] ∧ s.bp.layout = some L0 ∧ s.bp.release < L0.z ∧ s.bp.rl ≤
     L0.z ∧ available s = bs.length ∧ calm s = true ∧ s.ri.session = .opened ∧ s.ri.padOwed = 0 ∧ ((s.sm.slots.all fun x =>
     decide (x.st ≠ .filling)) = true ∨ s.ri.filling ≠ none) ∧ ((s.ri.st = .data ∧ s.ri.cur = some fr0 ∧ (s.ri.raw ++ bs).length
     = min 16384 (fr0.len - fr0.placed)) ∧ (s.ri.raw ++ bs).length ≤ L0.z - ringDist L0.z (s.ri.raw ++ bs).length ((s.ri.cursor
     + bs.length) % L0.z)) ∧ s.ri.filling = some 2 ∧ chunkFits s.ri.u s.ri.e (4 + (chunkBody s.ri.compress s.ri.history
     (s.ri.raw ++ bs)).1.length) s.ri.frag.isNone = true) ∧
    (let bs : List Byte := hb 8
     let s : State := { fs0 with
         bp.release := 64, bp.rl := 8, ri.cursor := 64, ri.fetch := some 64, ri.fetched := some (hb 8), ri.st := .data,
           ri.cur := some fr0, ri.hdr := [], sm.free := [2, 3] }
     s.ri.fetch = some s.ri.cursor ∧ s.ri.fetched = some bs ∧ bs ≠ [] ∧ s.bp.layout = some L0 ∧ s.bp.release < L0.z ∧ s.bp.rl ≤
     L0.z ∧ available s = bs.length ∧ calm s = true ∧ s.ri.session = .opened ∧ s.ri.padOwed = 0 ∧ ((s.sm.slots.all fun x =>
     decide (x.st ≠ .filling)) = true ∨ s.ri.filling ≠ none) ∧ ((s.ri.st = .data ∧ s.ri.cur = some fr0 ∧ (s.ri.raw ++ bs).length
     = min 16384 (fr0.len - fr0.placed)) ∧ (s.ri.raw ++ bs).length ≤ L0.z - ringDist L0.z (s.ri.raw ++ bs).length ((s.ri.cursor
     + bs.length) % L0.z)) ∧ s.ri.filling = none ∧ s.sm.free = [2, 3]) ∧
    (let s : State := { fs0 with ri.fetch := none, bp.rl := 0 }
     calm s = true ∧ (s.ri.fetch = none ∨ s.ri.fetched = none)) := by
  refine ⟨?_, ?_, ?_, ?_⟩ <;> decide +kernel

theorem witness_ChunksPlacedAndSealed_1 :
    (let s : State := cp0
     s.ri.st = .placing ∧ s.ri.item = some (.chunk 8 (if true = true then s.ri.chunkBuf else s.ri.refetched).length true) ∧
     s.ri.filling = some 2 ∧ s.ri.cur = some fr0 ∧ (if true = true then s.ri.chunkBuf else s.ri.refetched) ≠ [] ∧ chunkFits
     s.ri.u s.ri.e (4 + (if true = true then s.ri.chunkBuf else s.ri.refetched).length) s.ri.frag.isNone = true ∧ s.ri.session =
     .opened ∧ s.ri.sealReq = false ∧ s.bp.layout = some L0 ∧ L0.z ≠ 0 ∧ calm s = true ∧ s.sp.timer = true ∧ (8 + if fr0.placed
     = 0 then 16 else 0) ≤ ringDist L0.z s.bp.release s.ri.cursor ∧ s.bp.rl = ringDist L0.z s.bp.release s.ri.cursor + available
     s ∧ fr0.placed + 8 = fr0.len ∧ available s ≤ padOf fr0.len) ∧
    (let s : State := cp0
     s.ri.item = some (.chunk 8 8 true) ∧ calm s = true ∧ s.bp.layout = some L0 ∧ (s.ri.st ≠ .recompress ∨ s.ri.refetched.length
     ≠ 8)) ∧
    (let s : State := cp0
     (intakeWaits s = false ∨ s.sm.free = [])) ∧
    (let s : State := cp0
     (s.sm.parity = [] ∨ s.sm.parityGot = none)) ∧
    (let s : State := { cp0 with ri.cur := some { fr0 with len := 100 }, ri.resetOwed := true }
     s.ri.st = .placing ∧ s.ri.item = some (.chunk 8 (if true = true then s.ri.chunkBuf else s.ri.refetched).length true) ∧
     s.ri.filling = some 2 ∧ s.ri.cur = some ({ fr0 with len := 100 }) ∧ (if true = true then s.ri.chunkBuf else s.ri.refetched)
     ≠ [] ∧ chunkFits s.ri.u s.ri.e (4 + (if true = true then s.ri.chunkBuf else s.ri.refetched).length) s.ri.frag.isNone = true
     ∧ s.ri.session = .opened ∧ s.ri.sealReq = false ∧ s.bp.layout = some L0 ∧ L0.z ≠ 0 ∧ calm s = true ∧ s.sp.timer = true ∧ (8
     + if ({ fr0 with len := 100 }).placed = 0 then 16 else 0) ≤ ringDist L0.z s.bp.release s.ri.cursor ∧ s.bp.rl = ringDist
     L0.z s.bp.release s.ri.cursor + available s ∧ ({ fr0 with len := 100 }).placed + 8 ≠ ({ fr0 with len := 100 }).len ∧
     available s = 0) ∧
    (let s : State := { rc with ri.cursor := 20 }
     s.ri.item = some (.chunk 8 0 false) ∧ (if false = true then s.ri.chunkBuf else s.ri.refetched).length ≠ 0 ∧ calm s = true ∧
     s.bp.layout = some L0 ∧ (s.ri.st = .recompress ∧ s.ri.refetched.length = 8 ∧ s.ri.cur = some fr0) ∧ s.ri.refetched.length =
     min 16384 (fr0.len - fr0.placed) ∧ s.ri.filling = some 2 ∧ 0 < 8 ∧ 8 ≤ L0.z - ringDist L0.z 8 s.ri.cursor ∧ chunkFits
     s.ri.u s.ri.e (4 + (chunkBody s.ri.compress [] s.ri.refetched).1.length) s.ri.frag.isNone = true ∧ s.ri.st ≠ .placing) ∧
    (let s : State := { rc with ri.cur := some { fr0 with len := 99 }, bp.rl := 8 }
     s.ri.item = some (.chunk 8 0 false) ∧ calm s = true ∧ s.bp.layout = some L0 ∧ (s.ri.st = .recompress ∧
     s.ri.refetched.length = 8 ∧ s.ri.cur = some ({ fr0 with len := 99 })) ∧ s.ri.refetched.length < min 16384
     (({ fr0 with len := 99 }).len - ({ fr0 with len := 99 }).placed) ∧ available s = 0) ∧
    (let s : State := { cp0 with ri.filling := none, sm.free := [2, 3], ri.cursor := 20, bp.rl := 26 }
     s.ri.item = some (.chunk 8 8 true) ∧ calm s = true ∧ s.bp.layout = some L0 ∧ (s.ri.st = .placing ∧ s.ri.filling = none ∧
     s.ri.session = .opened ∧ s.sm.free = [2, 3] ∧ (s.sm.slots.all fun x => decide (x.st ≠ .filling)) = true ∧ 0 < 8 ∧ 8 ≤ L0.z
     - ringDist L0.z 8 s.ri.cursor) ∧ 8 ≠ 0) := by
  refine ⟨?_, ?_, ?_, ?_, ?_, ?_, ?_, ?_⟩ <;> decide +kernel

theorem witness_ChunksPlacedAndSealed_2 :
    (let s : State := { cp0 with
         ri.filling := none, sm.free := [2, 3], ri.cursor := 20, bp.rl := 26, ri.item := some (.chunk 8 0 false) }
     s.ri.item = some (.chunk 8 0 false) ∧ calm s = true ∧ s.bp.layout = some L0 ∧ (s.ri.st = .placing ∧ s.ri.filling = none ∧
     s.ri.session = .opened ∧ s.sm.free = [2, 3] ∧ (s.sm.slots.all fun x => decide (x.st ≠ .filling)) = true ∧ 0 < 8 ∧ 8 ≤ L0.z
     - ringDist L0.z 8 s.ri.cursor) ∧ 0 = 0) ∧
    (let bs : List Byte := hb 8
     let s : State := putSlot 2 (freshSlot .filling 9) { cp0 with
         ri.st := .data, ri.fetch := some 1048570, ri.cursor := 1048570, ri.fetched := some (hb 8), ri.item := none, ri.e := 5,
           ri.u := 917350, sm.free := [], ri.frag := some { num := 5, first := false, reset := true, raw := 3, stored := 7 },
           ri.chunkBuf := [] }
     s.ri.fetch = some s.ri.cursor ∧ s.ri.fetched = some bs ∧ bs ≠ [] ∧ s.bp.layout = some L0 ∧ available s = bs.length ∧
     s.bp.release < L0.z ∧ s.bp.rl ≤ L0.z ∧ calm s = true ∧ s.ri.session = .opened ∧ s.ri.st = .data ∧ s.ri.cur = some fr0 ∧
     s.ri.filling = some 2 ∧ s.sm.free = [] ∧ 0 < s.ri.e ∧ (slotAt s 2).st = .filling ∧ (s.ri.raw ++ bs).length = min 16384
     (fr0.len - fr0.placed) ∧ chunkFits s.ri.u s.ri.e (4 + (chunkBody s.ri.compress s.ri.history (s.ri.raw ++ bs)).1.length)
     s.ri.frag.isNone = false) ∧
    (let s : State := { cp0 with
         ri.item := some .filemark, ri.filling := none, sm.free := [2, 3], ri.cursor := 10, bp.rl := 16 }
     s.bp.layout = some L0 ∧ s.ri.st = .placing ∧ s.ri.item = some .filemark ∧ s.ri.filling = none ∧ s.sm.free = [2, 3] ∧
     (s.sm.slots.all fun x => decide (x.st ≠ .filling)) = true ∧ s.ri.session = .opened ∧ calm s = true ∧ L0.z ≠ 0 ∧ s.bp.rl =
     16 ∧ ringDist L0.z s.bp.release s.ri.cursor = 16) ∧
    (let s : State := nt { ss0 with
         mo.mode := some .backhitch, mo.goal := .writeGo, mo.stopping := true, mo.v := 0, mo.legs := [moveLeg .backhitch
           { pass := 6, count := 1498464 } 102], mo.resume := some { pass := 6, count := 1500000 } }
     calm s = true ∧ s.ch.transport = .active ∧ s.mo.mode = some .backhitch ∧ s.mo.goal = .writeGo ∧ s.mo.stopping = true ∧
     atRest s = true ∧ s.mo.legs = [moveLeg MotionMode.backhitch { pass := 6, count := 1498464 } 102] ∧ (moveLeg
     MotionMode.backhitch { pass := 6, count := 1498464 } 102).target = some 1498464 ∧ s.mo.resume = some
     { pass := 6, count := 1500000 }) := by
  refine ⟨?_, ?_, ?_, ?_⟩ <;> decide +kernel

theorem witness_ChunksPlacedAndSealed_3 :
    let bs : List Byte := List.replicate 917504 0
    let s : State := putSlot 2 (freshSlot .sealing 9) { cp0 with
        sm.parity := [2, 3], sm.parityGot := some (List.replicate 917504 0) }
    bs.length = 917504 ∧ s.sm.parityGot = some bs ∧ s.sm.parity = [2, 3] ∧ (slotAt s 2).st ≠ .free ∧ calm s = true ∧
    s.sm.orphans.contains 2 = false :=
  ⟨List.length_replicate, rfl, by decide +kernel⟩

theorem witness_ChunksPlacedAndSealed_4 :
    let bs : List Byte := List.replicate 917504 0
    let s : State := putSlot 2 (freshSlot .sealing 9) { cp0 with
        sm.parity := [2, 3], sm.parityGot := some (List.replicate 917504 0), sm.orphans := [2] }
    bs.length = 917504 ∧ s.sm.parityGot = some bs ∧ s.sm.parity = [2, 3] ∧ (slotAt s 2).st ≠ .free ∧ calm s = true ∧
    s.sm.orphans.contains 2 = true :=
  ⟨List.length_replicate, rfl, by decide +kernel⟩

theorem witness_ChunksPlacedAndSealed_5 :
    let bs : List Byte := List.replicate 917504 0
    let s : State := nt (putSlot 2 (freshSlot .sealing 9) { ss0 with
        mo.mode := some .waitData, sp.policy.restart := 1, mo.resume := some { pass := 6, count := 1500000 }, sm.parity := [2],
          sm.parityGot := some (List.replicate 917504 0), mo.v := 0, mo.stands := some (standing
          { pass := 6, count := 1500000 }) })
    bs.length = 917504 ∧ s.sm.parityGot = some bs ∧ s.sm.parity = [2] ∧ (slotAt s 2).st ≠ .free ∧ (steady s = true ∧ s.bp.held =
    none ∧ s.wr.flush = none ∧ s.wr.close = false ∧ fetchDue s = false ∧ s.ch.transport = .active ∧ s.mo.mode = some .waitData ∧
    s.ri.session = .opened ∧ s.mo.resume = some { pass := 6, count := 1500000 } ∧ s.mo.mask = false ∧ (slotAt s 2).st = .sealing
    ∧ s.sp.policy.restart ≤ sealedCount s + 1 ∧ (s.pw.dwell = true → unmonitored Ev.parkRejected s = true)) ∧
    s.sm.orphans.contains 2 = false ∧ s.mo.stands = some (standing { pass := 6, count := 1500000 }) :=
  ⟨List.length_replicate, rfl, by decide +kernel⟩

theorem witness_ChunksPlacedAndSealed_6 :
    let bs : List Byte := List.replicate 917504 0
    let s : State := nt (putSlot 2 (freshSlot .sealing 9) { ss0 with
        mo.mode := some .waitData, sp.policy.restart := 1, mo.resume := some { pass := 6, count := 1500000 }, sm.parity := [2],
          sm.parityGot := some (List.replicate 917504 0), mo.v := 0, mo.stands := none })
    bs.length = 917504 ∧ s.sm.parityGot = some bs ∧ s.sm.parity = [2] ∧ (slotAt s 2).st ≠ .free ∧ (steady s = true ∧ s.bp.held =
    none ∧ s.wr.flush = none ∧ s.wr.close = false ∧ fetchDue s = false ∧ s.ch.transport = .active ∧ s.mo.mode = some .waitData ∧
    s.ri.session = .opened ∧ s.mo.resume = some { pass := 6, count := 1500000 } ∧ s.mo.mask = false ∧ (slotAt s 2).st = .sealing
    ∧ s.sp.policy.restart ≤ sealedCount s + 1 ∧ (s.pw.dwell = true → unmonitored Ev.parkRejected s = true)) ∧
    s.sm.orphans.contains 2 = false ∧ s.mo.stands ≠ some (standing { pass := 6, count := 1500000 }) ∧ s.mo.v = 0 ∧ stands s =
    true ∧ s.mo.pass = (6) ∧ (standing { pass := 6, count := 1500000 }).count < s.mo.count :=
  ⟨List.length_replicate, rfl, by decide +kernel⟩

theorem witness_SessionCommands_1 :
    (let s : State := { ss0 with ri.session := .closed }
     calm s = true ∧ placeOpen JobId.write s = true ∧ dwellSteady s = true ∧ s.mo.mask = false ∧ s.mo.wait ≠ .failing ∧
     s.ri.session = .closed) ∧
    (let s : State := { ss0 with ri.nextSeg := 0 }
     calm s = true ∧ placeOpen JobId.write s = true ∧ dwellSteady s = true ∧ s.mo.mask = false ∧ s.mo.wait ≠ .failing ∧
     ((s.ch.transport = .active ∧ s.mo.mode = some .writeStream ∧ s.ri.session = .opened ∧ (s.ri.st = .header ∨ s.ri.st = .idle)
     ∧ s.ri.item = none) ∧ s.ri.filling = none) ∧ s.ri.nextSeg ≤ eodSeg s ∧ nothingToWrite s = true ∧ s.ch.transport = .active ∧
     s.mo.mode = some .writeStream ∧ sessionOpen s = true) ∧
    (let s : State := putSlot 3 (freshSlot .sealed 2) ss0
     calm s = true ∧ placeOpen JobId.write s = true ∧ dwellSteady s = true ∧ s.mo.mask = false ∧ s.mo.wait ≠ .failing ∧
     ((s.ch.transport = .active ∧ s.mo.mode = some .writeStream ∧ s.ri.session = .opened ∧ (s.ri.st = .header ∨ s.ri.st = .idle)
     ∧ s.ri.item = none) ∧ s.ri.filling = none) ∧ eodSeg s < s.ri.nextSeg ∧ nothingToWrite s = false) ∧
    (let s : State := putSlot 3 (freshSlot .filling 2) { ss0 with ri.filling := some 3, ri.e := 2, ri.u := 917300 }
     calm s = true ∧ placeOpen JobId.write s = true ∧ dwellSteady s = true ∧ s.mo.mask = false ∧ s.mo.wait ≠ .failing ∧
     (s.ch.transport = .active ∧ s.mo.mode = some .writeStream ∧ s.ri.session = .opened ∧ (s.ri.st = .header ∨ s.ri.st = .idle)
     ∧ s.ri.item = none) ∧ s.ri.filling = some 3 ∧ (slotAt s 3).st = .filling ∧ 0 < s.ri.e ∧ eodSeg s < s.ri.nextSeg) ∧
    (let p : StreamOperands :=
         { bandMin := 2, bandMax := 5, readBand := 7, restart := 0, highMark := 90, dwell := 1, heavy := 200, readAhead := 0 }
     let s : State := ss0
     calm s = true ∧ placeOpen JobId.write s = true ∧ dwellSteady s = true ∧ s.mo.mask = false ∧ s.bp.layout = some L0 ∧
     (p.bandMin ≤ 7 ∧ p.bandMax ≤ 7 ∧ p.readBand ≤ 7 ∧ p.bandMin ≤ p.bandMax) ∧ (¬(s.he.clean = .required ∨ p.bandMin ≤ s.sp.c ∧
     s.sp.c ≤ p.bandMax))) ∧
    (let p : StreamOperands :=
         { bandMin := 0, bandMax := 5, readBand := 7, restart := 0, highMark := 90, dwell := 1, heavy := 200, readAhead := 0 }
     let s : State := ss0
     calm s = true ∧ placeOpen JobId.write s = true ∧ dwellSteady s = true ∧ s.mo.mask = false ∧ s.bp.layout = some L0 ∧
     (p.bandMin ≤ 7 ∧ p.bandMax ≤ 7 ∧ p.readBand ≤ 7 ∧ p.bandMin ≤ p.bandMax) ∧ (s.he.clean = .required ∨ p.bandMin ≤ s.sp.c ∧
     s.sp.c ≤ p.bandMax)) ∧
    (let p : StreamOperands :=
         { bandMin := 6, bandMax := 5, readBand := 7, restart := 0, highMark := 90, dwell := 1, heavy := 200, readAhead := 0 }
     let s : State := ss0
     calm s = true ∧ placeOpen JobId.write s = true ∧ dwellSteady s = true ∧ s.mo.mask = false ∧ s.bp.layout = some L0 ∧
     (¬(p.bandMin ≤ 7 ∧ p.bandMax ≤ 7 ∧ p.readBand ≤ 7 ∧ p.bandMin ≤ p.bandMax))) ∧
    (let s : State := nt (putSlot 2 (freshSlot .sealed 2) { ss0 with
         mo.mode := some .waitData, mo.resume := some { pass := 6, count := 1500000 }, mo.v := 0, mo.stands := some (standing
           { pass := 6, count := 1500000 }), pw.dwell := true, sp.policy.restart := 5 })
     steady s = true ∧ s.bp.held = none ∧ s.wr.flush = none ∧ s.wr.close = false ∧ fetchDue s = false ∧ s.bp.layout.isSome =
     true ∧ s.ci.write = Job.clear ∧ dwellSteady s = true ∧ s.mo.mask = false ∧ s.ch.transport = .active ∧ s.mo.mode = some
     .waitData ∧ s.ri.session = .opened ∧ s.ri.st = .header ∧ s.ri.filling = none ∧ s.mo.resume = some
     { pass := 6, count := 1500000 } ∧ s.mo.stands = some (standing { pass := 6, count := 1500000 }) ∧ slotsIn isSealing s = []
     ∧ slotsIn isSealed s ≠ [] ∧ eodSeg s < s.ri.nextSeg) := by
  refine ⟨?_, ?_, ?_, ?_, ?_, ?_, ?_, ?_⟩ <;> decide +kernel

theorem witness_SessionCommands_2 :
    (let s : State := { ss0 with ri.session := .error, ri.err := some .writeError, ri.st := .idle }
     calm s = true ∧ placeOpen JobId.write s = true ∧ dwellSteady s = true ∧ s.mo.mask = false ∧ s.ri.session = .error ∧
     s.ri.err = some .writeError ∧ (¬(Status.writeError = .overrun ∨ Status.writeError = .formatError)) ∧ s.ch.transport =
     .active ∧ s.mo.mode = some .writeStream) ∧
    (let s : State := putSlot 2 (freshSlot .sealed 2) { ss0 with ri.session := .error, ri.err := some .overrun, ri.st := .idle }
     calm s = true ∧ placeOpen JobId.write s = true ∧ dwellSteady s = true ∧ s.mo.mask = false ∧ s.ri.session = .error ∧
     s.ri.err = some .overrun ∧ (Status.overrun = .overrun ∨ Status.overrun = .formatError) ∧ eodSeg s < s.ri.nextSeg ∧
     (¬(nothingToWrite s = true ∧ s.ri.st ≠ .stopping))) ∧
    (let s : State := { ss0 with ri.session := .error, ri.err := some .overrun, ri.st := .idle }
     calm s = true ∧ placeOpen JobId.write s = true ∧ dwellSteady s = true ∧ s.mo.mask = false ∧ s.ri.session = .error ∧
     s.ri.err = some .overrun ∧ (¬(Status.overrun = .overrun ∨ Status.overrun = .formatError) ∨ s.ri.nextSeg ≤ eodSeg s ∨
     nothingToWrite s = true ∧ s.ri.st ≠ .stopping) ∧ (Status.overrun = .overrun ∨ Status.overrun = .formatError) ∧
     (nothingToWrite s = true ∧ s.ri.st ≠ .stopping) ∧ s.ch.transport = .active ∧ s.mo.mode = some .writeStream) := by
  refine ⟨?_, ?_, ?_⟩ <;> decide +kernel

end Intake

namespace Reading

def E0 : Eod := { seg := 6, firstRec := 50, pos := bot }
def rr0 : State := nt
  { at_ .ready none with
    mem := [(16392, 1), (16393, 3), (16396, 1), (16397, 1), (16404, 6), (16408, 50), (16416, 32), (16417, 78)] ++ (List.range
    16).map (fun i => (16448 + i, 255)), ch.recordHeld := true, ch.eodConfirmed := true, mo.lp := some 7, mo.quality := .locked,
    mo.locked := true, mo.count := 20000, mo.pass := 0, he.clean := .ok,
    rd.start := some { pos := { pass := 0, count := 20000 }, seg := 0 } }
def sp0 : StartPoint := { pos := { pass := 0, count := 20000 }, seg := 0 }
def reading0 : State := nt
  { rr0 with
    ch.transport := .active, mo.mode := some .readStream, mo.v := 205, rd.user := some .records, rd.state := .streaming,
    rd.x := 4, rd.wanted := 9, rd.delivered := 2, rd.start := none, ci.read := runningNow { tag := 6, op := .readRecords 3 },
    bp.pieces := [{ start := 0, len := 32, state := .writing}], sm.free := [0,2,4] }
def rr1 : State := putSlot 3 (freshSlot .fetching 4) (putSlot 1 (freshSlot .draining 3) reading0)
def dat : List Byte := List.replicate 32768 3
def fid (m i st : Nat) : FrameId := { seg := m, idx := i, placement := 1, stamp := st }
def rx (f : Slot → Slot) : State := putSlot 3 (f (slotAt rr1 3)) rr1
def fr1 : State := putSlot 1 (freshSlot .free 0) rr1
/-- The record of `rr0`, with segment 4 the last of pass 0. -/
def pmem : List Host.Cell := rr0.mem.take 8 ++ [(16448, 4), (16452, 4)]
def ec : State := putSlot 1 (freshSlot .free 0) (putSlot 3 { freshSlot .rebuilding 6 with held := (List.replicate 32 true).set 29 false |>.set 30 false, f0 := some { pass := 1, count := 50000 }, frameEnd := some { pass := 1, count := 51000 } }
  { rr1 with
    rd.user := some .confirm, rd.rebuildQ := [3], rd.rebuildGot := List.replicate 917504 0, rd.x := 7,
    bp.reqs := [partWrite (4194304 + 3*1048576 + 917440) (trailerBytes 6 2 1 20 0) .plain] })
def eb : State := nt
  { rr0 with
    ch.transport := .active, mo.mode := some .readStream, mo.v := 205, rd.user := some .confirm, rd.state := .streaming,
    rd.x := 4, rd.blank := 49152 }
def pz : State := nt { rr1 with rd.state := .paused, mo.mode := some .backhitch, mo.v := 0, rd.resume := some bot }
def ak (n : Nat) : PieceAsk := { num := 5, filemark := false, first := true, last := true, status := 0, len := n }
def rb : State := { rr1 with rd.rebuildQ := [3, 1], rd.ask := some (ak 3) }
def en : Entry := { num := 5, kind := 1, first := true, last := true, reset := true, incomplete := false, raw := 90, stored := 113 }
def dd : Drain :=
  { slot := 1, entries := 2, used := 400, entry := 0, cur := some en, wanted := true, off := 8, made := 50, stored := 50,
    out := hb 50, sent := 0, read := .nothing }
def rg (n : Nat) (d : Drain) : State := { rr1 with rd.ask := some (ak n), rd.drain := some d }
def sd : State :=
  { rr1 with
    rd.drain := some { dd with cur := none, entry := 2 },
    sm.slots := (List.replicate 8 (freshSlot .free 0)).set 1 (freshSlot .draining 3) }
def d1 (e : Nat) : Drain := { dd with cur := none, entry := e }
def re (e : Nat) (a : PieceAsk) : State :=
  { rr1 with
    rd.out := some a, rd.drain := some (d1 e), bp.reqs := [partWrite (2097152 + 64) (pieceHeader a) (.pieceHeader 64)],
    bp.pieces := [{ start := 64, len := 64, state := .writing }], rd.wanted := 4, rd.delivered := 2 }
def mvE : State := nt
  { rr0 with
    ch.transport := .active, mo.mode := some .ramp, mo.stopping := true, mo.v := 0,
    mo.legs := [moveLeg .backhitch { pass := 0, count := 58464 } 102], mo.goal := .readEnd, rd.ended := some .ok,
    rd.user := some .records, rd.state := .ending, ci.read := runningNow { tag := 5, op := .readRecords 3 },
    rd.endLead := some sp0, rd.delivered := 3 }

/-- Segments 3 and 4 are open in slots 1 and 3, and segment 5 is the next to open. -/
def two (retry : Nat) (held : List Bool) : State :=
  putSlot 1 { freshSlot .fetching 3 with retry := retry, stamp := some 9, held := held, leadIn := some { pass := 0, count := 21000 } }
    { rr1 with
      rd.x := 3, rd.next := 5, rd.ask := some (ak 3),
      bp.reqs := [partWrite (4194304 + 1048576 + 917440) (trailerBytes 3 2 1 20 0) .plain] }
/-- Segment 3 alone is open, awaited behind the error in segment 2. -/
def one (held : List Bool) : State :=
  { putSlot 3 (freshSlot .free 0) (two 0 held) with rd.after := some 3, rd.bad := some 2, rd.next := 4 }
/-- What a good frame at count 30,000, merged into slot k, leaves of s before the drain goes on. -/
def got (k : Nat) (id : FrameId) (s : State) : State :=
  let stop : Pos := { pass := s.mo.pass, count := ahead s.mo.pass 30000 48 }
  let t := mergeFrame k id .good { pass := s.mo.pass, count := 30000 } dat { s with
    rd.blank := 0,
    bp.reqs := s.bp.reqs ++ [readOf L0.cartBase 64 .plain, readOf (L0.cartBase + 64 + 16 * s.mo.pass) 16 .plain] }
  { t with rd.lastEnd := some stop, rd.lowEnd := if id.seg < t.rd.next then some stop else t.rd.lowEnd }

theorem witness_ReadRecordsJudged_1 :
    (let s : State := { rr0 with ri.session := .error }
     dwellSteady s = true ∧ (calm s = true ∨ quiet s = true) ∧ 3 ≠ 0 ∧ (s.ch.transport = .ready ∨ s.ch.transport = .parked) ∧
     sessionOpen s = true ∧ placeOpen JobId.read s = true) ∧
    (let s : State := { rr0 with mo.lp := none }
     dwellSteady s = true ∧ (calm s = true ∨ quiet s = true) ∧ 3 ≠ 0 ∧ (s.ch.transport = .ready ∨ s.ch.transport = .parked) ∧
     quiet s = true ∧ s.mo.lp = none ∧ placeOpen JobId.read s = true) ∧
    (let s : State := { rr0 with mo.lp := some 50 }
     dwellSteady s = true ∧ (calm s = true ∨ quiet s = true) ∧ 3 ≠ 0 ∧ (s.ch.transport = .ready ∨ s.ch.transport = .parked) ∧
     quiet s = true ∧ s.mo.lp = some 50 ∧ s.cart.eod = some E0 ∧ E0.firstRec ≤ 50 ∧ s.bp.layout = some L0 ∧ placeOpen JobId.read
     s = true) ∧
    (let s : State := nt { rr0 with ch.transport := .parked }
     dwellSteady s = true ∧ (calm s = true ∨ quiet s = true) ∧ 3 ≠ 0 ∧ (s.bp.layout = some L0 ∧ s.ci.read = Job.clear ∧ quiet s
     = true ∧ s.mo.lp = some 7 ∧ s.cart.eod = some E0 ∧ 7 < E0.firstRec ∧ s.re.brake = false ∧ s.mo.mask = false) ∧
     s.ch.transport = .parked ∧ s.ch.step = none) ∧
    (let s : State := nt { rr0 with ch.transport := .active }
     dwellSteady s = true ∧ (calm s = true ∨ quiet s = true) ∧ 3 ≠ 0 ∧ (¬(s.ch.transport = .ready ∨ s.ch.transport = .parked)) ∧
     placeOpen JobId.read s = true) ∧
    (let s : State := nt { rr0 with ch.transport := .active }
     quiet s = true ∧ dwellSteady s = true ∧ placeOpen JobId.read s = true ∧ s.rd.aborted = false ∧ s.ch.transport = .active) ∧
    (let s : State := rr0
     dwellSteady s = true ∧ (calm s = true ∨ quiet s = true) ∧ 3 ≠ 0 ∧ (s.bp.layout = some L0 ∧ s.ci.read = Job.clear ∧ quiet s
     = true ∧ s.mo.lp = some 7 ∧ s.cart.eod = some E0 ∧ 7 < E0.firstRec ∧ s.re.brake = false ∧ s.mo.mask = false) ∧
     s.ch.transport = .ready ∧ s.pw.settling = false ∧ s.rd.start = some sp0 ∧ s.mo.v = 0 ∧ stands s = true ∧ s.mo.pass =
     sp0.pos.pass ∧ (standing sp0.pos).count < s.mo.count) ∧
    (let s : State := rr0
     quiet s = true ∧ dwellSteady s = true ∧ placeOpen JobId.read s = true ∧ s.rd.aborted = false ∧ s.ch.transport ≠ .active) := by
  refine ⟨?_, ?_, ?_, ?_, ?_, ?_, ?_, ?_⟩ <;> decide +kernel

theorem witness_ReadRecordsJudged_2 :
    (let s : State := { rr0 with rd.aborted := true }
     dwellSteady s = true ∧ (calm s = true ∨ quiet s = true) ∧ 0 = 0 ∧ placeOpen JobId.read s = true) ∧
    (let s : State := { rr0 with rd.aborted := true }
     quiet s = true ∧ dwellSteady s = true ∧ placeOpen JobId.read s = true ∧ s.rd.aborted = true ∧ s.ch.transport = .ready) ∧
    (let s : State := rr1
     quiet s = true ∧ dwellSteady s = true ∧ s.ci.read = runningNow { tag := 6, op := .readRecords 3 } ∧ s.bp.layout.isSome =
     true ∧ cqOpen s = true ∧ s.pw.cancelled = none ∧ s.ci.state ≠ .stalled JobId.read ∧ s.ch.transport = .active ∧ s.mo.mode =
     some .readStream ∧ s.rd.user = some .records ∧ s.rd.fill = none ∧ s.mo.mask = false ∧ s.mo.wait ≠ .failing ∧ slotsIn
     isOnTape s = [] ∧ (∀ a ∈ s.rd.out, a.last = true ∧ a.filemark = false ∧ a.status ≠ 2)) := by
  refine ⟨?_, ?_, ?_⟩ <;> decide +kernel

theorem witness_FramesMerged :
    (let data : List Byte := dat
     let id : FrameId := fid 4 5 9
     let s : State := rx (fun x => { x with stamp := some 10 })
     (slotAt s 3).st ≠ .free ∧ id.idx < 32 ∧ s.rd.scan = none ∧ data.length = 32768 ∧ (slotAt s 3).stamp = some 10 ∧ id.stamp <
     10) ∧
    (let data : List Byte := dat
     let id : FrameId := fid 4 5 9
     let st : FrameStatus := .good
     let s : State := rx (fun x => { x with stamp := some 8, held := List.replicate 32 true })
     (slotAt s 3).st ≠ .free ∧ id.idx < 32 ∧ s.rd.scan = none ∧ data.length = 32768 ∧ (slotAt s 3).stamp = some 8 ∧ 8 < id.stamp
     ∧ st ≠ .uncorrectable) ∧
    (let data : List Byte := dat
     let id : FrameId := fid 4 5 9
     let st : FrameStatus := .uncorrectable
     let s : State := rx (fun x => { x with stamp := some 8, held := List.replicate 32 true })
     (slotAt s 3).st ≠ .free ∧ id.idx < 32 ∧ s.rd.scan = none ∧ data.length = 32768 ∧ (slotAt s 3).stamp = some 8 ∧ 8 < id.stamp
     ∧ st = .uncorrectable) ∧
    (let data : List Byte := dat
     let id : FrameId := fid 4 5 9
     let s : State := rx (fun x => { x with stamp := some 9, held := List.replicate 32 true })
     (slotAt s 3).st ≠ .free ∧ id.idx < 32 ∧ s.rd.scan = none ∧ data.length = 32768 ∧ (slotAt s 3).stamp = some id.stamp ∧
     (slotAt s 3).held.getD id.idx false = true) ∧
    (let data : List Byte := dat
     let id : FrameId := fid 4 5 9
     let st : FrameStatus := .good
     let s : State := rx (fun x => { x with stamp := some 9 })
     (slotAt s 3).st ≠ .free ∧ id.idx < 32 ∧ s.rd.scan = none ∧ data.length = 32768 ∧ (slotAt s 3).stamp = some id.stamp ∧
     (slotAt s 3).held.getD id.idx false = false ∧ st ≠ .uncorrectable) ∧
    (let data : List Byte := dat
     let id : FrameId := fid 4 5 9
     let st : FrameStatus := .uncorrectable
     let s : State := rx (fun x => { x with stamp := some 9 })
     (slotAt s 3).st ≠ .free ∧ id.idx < 32 ∧ s.rd.scan = none ∧ data.length = 32768 ∧ (slotAt s 3).stamp = some id.stamp ∧
     (slotAt s 3).held.getD id.idx false = false ∧ st = .uncorrectable) ∧
    (let data : List Byte := dat
     let id : FrameId := fid 4 5 9
     let st : FrameStatus := .good
     let s : State := rx (fun x => x)
     (slotAt s 3).st ≠ .free ∧ id.idx < 32 ∧ s.rd.scan = none ∧ data.length = 32768 ∧ (slotAt s 3).stamp = none ∧ (slotAt s
     3).held.getD id.idx false = false ∧ st ≠ .uncorrectable) ∧
    (let data : List Byte := dat
     let id : FrameId := fid 4 5 9
     let st : FrameStatus := .uncorrectable
     let s : State := rx (fun x => x)
     (slotAt s 3).st ≠ .free ∧ id.idx < 32 ∧ s.rd.scan = none ∧ data.length = 32768 ∧ (slotAt s 3).stamp = none ∧ (slotAt s
     3).held.getD id.idx false = false ∧ st = .uncorrectable) := by
  refine ⟨?_, ?_, ?_, ?_, ?_, ?_, ?_, ?_⟩ <;> decide +kernel

theorem witness_FrameReceivedJudged_1 :
    (let s : State := nt { fr1 with mo.mode := none }
     calm s = true ∧ s.rd.scan = none ∧ s.rd.user = some .records ∧ s.bp.layout = some L0 ∧ frameStream s = false) ∧
    (let id : FrameId := fid 6 5 9
     let s : State := fr1
     calm s = true ∧ s.rd.scan = none ∧ s.rd.user = some .records ∧ s.bp.layout = some L0 ∧ drainStands s = true ∧ frameStream s
     = true ∧ beyondEod s id.seg = true) ∧
    (let id : FrameId := fid 3 5 9
     let s : State := fr1
     calm s = true ∧ s.rd.scan = none ∧ s.rd.user = some .records ∧ s.bp.layout = some L0 ∧ drainStands s = true ∧ (frameStream
     s = true ∧ beyondEod s id.seg = false) ∧ passRead id.seg s = false ∧ (id.seg < s.rd.x ∨ fetchSlot s id.seg = none ∧
     ((slotsIn isFetching s).any fun i => decide (id.seg < (slotAt s i).seg)) = true)) ∧
    (let id : FrameId := fid 4 5 9
     let s : State := fr1
     calm s = true ∧ s.rd.scan = none ∧ s.rd.user = some .records ∧ s.bp.layout = some L0 ∧ drainStands s = true ∧ (frameStream
     s = true ∧ beyondEod s id.seg = false) ∧ s.rd.x ≤ id.seg ∧ fetchSlot s id.seg = some 3 ∧ passRead id.seg (got 3 id s) =
     false) ∧
    (let id : FrameId := fid 4 5 9
     let s : State := putSlot 3 { freshSlot .fetching 4 with
         stamp := some 9, held := (List.replicate 32 true).set 5 false } { fr1 with mem := pmem }
     calm s = true ∧ s.rd.scan = none ∧ s.rd.user = some .records ∧ s.bp.layout = some L0 ∧ drainStands s = true ∧ (frameStream
     s = true ∧ beyondEod s id.seg = false) ∧ s.rd.x ≤ id.seg ∧ fetchSlot s id.seg = some 3 ∧ passRead id.seg (got 3 id s) =
     true) ∧
    (let id : FrameId := fid 4 5 9
     let s : State := { putSlot 3 (freshSlot .free 0) fr1 with mo.entry := 2, rd.lastEnd := none, rd.next := 4 }
     calm s = true ∧ s.rd.scan = none ∧ s.rd.user = some .records ∧ s.bp.layout = some L0 ∧ drainStands s = true ∧ ((frameStream
     s = true ∧ beyondEod s id.seg = false) ∧ s.rd.x ≤ id.seg ∧ s.rd.bad = none) ∧ (s.rd.next = id.seg ∧ ((slotsIn isFetching
     s).all fun i => decide ((slotAt s i).seg + 1 = id.seg)) = true) ∧ fetchSlot s id.seg = none ∧ (s.sm.free = [0, 2, 4] ∧
     (readSlots s).length < s.sp.policy.readAhead)) ∧
    (let id : FrameId := fid 4 5 9
     let s : State := { putSlot 3 (freshSlot .free 0) fr1 with mo.entry := 2, rd.lastEnd := none, rd.next := 4, sm.free := [] }
     calm s = true ∧ s.rd.scan = none ∧ s.rd.user = some .records ∧ s.bp.layout = some L0 ∧ drainStands s = true ∧ ((frameStream
     s = true ∧ beyondEod s id.seg = false) ∧ s.rd.x ≤ id.seg ∧ s.rd.bad = none) ∧ (s.rd.next = id.seg ∧ ((slotsIn isFetching
     s).all fun i => decide ((slotAt s i).seg + 1 = id.seg)) = true) ∧ fetchSlot s id.seg = none ∧ (s.sm.free = [] ∨
     s.sp.policy.readAhead ≤ (readSlots s).length) ∧ s.mo.mask = false ∧ s.mo.v ≠ 0) ∧
    (let id : FrameId := fid 5 5 9
     let s : State := two 0 (List.replicate 32 true)
     calm s = true ∧ s.rd.scan = none ∧ s.rd.user = some .records ∧ s.bp.layout = some L0 ∧ s.rd.ask.isSome = true ∧
     s.ch.tagUnreadable = false ∧ s.mo.mask = false ∧ s.mo.v ≠ 0 ∧ ((frameStream s = true ∧ beyondEod s id.seg = false) ∧ s.rd.x
     ≤ id.seg ∧ s.rd.bad = none) ∧ (slotsIn isFetching s = [1, 3] ∧ (slotAt s 3).seg = (slotAt s 1).seg + 1 ∧ id.seg = (slotAt s
     1).seg + 2 ∧ s.rd.next = id.seg ∧ s.rd.after = none ∧ s.rd.rebuildQ = [] ∧ (slotAt s 1).st = .fetching) ∧ (s.sm.free = [0,
     2, 4] ∧ (readSlots s).length < s.sp.policy.readAhead) ∧ 0 ≠ 1 ∧ 0 ≠ 3 ∧ 0 < s.sm.slots.length ∧ (missingFrames (slotAt s
     1)).length = 0 ∧ trailerGood (slotTrailer s 1) (slotAt s 1).seg = true) := by
  refine ⟨?_, ?_, ?_, ?_, ?_, ?_, ?_, ?_⟩ <;> decide +kernel

theorem witness_FrameReceivedJudged_2 :
    (let id : FrameId := fid 5 5 9
     let s : State := two 0 ((List.replicate 32 true).set 29 false |>.set 30 false)
     calm s = true ∧ s.rd.scan = none ∧ s.rd.user = some .records ∧ s.bp.layout = some L0 ∧ s.rd.ask.isSome = true ∧
     s.ch.tagUnreadable = false ∧ s.mo.mask = false ∧ s.mo.v ≠ 0 ∧ ((frameStream s = true ∧ beyondEod s id.seg = false) ∧ s.rd.x
     ≤ id.seg ∧ s.rd.bad = none) ∧ (slotsIn isFetching s = [1, 3] ∧ (slotAt s 3).seg = (slotAt s 1).seg + 1 ∧ id.seg = (slotAt s
     1).seg + 2 ∧ s.rd.next = id.seg ∧ s.rd.after = none ∧ s.rd.rebuildQ = [] ∧ (slotAt s 1).st = .fetching) ∧ (s.sm.free = [0,
     2, 4] ∧ (readSlots s).length < s.sp.policy.readAhead) ∧ 0 ≠ 1 ∧ 0 ≠ 3 ∧ 0 < s.sm.slots.length ∧ 1 ≤ (missingFrames (slotAt
     s 1)).length ∧ (missingFrames (slotAt s 1)).length ≤ 4) ∧
    (let id : FrameId := fid 5 5 9
     let s : State := two 0 (List.replicate 32 false)
     calm s = true ∧ s.rd.scan = none ∧ s.rd.user = some .records ∧ s.bp.layout = some L0 ∧ s.rd.ask.isSome = true ∧
     s.ch.tagUnreadable = false ∧ s.mo.mask = false ∧ s.mo.v ≠ 0 ∧ ((frameStream s = true ∧ beyondEod s id.seg = false) ∧ s.rd.x
     ≤ id.seg ∧ s.rd.bad = none) ∧ (slotsIn isFetching s = [1, 3] ∧ (slotAt s 3).seg = (slotAt s 1).seg + 1 ∧ id.seg = (slotAt s
     1).seg + 2 ∧ s.rd.next = id.seg ∧ s.rd.after = none ∧ s.rd.rebuildQ = [] ∧ (slotAt s 1).st = .fetching) ∧ 5 ≤
     (missingFrames (slotAt s 1)).length ∧ (slotAt s 1).retry < 3 ∧ unmonitored Ev.readRetry s = true) ∧
    (let id : FrameId := fid 5 5 9
     let s : State := two 3 (List.replicate 32 false)
     calm s = true ∧ s.rd.scan = none ∧ s.rd.user = some .records ∧ s.bp.layout = some L0 ∧ s.rd.ask.isSome = true ∧
     s.ch.tagUnreadable = false ∧ s.mo.mask = false ∧ s.mo.v ≠ 0 ∧ ((frameStream s = true ∧ beyondEod s id.seg = false) ∧ s.rd.x
     ≤ id.seg ∧ s.rd.bad = none) ∧ (slotsIn isFetching s = [1, 3] ∧ (slotAt s 3).seg = (slotAt s 1).seg + 1 ∧ id.seg = (slotAt s
     1).seg + 2 ∧ s.rd.next = id.seg ∧ s.rd.after = none ∧ s.rd.rebuildQ = [] ∧ (slotAt s 1).st = .fetching) ∧ 5 ≤
     (missingFrames (slotAt s 1)).length ∧ 3 ≤ (slotAt s 1).retry ∧ 1 ≠ 3 ∧ s.rd.dataEnd = false ∧ unmonitored Ev.readError s =
     true) ∧
    (let id : FrameId := fid 5 5 9
     let s : State := one (List.replicate 32 true)
     calm s = true ∧ s.rd.scan = none ∧ s.rd.user = some .records ∧ s.bp.layout = some L0 ∧ s.rd.ask.isSome = true ∧
     s.ch.tagUnreadable = false ∧ s.mo.mask = false ∧ s.mo.v ≠ 0 ∧ (frameStream s = true ∧ beyondEod s id.seg = false) ∧ s.rd.x
     ≤ id.seg ∧ (slotsIn isFetching s = [1] ∧ id.seg = (slotAt s 1).seg + 2 ∧ (slotAt s 1).st = .fetching ∧ s.rd.after = some
     (slotAt s 1).seg ∧ s.rd.bad.isSome = true) ∧ (missingFrames (slotAt s 1)).length = 0 ∧ trailerGood (slotTrailer s 1)
     (slotAt s 1).seg = true) ∧
    (let id : FrameId := fid 5 5 9
     let s : State := one ((List.replicate 32 true).set 29 false |>.set 30 false)
     calm s = true ∧ s.rd.scan = none ∧ s.rd.user = some .records ∧ s.bp.layout = some L0 ∧ s.rd.ask.isSome = true ∧
     s.ch.tagUnreadable = false ∧ s.mo.mask = false ∧ s.mo.v ≠ 0 ∧ (frameStream s = true ∧ beyondEod s id.seg = false) ∧ s.rd.x
     ≤ id.seg ∧ (slotsIn isFetching s = [1] ∧ id.seg = (slotAt s 1).seg + 2 ∧ (slotAt s 1).st = .fetching ∧ s.rd.after = some
     (slotAt s 1).seg ∧ s.rd.bad.isSome = true) ∧ 1 ≤ (missingFrames (slotAt s 1)).length ∧ (missingFrames (slotAt s 1)).length
     ≤ 4 ∧ s.rd.rebuildQ = []) ∧
    (let id : FrameId := fid 5 5 9
     let s : State := one (List.replicate 32 false)
     calm s = true ∧ s.rd.scan = none ∧ s.rd.user = some .records ∧ s.bp.layout = some L0 ∧ s.rd.ask.isSome = true ∧
     s.ch.tagUnreadable = false ∧ s.mo.mask = false ∧ s.mo.v ≠ 0 ∧ (frameStream s = true ∧ beyondEod s id.seg = false) ∧ s.rd.x
     ≤ id.seg ∧ (slotsIn isFetching s = [1] ∧ id.seg = (slotAt s 1).seg + 2 ∧ (slotAt s 1).st = .fetching ∧ s.rd.after = some
     (slotAt s 1).seg ∧ s.rd.bad.isSome = true) ∧ 5 ≤ (missingFrames (slotAt s 1)).length) := by
  refine ⟨?_, ?_, ?_, ?_, ?_, ?_⟩ <;> decide +kernel

theorem witness_EodConfirmed_1 :
    (let s : State := ec
     (frameStream s = false ∨ blankMet s = false ∨ s.cart.eod ≠ none ∧ s.rd.user ≠ some .confirm)) ∧
    (let s : State := eb
     s.bp.layout = some L0 ∧ frameStream s = true ∧ blankMet s = true ∧ s.rd.user = some .confirm ∧ calm s = true ∧ readSlots s
     = [] ∧ s.mo.v ≠ 0 ∧ s.rd.fill = none ∧ s.mo.mask = false) := by
  refine ⟨?_, ?_⟩ <;> decide +kernel

theorem witness_EodConfirmed_2 :
    let s : State := ec
    s.rd.rebuildGot.length = 917504 ∧ s.bp.layout = some L0 ∧ s.rd.rebuildQ = [3] ∧ s.rd.user = some .confirm ∧ s.rd.dataEnd =
    false ∧ s.rd.bad = none ∧ calm s = true ∧ (slotAt s 3).st ≠ .free ∧ s.rd.fill = none ∧ s.mo.mask = false ∧ s.ch.transport =
    .active ∧ s.mo.mode = some .readStream ∧ s.mo.v ≠ 0 ∧ trailerGood (slotTrailer (State.rebuilt 3 [] s) 3) (slotAt s 3).seg =
    true ∧ (slotAt s 3).seg = eodSeg (State.rebuilt 3 [] s) ∧ readSlots s = [3] :=
  ⟨List.length_replicate, by decide +kernel⟩

theorem witness_EodConfirmed_3 :
    let s : State := putSlot 3 { slotAt ec 3 with seg := 7 } { ec with
        bp.reqs := [partWrite (4194304 + 3*1048576 + 917440) (trailerBytes 7 2 1 20 0) .plain] }
    s.rd.rebuildGot.length = 917504 ∧ s.bp.layout = some L0 ∧ s.rd.rebuildQ = [3] ∧ s.rd.user = some .confirm ∧ s.rd.dataEnd =
    false ∧ s.rd.bad = none ∧ calm s = true ∧ (slotAt s 3).st ≠ .free ∧ s.rd.fill = none ∧ s.mo.mask = false ∧ s.ch.transport =
    .active ∧ s.mo.mode = some .readStream ∧ s.mo.v ≠ 0 ∧ trailerGood (slotTrailer (State.rebuilt 3 [] s) 3) (slotAt s 3).seg =
    true ∧ (slotAt s 3).seg ≠ eodSeg (State.rebuilt 3 [] s) ∧ readSlots s = [3] :=
  ⟨List.length_replicate, by decide +kernel⟩

theorem witness_EodConfirmed_4 :
    let s : State := putSlot 1 (freshSlot .fetching 5) ec
    s.rd.rebuildGot.length = 917504 ∧ s.bp.layout = some L0 ∧ s.rd.rebuildQ = [3] ∧ s.rd.user = some .confirm ∧ s.rd.dataEnd =
    false ∧ s.rd.bad = none ∧ calm s = true ∧ (slotAt s 3).st ≠ .free ∧ s.rd.fill = none ∧ s.mo.mask = false ∧ s.ch.transport =
    .active ∧ s.mo.mode = some .readStream ∧ s.mo.v ≠ 0 ∧ trailerGood (slotTrailer (State.rebuilt 3 [] s) 3) (slotAt s 3).seg =
    true ∧ readSlots s = [1, 3] ∧ 1 ≠ 3 ∧ (slotAt s 1).st ≠ .decoded :=
  ⟨List.length_replicate, by decide +kernel⟩

theorem witness_ReadGoesOn_1 :
    (let s : State := pz
     steady s = true ∧ (s.ch.transport = .active ∧ s.rd.state = .paused ∧ s.mo.legs = [] ∧ s.mo.mask = false ∧ atRest s = true)
     ∧ mayOpen s = true ∧ s.mo.mode = some .backhitch ∧ s.rd.rebuildQ = []) ∧
    (let s : State := pz
     calm s = true ∧ s.rd.ask = none ∧ s.rd.drain = none) ∧
    (let s : State := rg 3 dd
     steady s = true ∧ (¬(s.ch.transport = .active ∧ s.rd.state = .paused ∧ s.mo.legs = [] ∧ s.mo.mask = false ∧ atRest s =
     true) ∨ mayOpen s = false)) ∧
    (let a : PieceAsk := ak 3
     let s : State := rg 3 dd
     s.rd.ask = some a ∧ s.bp.layout = some L0 ∧ s.bp.wpos < L0.zd ∧ calm s = true ∧ s.rd.user = some .records ∧ s.rd.state =
     .streaming ∧ s.rd.ended = none ∧ s.rd.out = none ∧ s.rd.drain = some dd ∧ dd.read = .nothing ∧ dd.cur = some en ∧
     (s.bp.pieces.length < 64 ∧ (32 + a.len + 31) / 32 * 32 ≤ L0.zd - s.bp.occupied) ∧ 0 < a.len ∧ a.len ≤ dd.out.length ∧ a.len
     ≤ L0.zd - (s.bp.wpos + 32) % L0.zd) ∧
    (let s : State := rg 3 dd
     s.rd.drain = some dd ∧ s.rd.state = .streaming ∧ s.rd.bad = none ∧ s.rd.user = some .records ∧ calm s = true ∧ (¬(dd.read =
     .nothing ∧ dd.cur = none ∧ s.rd.ask = none ∧ s.rd.fill = none ∧ s.rd.out = none ∧ dd.entries ≤ dd.entry))) ∧
    (let a : PieceAsk := ak 0
     let s : State := rg 0 dd
     s.rd.ask = some a ∧ s.bp.layout = some L0 ∧ s.bp.wpos < L0.zd ∧ calm s = true ∧ s.rd.user = some .records ∧ s.rd.state =
     .streaming ∧ s.rd.ended = none ∧ s.rd.out = none ∧ s.rd.drain = some dd ∧ dd.read = .nothing ∧ dd.cur = some en ∧
     (s.bp.pieces.length < 64 ∧ (32 + a.len + 31) / 32 * 32 ≤ L0.zd - s.bp.occupied) ∧ a.len = 0) ∧
    (let a : PieceAsk := ak 40
     let s : State := { rg 40 dd with bp.wpos := 1048512 }
     s.rd.ask = some a ∧ s.bp.layout = some L0 ∧ s.bp.wpos < L0.zd ∧ calm s = true ∧ s.rd.user = some .records ∧ s.rd.state =
     .streaming ∧ s.rd.ended = none ∧ s.rd.out = none ∧ s.rd.drain = some dd ∧ dd.read = .nothing ∧ dd.cur = some en ∧
     (s.bp.pieces.length < 64 ∧ (32 + a.len + 31) / 32 * 32 ≤ L0.zd - s.bp.occupied) ∧ L0.zd - (s.bp.wpos + 32) % L0.zd < a.len
     ∧ a.len ≤ dd.out.length) ∧
    (let a : PieceAsk := ak 40
     let s : State := { rg 40 dd with bp.occupied := 1048544 }
     s.rd.ask = some a ∧ s.bp.layout = some L0 ∧ s.bp.wpos < L0.zd ∧ calm s = true ∧ s.rd.user = some .records ∧ s.rd.state =
     .streaming ∧ s.rd.ended = none ∧ s.rd.out = none ∧ s.rd.drain = some dd ∧ dd.read = .nothing ∧ dd.cur = some en ∧
     (¬(s.bp.pieces.length < 64 ∧ (32 + a.len + 31) / 32 * 32 ≤ L0.zd - s.bp.occupied))) := by
  refine ⟨?_, ?_, ?_, ?_, ?_, ?_, ?_, ?_⟩ <;> decide +kernel

theorem witness_ReadGoesOn_2 :
    (let a : PieceAsk := ak 60
     let s : State := rg 60 dd
     s.rd.ask = some a ∧ s.bp.layout = some L0 ∧ s.bp.wpos < L0.zd ∧ calm s = true ∧ s.rd.user = some .records ∧ s.rd.state =
     .streaming ∧ s.rd.ended = none ∧ s.rd.out = none ∧ s.rd.drain = some dd ∧ dd.read = .nothing ∧ dd.cur = some en ∧
     (s.bp.pieces.length < 64 ∧ (32 + a.len + 31) / 32 * 32 ≤ L0.zd - s.bp.occupied) ∧ dd.out.length < a.len) ∧
    (let d : Drain := { dd with cur := none, entry := 2 }
     let s : State := sd
     s.rd.drain = some d ∧ s.rd.state = .streaming ∧ s.rd.bad = none ∧ s.rd.user = some .records ∧ calm s = true ∧ (d.read =
     .nothing ∧ d.cur = none ∧ s.rd.ask = none ∧ s.rd.fill = none ∧ s.rd.out = none ∧ d.entries ≤ d.entry) ∧ readSlots s =
     [d.slot]) := by
  refine ⟨?_, ?_⟩ <;> decide +kernel

theorem witness_ReadGoesOn_3 :
    let rest : List Nat := []
    let s : State := { (putSlot 3 { freshSlot .rebuilding 0 with held := (List.replicate 32 true).set 29 false |>.set 30 false}
      rb) with
        rd.rebuildQ := [3], rd.rebuildGot := List.replicate 917504 0, bp.reqs := [partWrite (4194304 + 3*1048576 + 917440)
          (trailerBytes 0 2 1 20 0) .plain] }
    s.rd.rebuildGot.length = 917504 ∧ s.rd.rebuildQ = 3 :: rest ∧ calm s = true ∧ s.rd.user = some .records ∧ s.rd.ask.isSome =
    true ∧ s.rd.state = .streaming ∧ s.rd.after = none ∧ s.rd.bad = none ∧ s.ch.tagUnreadable = false ∧ (slotAt s 3).st ≠ .free
    ∧ trailerGood (slotTrailer (State.rebuilt 3 rest s) 3) (slotAt s 3).seg = true :=
  ⟨List.length_replicate, by decide +kernel⟩

theorem witness_ReadEnds :
    (let a : PieceAsk := ak 3
     let d : Drain := d1 1
     let s : State := re 1 (ak 3)
     s.bp.layout = some L0 ∧ quiet s = true ∧ s.bp.reqs = [partWrite (L0.dlBase + 64) (pieceHeader a) (Purpose.pieceHeader 64)]
     ∧ (L0.dlBase + 64) % 64 + 32 ≤ 64 ∧ s.rd.out = some a ∧ Option.map Piece.start s.bp.pieces.getLast? = some 64 ∧ s.rd.user =
     some .records ∧ s.rd.ended = none ∧ s.rd.ask = none ∧ s.rd.fill = none ∧ s.rd.drain = some d ∧ d.cur = none ∧ d.read =
     .nothing ∧ s.rd.state = .streaming ∧ s.ch.transport = .active ∧ s.mo.mode = some .readStream ∧ s.mo.mask = false ∧
     s.mo.wait ≠ .failing ∧ s.mo.v ≠ 0 ∧ a.last = true ∧ a.status ≠ 2 ∧ a.filemark = false ∧ s.rd.delivered + 1 < s.rd.wanted ∧
     d.entry < d.entries) ∧
    (let a : PieceAsk := ak 3
     let d : Drain := d1 2
     let s : State := re 2 (ak 3)
     s.bp.layout = some L0 ∧ quiet s = true ∧ s.bp.reqs = [partWrite (L0.dlBase + 64) (pieceHeader a) (Purpose.pieceHeader 64)]
     ∧ (L0.dlBase + 64) % 64 + 32 ≤ 64 ∧ s.rd.out = some a ∧ Option.map Piece.start s.bp.pieces.getLast? = some 64 ∧ s.rd.user =
     some .records ∧ s.rd.ended = none ∧ s.rd.ask = none ∧ s.rd.fill = none ∧ s.rd.drain = some d ∧ d.cur = none ∧ d.read =
     .nothing ∧ s.rd.state = .streaming ∧ s.ch.transport = .active ∧ s.mo.mode = some .readStream ∧ s.mo.mask = false ∧
     s.mo.wait ≠ .failing ∧ s.mo.v ≠ 0 ∧ a.last = true ∧ a.status ≠ 2 ∧ a.filemark = false ∧ s.rd.delivered + 1 < s.rd.wanted ∧
     d.entries ≤ d.entry) ∧
    (let a : PieceAsk := ak 3
     let d : Drain := d1 2
     let s : State := { re 2 (ak 3) with rd.wanted := 3 }
     s.bp.layout = some L0 ∧ quiet s = true ∧ s.bp.reqs = [partWrite (L0.dlBase + 64) (pieceHeader a) (Purpose.pieceHeader 64)]
     ∧ (L0.dlBase + 64) % 64 + 32 ≤ 64 ∧ s.rd.out = some a ∧ Option.map Piece.start s.bp.pieces.getLast? = some 64 ∧ s.rd.user =
     some .records ∧ s.rd.ended = none ∧ s.rd.ask = none ∧ s.rd.fill = none ∧ s.rd.drain = some d ∧ d.cur = none ∧ d.read =
     .nothing ∧ s.rd.state = .streaming ∧ s.ch.transport = .active ∧ s.mo.mode = some .readStream ∧ s.mo.mask = false ∧
     s.mo.wait ≠ .failing ∧ s.mo.v ≠ 0 ∧ a.last = true ∧ a.status ≠ 2 ∧ a.filemark = false ∧ s.rd.wanted ≤ s.rd.delivered + 1) ∧
    (let a : PieceAsk := { ak 0 with filemark := true }
     let d : Drain := d1 2
     let s : State := re 2 { ak 0 with filemark := true }
     s.bp.layout = some L0 ∧ quiet s = true ∧ s.bp.reqs = [partWrite (L0.dlBase + 64) (pieceHeader a) (Purpose.pieceHeader 64)]
     ∧ (L0.dlBase + 64) % 64 + 32 ≤ 64 ∧ s.rd.out = some a ∧ Option.map Piece.start s.bp.pieces.getLast? = some 64 ∧ s.rd.user =
     some .records ∧ s.rd.ended = none ∧ s.rd.ask = none ∧ s.rd.fill = none ∧ s.rd.drain = some d ∧ d.cur = none ∧ d.read =
     .nothing ∧ s.rd.state = .streaming ∧ s.ch.transport = .active ∧ s.mo.mode = some .readStream ∧ s.mo.mask = false ∧
     s.mo.wait ≠ .failing ∧ s.mo.v ≠ 0 ∧ a.last = true ∧ a.status ≠ 2 ∧ a.filemark = true) ∧
    (let s : State := nt { sd with rd.state := .drainingOnly, rd.dataEnd := true, mo.mode := some .ramp }
     quiet s = true ∧ s.rd.drain = some (d1 2) ∧ (d1 2).read = .nothing ∧ (d1 2).cur = none ∧ (d1 2).entries ≤ (d1 2).entry ∧
     s.rd.user = some .records ∧ s.rd.state = .drainingOnly ∧ s.rd.dataEnd = true ∧ s.rd.ended = none ∧ s.rd.bad = none ∧
     s.rd.ask = none ∧ s.rd.fill = none ∧ s.rd.out = none ∧ readSlots s = [(d1 2).slot] ∧ s.ch.transport = .active ∧ s.mo.mode =
     some .ramp ∧ s.mo.mask = false ∧ s.mo.wait ≠ .failing) := by
  refine ⟨?_, ?_, ?_, ?_, ?_⟩ <;> decide +kernel

end Reading

namespace Serving

def cn (src : Source) (m : MonMode) : Counter :=
  { Counter.clear with
    source := src, mode := m, threshold := 1, count := 4294967290 }
def off3 : List Counter := List.replicate 3 Counter.clear
def h0 : State := nt
  { at_ .ready none with
    he.tick := true, he.clean := .ok, bp.occupied := 104858, mo.band := 3, li.attn := .window }
def mo_ (n s m : Nat) : MonitorOperands := { counter := n, mode := m, source := s, threshold := 7, invert := true, limit := 9 }
def cl (s h u e : Nat) : CleanOperands := { soft := s, hard := h, usage := u, escalation := e }
def seqw (v : Nat) : List (Option Byte) := ob (leBytes 2 v)
def slotB (code seq : Nat) : List Byte := leBytes 2 code ++ [0,0] ++ leBytes 4 77 ++ List.replicate 48 0 ++ leBytes 2 seq ++
  List.replicate 6 0
def sr (k : SlotReadKind) (b : List Byte) : State := { s0 with ci.state := .reading k, ci.returned := some b }
def rec1 : Record :=
  { notice := false, status := 2, sub := 0, rep := 0, code := 9, present := 0, tag := 0, body := List.replicate 20 0 }
def fin (p : Option FwCmd) : Job :=
  { running := some (.cmd { tag := 0, op := .readAbort }), judged := true, finishing := true, pending := p }
def rr : State := { s0 with cq.queue := [rec1] }
def r3 : Req := { cls := .internal, isWrite := true, addr := 8192, len := 32, data := ob (hb 32), got := [], what := .record }
def hh (a : Byte) : LinkHeader :=
  { fallInterval := 260400, rateFraming := false, rateLate := false, addr := a, addrFraming := false, addrLate := false }
def lk : State :=
  { h0 with
    li.phase := .awaitHeader, li.strap := 3, li.unloadRefused := true, li.attnFirmware := true, ch.recordHeld := true,
    he.meters := 4500000, li.lastErr := .overrun, he.tick := false }
def py : LinkPayload := { bytes := [0, 0x12], check := 0x84, framing := false, late := false }
def lb : State := { lk with mo.quality := .locked, mo.count := 30000 }

theorem witness_CommandsTakenIn_1 :
    (let n : Nat := 4096+56
     let ws : List (Option Byte) := seqw 1
     requestWf n ws.length = true ∧ s0.bp.layout = some L0 ∧ s0.bp.held = none ∧ s0.bp.watch = false ∧ 256 ≤ n ∧
     insideRegion L0.cmdBase (64 * L0.k) n = true ∧ n % 64 ≤ 56 ∧ 58 ≤ n % 64 + ws.length ∧
     (ws.getD (56 - n % 64) none).isSome = true ∧ (ws.getD (57 - n % 64) none).isSome = true ∧ calm s0 = true ∧
     s0.ci.state = .waiting ∧ (n - L0.cmdBase) / 64 = s0.ci.index ∧
     field (List.map (fun x => x.getD 0) ws) (56 - n % 64) 2 = s0.ci.expected) ∧
    (let n : Nat := 4096+56
     let ws : List (Option Byte) := seqw 2
     requestWf n ws.length = true ∧ s0.bp.layout = some L0 ∧ s0.bp.held = none ∧ s0.bp.watch = false ∧ 256 ≤ n ∧
     insideRegion L0.cmdBase (64 * L0.k) n = true ∧ n % 64 ≤ 56 ∧ 58 ≤ n % 64 + ws.length ∧
     (ws.getD (56 - n % 64) none).isSome = true ∧ (ws.getD (57 - n % 64) none).isSome = true ∧ calm s0 = true ∧
     s0.ci.state = .waiting ∧ (n - L0.cmdBase) / 64 = s0.ci.index ∧
     field (List.map (fun x => x.getD 0) ws) (56 - n % 64) 2 ≠ s0.ci.expected ∧ cqOpen s0 = true) ∧
    (let n : Nat := 4096+64+56
     let ws : List (Option Byte) := seqw 1
     requestWf n ws.length = true ∧ s0.bp.layout = some L0 ∧ s0.bp.held = none ∧ s0.bp.watch = false ∧ 256 ≤ n ∧
     insideRegion L0.cmdBase (64 * L0.k) n = true ∧ n % 64 ≤ 56 ∧ 58 ≤ n % 64 + ws.length ∧
     (ws.getD (56 - n % 64) none).isSome = true ∧ (ws.getD (57 - n % 64) none).isSome = true ∧ calm s0 = true ∧
     (s0.ci.state ≠ .waiting ∨ (n - L0.cmdBase) / 64 ≠ s0.ci.index)) := by
  refine ⟨?_, ?_, ?_⟩ <;> decide +kernel

theorem witness_CommandsTakenIn_2 :
    let ws : List (Option Byte) := ob (leBytes 4 34)
    requestWf 12288 ws.length = true ∧ s0.bp.layout = some L0 ∧ s0.bp.held = none ∧ s0.bp.watch = false ∧ 256 ≤ 12288 ∧
    insideRegion L0.cmdBase (64 * L0.k) 12288 = false ∧ 12288 ≤ L0.consumer ∧ L0.consumer + 4 ≤ 12288 + ws.length ∧
    (∀ i < 4, (ws.getD (L0.consumer + i - 12288) none).isSome = true) ∧ calm s0 = true ∧ s0.cq.p < L0.n ∧ s0.cq.c < L0.n :=
    by decide +kernel

theorem witness_CommandsTakenIn_3 :
    (let bs : List Byte := slotB 1 1
     let s : State := sr .slot (slotB 1 1)
     s.ci.state = .reading .slot ∧ s.ci.returned = some bs ∧ s.bp.layout = some L0 ∧ calm s = true ∧
     field bs 56 2 = s.ci.expected ∧ slotOp bs = some .load ∧ (s.job (fwJob .load)).running = none) ∧
    (let bs : List Byte := slotB 1 1
     let s : State := { sr .slot (slotB 1 1) with ci.transport := { Job.clear with running := some .autoLoad } }
     s.ci.state = .reading .slot ∧ s.ci.returned = some bs ∧ s.bp.layout = some L0 ∧ calm s = true ∧
     field bs 56 2 = s.ci.expected ∧ slotOp bs = some .load ∧ (s.job (fwJob .load)).running.isSome = true ∧
     (s.job (fwJob .load)).pending = none ∧ FwOp.load ≠ .writeAbort ∧ FwOp.load ≠ .readAbort) ∧
    (let bs : List Byte := slotB 1 1
     let s : State :=
       { sr .slot (slotB 1 1) with
         ci.transport := { Job.clear with running := some .autoLoad, pending := some { tag := 0, op := .load} } }
     s.ci.state = .reading .slot ∧ s.ci.returned = some bs ∧ s.bp.layout = some L0 ∧ calm s = true ∧
     field bs 56 2 = s.ci.expected ∧ slotOp bs = some .load ∧ (s.job (fwJob .load)).running.isSome = true ∧
     (s.job (fwJob .load)).pending.isSome = true) ∧
    (let bs : List Byte := slotB 0x99 1
     let s : State := sr .slot (slotB 0x99 1)
     s.ci.state = .reading .slot ∧ s.ci.returned = some bs ∧ s.bp.layout = some L0 ∧ calm s = true ∧
     field bs 56 2 = s.ci.expected ∧ slotOp bs = none ∧ cqOpen s = true) ∧
    (let bs : List Byte := slotB 1 3
     let s : State := sr .lookAhead (slotB 1 3)
     s.ci.state = .reading .lookAhead ∧ s.ci.returned = some bs ∧ s.bp.layout = some L0 ∧ calm s = true ∧
     field bs 56 2 ≠ s.ci.expected ∧ SlotReadKind.lookAhead = .lookAhead) ∧
    (let bs : List Byte := slotB 1 3
     let s : State := sr .slot (slotB 1 3)
     s.ci.state = .reading .slot ∧ s.ci.returned = some bs ∧ s.bp.layout = some L0 ∧ calm s = true ∧
     field bs 56 2 ≠ s.ci.expected ∧ SlotReadKind.slot ≠ .lookAhead ∧ cqOpen s = true) := by
  refine ⟨?_, ?_, ?_, ?_, ?_, ?_⟩ <;> decide +kernel

theorem witness_RecordsReachRing_1 :
    (let k : WaitKey := .job .read
     let w : List (WaitKey × Record) := []
     let s : State := { s0 with cq.waiting := [(.job .read, rec1)], ci.read := fin none }
     s.cq.waiting = (k, rec1) :: w ∧ k = .job .read ∧ s.cq.queue.length < 8 ∧ (s.job .read).pending = none) ∧
    (let k : WaitKey := .job .read
     let w : List (WaitKey × Record) := []
     let c : FwCmd := { tag := 0, op := .readAbort }
     let s : State := { s0 with cq.waiting := [(.job .read, rec1)], ci.read := fin (some { tag := 0, op := .readAbort }) }
     s.cq.waiting = (k, rec1) :: w ∧ k = .job .read ∧ s.cq.queue.length < 8 ∧ (s.job .read).pending = some c ∧
     s.ci.state ≠ .stalled .read) ∧
    (let k : WaitKey := .alarm 2
     let w : List (WaitKey × Record) := []
     let s : State := { s0 with cq.waiting := [(.alarm 2, rec1)] }
     s.cq.waiting = (k, rec1) :: w ∧ (k = .notice .wake ∨ k = .alarm 2 ∨ k = .intake ∧ s.ci.state ≠ .posting) ∧
     s.cq.queue.length < 8) ∧
    (let k : WaitKey := .alarm 2
     let w : List (WaitKey × Record) := []
     let s : State := { s0 with cq.waiting := [(.alarm 2, rec1)], cq.queue := List.replicate 8 rec1 }
     s.cq.waiting = (k, rec1) :: w ∧ 8 ≤ s.cq.queue.length) ∧
    (let w : List (WaitKey × Record) := []
     let s : State := { s0 with cq.waiting := [(.intake, rec1)], ci.state := .posting }
     s.cq.waiting = (WaitKey.intake, rec1) :: w ∧ WaitKey.intake = .intake ∧ s.ci.state = .posting ∧ s.bp.layout = some L0 ∧
     s.cq.queue.length < 8) := by
  refine ⟨?_, ?_, ?_, ?_, ?_⟩ <;> decide +kernel

theorem witness_RecordsReachRing_2 :
    s0.cq.waiting = [] := by decide +kernel

theorem witness_RecordsReachRing_3_1 :
    (let recs : List Record := []
     rr.bp.layout = some L0 ∧ rr.cq.queue = rec1 :: recs ∧ rr.cq.writing = false ∧
     (rr.cq.p + L0.n - rr.cq.c % L0.n) % L0.n < L0.n - 1) ∧
    (let recs : List Record := []
     let s : State := { s0 with cq.queue := [rec1], cq.p := 1, cq.c := 2 }
     s.bp.layout = some L0 ∧ s.cq.queue = rec1 :: recs ∧ s.cq.writing = false ∧
     L0.n - 1 ≤ (s.cq.p + L0.n - s.cq.c % L0.n) % L0.n) := by
  refine ⟨?_, ?_⟩ <;> decide +kernel

theorem witness_RecordsReachRing_3_2 :
    (s0.cq.queue = [] ∨ s0.cq.writing = true) := by decide +kernel

theorem witness_RecordsReachRing_3_3 :
    let rs : List Req := []
    let rs2 : List Req := []
    let s : State := { s0 with bp.reqs := [r3], cq.p := 31, cq.c := 4, cq.writing := true }
    chooseGrant s = some (rs, r3, rs2) ∧ r3.what = .record ∧ r3.isWrite = true ∧ r3.cls = .internal ∧ 0 < r3.len ∧
    r3.len ≤ 64 - r3.addr % 64 ∧ s.bp.layout = some L0 := by decide +kernel

theorem witness_RecordsReachRing_4 :
    rec1.body.length = 20 ∧ rec1.status < 256 ∧ rec1.sub < 256 ∧ rec1.rep < 256 ∧ rec1.code < 65536 ∧ rec1.present < 256 :=
    by decide +kernel

theorem witness_LinkQueriesAnswered_3 :
    let h : LinkHeader := hh 0x61
    let s : State := { lk with li.phase := .awaitAttention, li.bitTime := none, li.tx := [], li.copied := false }
    (lk.li.phase = .awaitHeader ∧ headerGood h lk = false ∧ s =
    { lk with li.phase := .awaitAttention, li.bitTime := none, li.tx := [], li.copied := false } ∨ lk.li.phase ≠ .awaitHeader
    ∧ s = lk) := by decide +kernel

theorem witness_LinkQueriesAnswered_4 :
    (let h : LinkHeader := hh 0x60
     lk.li.phase = .awaitHeader ∧ headerGood h lk = true ∧ BitVec.toNat h.addr / 2 % 16 = 0) ∧
    (let h : LinkHeader := hh 0x63
     lk.li.phase = .awaitHeader ∧ headerGood h lk = true ∧ BitVec.toNat h.addr / 2 % 16 = 1) ∧
    (let h : LinkHeader := hh 0x65
     lk.li.phase = .awaitHeader ∧ headerGood h lk = true ∧ BitVec.toNat h.addr / 2 % 16 = 2) ∧
    (let h : LinkHeader := hh 0x6A
     let bs : List Byte := hb 8
     let s : State := { lk with li.staged := some (hb 8) }
     s.li.phase = .awaitHeader ∧ headerGood h s = true ∧ BitVec.toNat h.addr / 2 % 16 = 5 ∧ s.li.staged = some bs) ∧
    (let h : LinkHeader := hh 0x6A
     lk.li.phase = .awaitHeader ∧ headerGood h lk = true ∧ BitVec.toNat h.addr / 2 % 16 = 5 ∧ lk.li.staged = none ∧
     cqOpen lk = true) := by
  refine ⟨?_, ?_, ?_, ?_, ?_⟩ <;> decide +kernel

theorem witness_LinkQueriesAnswered_5 :
    (let h : LinkHeader := hh 0x69
     lb.li.phase = .awaitHeader ∧ headerGood h lb = true ∧ (py.framing = false ∧ py.late = false ∧ (py.bytes.length = if
     BitVec.toNat h.addr / 2 % 16 = 6 then 8 else 2) ∧ List.foldl (fun x1 x2 => x1 + x2) (py.check + h.addr) py.bytes = 255) ∧
     BitVec.toNat h.addr / 2 % 16 = 4 ∧ lb.ci.transport = Job.clear ∧ lb.ci.read = Job.clear ∧ lb.ci.write = Job.clear ∧
     quiet lb = true ∧ lb.ch.transport = .ready ∧ lb.pw.settling = false ∧ lb.re.brake = false ∧ lb.ch.seat = true ∧
     lb.mo.quality ≠ .unknown ∧ lb.he.cleanDist = none ∧ lb.mo.pass = 0 ∧ 24000 ≤ lb.mo.count ∧
     (BitVec.toNat h.addr / 2 % 16 = 3 ∨ BitVec.toNat h.addr / 2 % 16 = 4 ∨ BitVec.toNat h.addr / 2 % 16 = 6)) ∧
    (let h : LinkHeader := hh 0x69
     let p : LinkPayload := { py with late := true }
     lb.li.phase = .awaitHeader ∧ headerGood h lb = true ∧ (¬(p.framing = false ∧ p.late = false ∧ (p.bytes.length = if
     BitVec.toNat h.addr / 2 % 16 = 6 then 8 else 2) ∧ List.foldl (fun x1 x2 => x1 + x2) (p.check + h.addr) p.bytes = 255)) ∧
     BitVec.toNat h.addr / 2 % 16 = 4) ∧
    (let h : LinkHeader := hh 0x69
     let s : State := { lb with ri.session := .opened }
     s.li.phase = .awaitHeader ∧ headerGood h s = true ∧ (py.framing = false ∧ py.late = false ∧ (py.bytes.length = if
     BitVec.toNat h.addr / 2 % 16 = 6 then 8 else 2) ∧ List.foldl (fun x1 x2 => x1 + x2) (py.check + h.addr) py.bytes = 255) ∧
     BitVec.toNat h.addr / 2 % 16 = 4 ∧ cqOpen s = true ∧ s.ci.transport = Job.clear ∧ s.ri.session ≠ .closed) ∧
    (let h : LinkHeader := hh 0x69
     let s : State := { lb with ci.transport := runningNow { tag := 4, op := .park } }
     s.li.phase = .awaitHeader ∧ headerGood h s = true ∧ (py.framing = false ∧ py.late = false ∧ (py.bytes.length = if
     BitVec.toNat h.addr / 2 % 16 = 6 then 8 else 2) ∧ List.foldl (fun x1 x2 => x1 + x2) (py.check + h.addr) py.bytes = 255) ∧
     BitVec.toNat h.addr / 2 % 16 = 4 ∧ cqOpen s = true ∧
     (s.ci.transport.running.isSome = true ∨ s.ci.transport.pending.isSome = true)) ∧
    (let h : LinkHeader := hh 0x69
     let s : State := { lb with ci.read := runningNow { tag := 4, op := .readRecords 4 } }
     s.li.phase = .awaitHeader ∧ headerGood h s = true ∧ (py.framing = false ∧ py.late = false ∧ (py.bytes.length = if
     BitVec.toNat h.addr / 2 % 16 = 6 then 8 else 2) ∧ List.foldl (fun x1 x2 => x1 + x2) (py.check + h.addr) py.bytes = 255) ∧
     BitVec.toNat h.addr / 2 % 16 = 4 ∧ cqOpen s = true ∧ s.ci.transport = Job.clear ∧ s.ri.session = .closed ∧
     readRunning s = true) ∧
    (let h : LinkHeader := hh 0x69
     let s : State := nt { lb with ch.transport := .empty }
     s.li.phase = .awaitHeader ∧ headerGood h s = true ∧ (py.framing = false ∧ py.late = false ∧ (py.bytes.length = if
     BitVec.toNat h.addr / 2 % 16 = 6 then 8 else 2) ∧ List.foldl (fun x1 x2 => x1 + x2) (py.check + h.addr) py.bytes = 255) ∧
     BitVec.toNat h.addr / 2 % 16 = 4 ∧ cqOpen s = true ∧ s.ci.transport = Job.clear ∧ s.ri.session = .closed ∧
     readRunning s = false ∧ s.ch.transport ≠ .ready ∧ s.ch.transport ≠ .parked) ∧
    (let h : LinkHeader := hh 0x66
     let p : LinkPayload := { py with check := checkByte 0x66 [0, 0x12] }
     lb.li.phase = .awaitHeader ∧ headerGood h lb = true ∧ (p.framing = false ∧ p.late = false ∧ (p.bytes.length = if
     BitVec.toNat h.addr / 2 % 16 = 6 then 8 else 2) ∧ List.foldl (fun x1 x2 => x1 + x2) (p.check + h.addr) p.bytes = 255) ∧
     BitVec.toNat h.addr / 2 % 16 = 3 ∧ cqOpen lb = true) ∧
    (let h : LinkHeader := hh 0x6C
     let p : LinkPayload := { py with check := checkByte 0x6C (hb 8), bytes := hb 8 }
     lb.li.phase = .awaitHeader ∧ headerGood h lb = true ∧ (p.framing = false ∧ p.late = false ∧ (p.bytes.length = if
     BitVec.toNat h.addr / 2 % 16 = 6 then 8 else 2) ∧ List.foldl (fun x1 x2 => x1 + x2) (p.check + h.addr) p.bytes = 255) ∧
     BitVec.toNat h.addr / 2 % 16 = 6 ∧ cqOpen lb = true) ∧
    (let h : LinkHeader := hh 0x6C
     lb.li.phase = .awaitHeader ∧ headerGood h lb = true ∧ (¬(py.framing = false ∧ py.late = false ∧ (py.bytes.length = if
     BitVec.toNat h.addr / 2 % 16 = 6 then 8 else 2) ∧ List.foldl (fun x1 x2 => x1 + x2) (py.check + h.addr) py.bytes =
     255)) ∧ BitVec.toNat h.addr / 2 % 16 = 6) ∧
    (let h : LinkHeader := hh 0x66
     lb.li.phase = .awaitHeader ∧ headerGood h lb = true ∧ (¬(py.framing = false ∧ py.late = false ∧ (py.bytes.length = if
     BitVec.toNat h.addr / 2 % 16 = 6 then 8 else 2) ∧ List.foldl (fun x1 x2 => x1 + x2) (py.check + h.addr) py.bytes =
     255)) ∧ BitVec.toNat h.addr / 2 % 16 = 3) ∧
    (let h : LinkHeader := hh 0x6F
     lb.li.phase = .awaitHeader ∧ headerGood h lb = true ∧ 7 ≤ BitVec.toNat h.addr / 2 % 16) := by
  refine ⟨?_, ?_, ?_, ?_, ?_, ?_, ?_, ?_, ?_, ?_, ?_⟩ <;> decide +kernel

theorem witness_LinkQueriesAnswered_6 :
    ((lb.li.phase = .awaitHeader ∨ lb.li.phase = .awaitPayload)) ∧
    (h0.li.phase ≠ .awaitHeader ∧ h0.li.phase ≠ .awaitPayload) := by
  refine ⟨?_, ?_⟩ <;> decide +kernel

theorem witness_LineAndAttention_1 :
    (h0.li.line ≠ true ∧ h0.li.idleTimer = false ∧ (h0.li.phase = .awaitAttention ∧ 250 ≤ 300 ∧ h0.li.pulsing = false) ∧
     (¬(h0.li.idleAtFall.getD !h0.li.active) = true ∨ h0.pw.linkN = false ∧ (h0.ch.transport ≠ .parked ∨ h0.pw.linkW =
     false)) ∧ (h0.li.phase = .awaitAttention ∨ h0.li.phase = .awaitHeader ∨ h0.li.phase = .awaitPayload)) ∧
    (let s : State := { h0 with li.phase := .answering 3 }
     ¬(s.li.phase = .awaitAttention ∧ 250 ≤ 300 ∧ s.li.pulsing = false) ∧ s.li.phase = .answering 3 ∧ 3 ≠ 0 ∧
     (3 ≠ 5 ∨ s.li.copied = false)) ∧
    (let s : State := nt { h0 with ch.transport := .parked, pw.linkW := true, li.idleTimer := true, li.idleAtFall := some true }
     s.li.idleTimer = true ∧ (s.li.phase = .awaitAttention ∧ 250 ≤ 300 ∧ s.li.pulsing = false) ∧
     (s.li.idleAtFall.getD !s.li.active) = true ∧ s.ch.transport = .parked ∧ s.pw.linkW = true ∧ s.pw.linkN = false ∧
     s.re.brake = false ∧ s.ch.step = none) ∧
    (let s : State := { h0 with pw.linkW := true, pw.linkN := true, li.idleAtFall := some true, li.line := true }
     s.li.line = true ∧ (s.li.phase = .awaitAttention ∧ 250 ≤ 300 ∧ s.li.pulsing = false) ∧
     (s.li.idleAtFall.getD !s.li.active) = true ∧ s.pw.linkN = true ∧ (s.ch.transport ≠ .parked ∨ s.pw.linkW = false) ∧
     cqOpen s = true) ∧
    (let s : State := { h0 with li.phase := .answering 0, li.attnClean := true }
     s.li.phase = .answering 0) ∧
    (let s : State := { h0 with li.phase := .answering 5, li.copied := true, li.staged := some [] }
     s.li.phase = .answering 5 ∧ s.li.copied = true) := by
  refine ⟨?_, ?_, ?_, ?_, ?_, ?_⟩ <;> decide +kernel

theorem witness_LineAndAttention_2 :
    let bs : List Byte := hb 8
    let s : State := { h0 with li.copied := true }
    placeOpen .link s = true ∧ (calm s = true ∨ quiet s = true) ∧ bs.length = 8 := by decide +kernel

theorem witness_LineAndAttention_3 :
    (¬(h0.li.attn = .pulseDue ∧ h0.li.pulsing = false ∧ h0.li.line = false ∧ h0.li.phase = .awaitAttention) ∧
     h0.li.pulsing = false ∧ h0.li.attn = .window ∧ h0.li.pulses < 3 ∧ h0.li.attn ≠ .gap) ∧
    (let s : State := { h0 with li.pulses := 3, li.pulsing := true, li.attnUnloaded := true }
     s.li.pulsing = true ∧ s.li.attn = .window ∧ 3 ≤ s.li.pulses ∧ cqOpen s = true) ∧
    (let s : State := { h0 with li.attn := .gap }
     s.li.attn ≠ .window ∧ s.li.attn = .gap) ∧
    (let s : State := { h0 with li.attn := .pulseDue }
     (s.li.attn = .pulseDue ∧ s.li.pulsing = false ∧ s.li.line = false ∧ s.li.phase = .awaitAttention)) := by
  refine ⟨?_, ?_, ?_, ?_⟩ <;> decide +kernel

theorem witness_HealthCounts_1 :
    (let e : Ev := .demotion
     let c : Counter := { cn (.event 13) .count with limit := 4294967291 }
     let s : State := { h0 with
         he.counters := (List.replicate 4 Counter.clear).set 2 ({ cn (.event 13) .count with limit := 4294967291 }) }
     s.he.counters.length = 4 ∧ 2 < 4 ∧ (e = Ev.frameWritten → s.he.tallyOpen = false ∨ min (s.he.tally.frames + 1) 4294967295 %
     4096 ≠ 0) ∧ (c.source = .event e.code ∧ c.mode = .count) ∧ (¬(c.limit = 0 ∨ c.posted = true ∨
     { c with count := min (c.count + 1) 4294967295 }.count < c.limit)) ∧ cqOpen s = true ∧ (∀ j < 4, j ≠ 2 →
     ¬((s.he.counters.getD j Counter.clear).source = .event e.code ∧ (s.he.counters.getD j Counter.clear).mode = .count))) ∧
    (let c : Counter := { cn (.level 2) .level with limit := 0 }
     let s : State := { h0 with
         he.counters := (List.replicate 4 Counter.clear).set 3 ({ cn (.level 2) .level with limit := 0 }) }
     s.he.tick = true ∧ s.he.counters.length = 4 ∧ 3 < 4 ∧ s.he.counters.getD 3 Counter.clear = c ∧ (∀ j < 4, j ≠ 3 →
     (s.he.counters.getD j Counter.clear).source = .off) ∧ c.source = .level 2 ∧ s.bp.layout = some L0 ∧ L0.zd ≠ 0 ∧ c.mode =
     .level ∧ (c.limit = 0 ∨ c.posted = true ∨ min (c.count + if 2 = 0 then (List.filter (fun k => decide (k.st = .sealed))
     s.sm.slots).length else if 2 = 1 then s.mo.band else s.bp.occupied * 100 / L0.zd) 4294967295 < c.limit)) ∧
    (let c : Counter := { cn (.level 1) .level with limit := 4294967293 }
     let s : State := { h0 with
         he.counters := (List.replicate 4 Counter.clear).set 3 ({ cn (.level 1) .level with limit := 4294967293 }) }
     s.he.tick = true ∧ s.he.counters.length = 4 ∧ 3 < 4 ∧ s.he.counters.getD 3 Counter.clear = c ∧ (∀ j < 4, j ≠ 3 →
     (s.he.counters.getD j Counter.clear).source = .off) ∧ c.source = .level 1 ∧ s.bp.layout = some L0 ∧ L0.zd ≠ 0 ∧ c.mode =
     .level ∧ (¬(c.limit = 0 ∨ c.posted = true ∨ min (c.count + if 1 = 0 then (List.filter (fun k => decide (k.st = .sealed))
     s.sm.slots).length else if 1 = 1 then s.mo.band else s.bp.occupied * 100 / L0.zd) 4294967295 < c.limit)) ∧ cqOpen s = true) ∧
    (let c : Counter := { cn (.level 1) .above with limit := 4294967293 }
     let s : State := { h0 with
         he.counters := (List.replicate 4 Counter.clear).set 3 ({ cn (.level 1) .above with limit := 4294967293 }) }
     s.he.tick = true ∧ s.he.counters.length = 4 ∧ 3 < 4 ∧ s.he.counters.getD 3 Counter.clear = c ∧ (∀ j < 4, j ≠ 3 →
     (s.he.counters.getD j Counter.clear).source = .off) ∧ c.source = .level 1 ∧ s.bp.layout = some L0 ∧ L0.zd ≠ 0 ∧ c.mode =
     .above ∧ (if c.invert = true then (if 1 = 0 then (List.filter (fun k => decide (k.st = .sealed)) s.sm.slots).length else if
     1 = 1 then s.mo.band else s.bp.occupied * 100 / L0.zd) < c.threshold else c.threshold ≤ if 1 = 0 then (List.filter (fun k
     => decide (k.st = .sealed)) s.sm.slots).length else if 1 = 1 then s.mo.band else s.bp.occupied * 100 / L0.zd) ∧ (c.limit =
     0 ∨ c.posted = true ∨ min (c.count + 1) 4294967295 < c.limit)) ∧
    (let c : Counter := { cn (.level 1) .above with limit := 4294967291 }
     let s : State := { h0 with
         he.counters := (List.replicate 4 Counter.clear).set 3 ({ cn (.level 1) .above with limit := 4294967291 }) }
     s.he.tick = true ∧ s.he.counters.length = 4 ∧ 3 < 4 ∧ s.he.counters.getD 3 Counter.clear = c ∧ (∀ j < 4, j ≠ 3 →
     (s.he.counters.getD j Counter.clear).source = .off) ∧ c.source = .level 1 ∧ s.bp.layout = some L0 ∧ L0.zd ≠ 0 ∧ c.mode =
     .above ∧ (if c.invert = true then (if 1 = 0 then (List.filter (fun k => decide (k.st = .sealed)) s.sm.slots).length else if
     1 = 1 then s.mo.band else s.bp.occupied * 100 / L0.zd) < c.threshold else c.threshold ≤ if 1 = 0 then (List.filter (fun k
     => decide (k.st = .sealed)) s.sm.slots).length else if 1 = 1 then s.mo.band else s.bp.occupied * 100 / L0.zd) ∧ (¬(c.limit
     = 0 ∨ c.posted = true ∨ min (c.count + 1) 4294967295 < c.limit)) ∧ cqOpen s = true) ∧
    (let c : Counter := { cn (.level 0) .above with limit := 4294967291 }
     let s : State := { h0 with
         he.counters := (List.replicate 4 Counter.clear).set 3 ({ cn (.level 0) .above with limit := 4294967291 }) }
     s.he.tick = true ∧ s.he.counters.length = 4 ∧ 3 < 4 ∧ s.he.counters.getD 3 Counter.clear = c ∧ (∀ j < 4, j ≠ 3 →
     (s.he.counters.getD j Counter.clear).source = .off) ∧ c.source = .level 0 ∧ s.bp.layout = some L0 ∧ L0.zd ≠ 0 ∧ c.mode =
     .above ∧ (¬if c.invert = true then (if 0 = 0 then (List.filter (fun k => decide (k.st = .sealed)) s.sm.slots).length else
     if 0 = 1 then s.mo.band else s.bp.occupied * 100 / L0.zd) < c.threshold else c.threshold ≤ if 0 = 0 then (List.filter (fun
     k => decide (k.st = .sealed)) s.sm.slots).length else if 0 = 1 then s.mo.band else s.bp.occupied * 100 / L0.zd)) ∧
    (let c : Counter := { cn (.level 1) .enter with limit := 4294967293 }
     let s : State := { h0 with
         he.counters := (List.replicate 4 Counter.clear).set 3 ({ cn (.level 1) .enter with limit := 4294967293 }) }
     s.he.tick = true ∧ s.he.counters.length = 4 ∧ 3 < 4 ∧ s.he.counters.getD 3 Counter.clear = c ∧ (∀ j < 4, j ≠ 3 →
     (s.he.counters.getD j Counter.clear).source = .off) ∧ c.source = .level 1 ∧ s.bp.layout = some L0 ∧ L0.zd ≠ 0 ∧ c.mode =
     .enter ∧ (if c.invert = true then (if 1 = 0 then (List.filter (fun k => decide (k.st = .sealed)) s.sm.slots).length else if
     1 = 1 then s.mo.band else s.bp.occupied * 100 / L0.zd) < c.threshold else c.threshold ≤ if 1 = 0 then (List.filter (fun k
     => decide (k.st = .sealed)) s.sm.slots).length else if 1 = 1 then s.mo.band else s.bp.occupied * 100 / L0.zd) ∧ c.prev =
     false ∧ (c.limit = 0 ∨ c.posted = true ∨ min (c.count + 1) 4294967295 < c.limit)) ∧
    (let c : Counter := { cn (.level 0) .enter with invert := true, limit := 4294967291 }
     let s : State := { h0 with
         he.counters := (List.replicate 4 Counter.clear).set 3
           ({ cn (.level 0) .enter with invert := true, limit := 4294967291 }) }
     s.he.tick = true ∧ s.he.counters.length = 4 ∧ 3 < 4 ∧ s.he.counters.getD 3 Counter.clear = c ∧ (∀ j < 4, j ≠ 3 →
     (s.he.counters.getD j Counter.clear).source = .off) ∧ c.source = .level 0 ∧ s.bp.layout = some L0 ∧ L0.zd ≠ 0 ∧ c.mode =
     .enter ∧ (if c.invert = true then (if 0 = 0 then (List.filter (fun k => decide (k.st = .sealed)) s.sm.slots).length else if
     0 = 1 then s.mo.band else s.bp.occupied * 100 / L0.zd) < c.threshold else c.threshold ≤ if 0 = 0 then (List.filter (fun k
     => decide (k.st = .sealed)) s.sm.slots).length else if 0 = 1 then s.mo.band else s.bp.occupied * 100 / L0.zd) ∧ c.prev =
     false ∧ (¬(c.limit = 0 ∨ c.posted = true ∨ min (c.count + 1) 4294967295 < c.limit)) ∧ cqOpen s = true) := by
  refine ⟨?_, ?_, ?_, ?_, ?_, ?_, ?_, ?_⟩ <;> decide +kernel

theorem witness_HealthCounts_2 :
    (let c : Counter := { cn (.level 0) .enter with limit := 0 }
     let s : State := { h0 with
         he.counters := (List.replicate 4 Counter.clear).set 3 ({ cn (.level 0) .enter with limit := 0 }) }
     s.he.tick = true ∧ s.he.counters.length = 4 ∧ 3 < 4 ∧ s.he.counters.getD 3 Counter.clear = c ∧ (∀ j < 4, j ≠ 3 →
     (s.he.counters.getD j Counter.clear).source = .off) ∧ c.source = .level 0 ∧ s.bp.layout = some L0 ∧ L0.zd ≠ 0 ∧ c.mode =
     .enter ∧ ((¬if c.invert = true then (if 0 = 0 then (List.filter (fun k => decide (k.st = .sealed)) s.sm.slots).length else
     if 0 = 1 then s.mo.band else s.bp.occupied * 100 / L0.zd) < c.threshold else c.threshold ≤ if 0 = 0 then (List.filter (fun
     k => decide (k.st = .sealed)) s.sm.slots).length else if 0 = 1 then s.mo.band else s.bp.occupied * 100 / L0.zd) ∨ c.prev =
     true)) ∧
    (let e : Ev := .demotion
     let c : Counter := Counter.clear
     let s : State := h0
     s.he.counters.length = 4 ∧ 2 < 4 ∧ (e = Ev.frameWritten → s.he.tallyOpen = false ∨ min (s.he.tally.frames + 1) 4294967295 %
     4096 ≠ 0) ∧ (∀ c ∈ s.he.counters, c.source = .event e.code ∧ c.mode = .count → c.limit = 0 ∨ c.posted = true ∨
     { c with count := min (c.count + 1) 4294967295 }.count < c.limit)) ∧
    (let e : Ev := .demotion
     e ∈ [Ev.tensionExcursion, Ev.reelStall, Ev.backhitch, Ev.promotion, Ev.demotion, Ev.demotionRejected, Ev.parkRejected]) ∧
    (let s : State := h0
     placeOpen JobId.health s = true ∧ (calm s = true ∨ quiet s = true) ∧ (¬((mo_ 4 0 0).counter ≤ 3 ∧ ((mo_ 4 0 0).source = 0 ∨
     (1 ≤ (mo_ 4 0 0).source ∧ (mo_ 4 0 0).source ≤ 16) ∧ modeOf (mo_ 4 0 0).mode = .count ∨ (65 ≤ (mo_ 4 0 0).source ∧ (mo_ 4 0
     0).source ≤ 67) ∧ modeOf (mo_ 4 0 0).mode ≠ .count))) ∧ (s.he.clean = .ok ∧ s.he.meters < max 1000 (min (cl 0 3000 5
     0).usage 10000000) ∨ s.he.clean = .advised ∧ s.he.escCount < max 1 (min (cl 0 3000 5 0).escalation 50) ∨ s.he.clean =
     .required ∨ s.he.clean = .cleaning)) ∧
    (let s : State := h0
     s.bp.layout = some L0 ∧ placeOpen JobId.health s = true ∧ (calm s = true ∨ quiet s = true)) ∧
    (let s : State := { h0 with he.clean := .ok, he.meters := 1000 }
     placeOpen JobId.health s = true ∧ (calm s = true ∨ quiet s = true) ∧ ((mo_ 3 0 0).counter ≤ 3 ∧ ((mo_ 3 0 0).source = 0 ∨
     (1 ≤ (mo_ 3 0 0).source ∧ (mo_ 3 0 0).source ≤ 16) ∧ modeOf (mo_ 3 0 0).mode = .count ∨ (65 ≤ (mo_ 3 0 0).source ∧ (mo_ 3 0
     0).source ≤ 67) ∧ modeOf (mo_ 3 0 0).mode ≠ .count)) ∧ s.he.clean = .ok ∧ max 1000 (min (cl 600 30 5 0).usage 10000000) ≤
     s.he.meters ∧ s.cq.queue.length < 7) ∧
    (let s : State := { h0 with he.clean := .advised, he.escCount := 50 }
     placeOpen JobId.health s = true ∧ (calm s = true ∨ quiet s = true) ∧ s.he.clean = .advised ∧ max 1 (min (cl 600 30 5
     77).escalation 50) ≤ s.he.escCount ∧ s.ri.session = .closed ∧ s.cq.queue.length < 7) := by
  refine ⟨?_, ?_, ?_, ?_, ?_, ?_, ?_⟩ <;> decide +kernel

theorem witness_HealthCounts_idle :
    (let s : State := { h0 with he.tick := false }
     s.he.tick = false ∨ (s.he.counters.length = 4 ∧ ∀ c ∈ s.he.counters, ∀ n, c.source ≠ .level n)) ∧
    (let s : State := { h0 with he.counters := List.replicate 4 Counter.clear }
     s.he.tick = false ∨ (s.he.counters.length = 4 ∧ ∀ c ∈ s.he.counters, ∀ n, c.source ≠ .level n)) :=
  ⟨.inl rfl, .inr ⟨rfl, fun c h n e => by rw [List.eq_of_mem_replicate h] at e; exact Source.noConfusion e⟩⟩

end Serving

namespace Whole

theorem witness_StepTakesFront : ({ State.reset with pending := [.seatOpen, .moveArrived] }).pending = [.seatOpen, .moveArrived] ∧
    State.reset.pending = [] := by decide +kernel

theorem witness_WellFormedCommandsComplete : (Instr.locate 5 2 0).wf = true ∧ ([] : List (Option Byte)).length = 0 ∧
    64 < 60 % 64 + (ob (hb 5)).length ∧ 536870910 % 64 + 2 ≤ 64 ∧ (2 : Nat) ≠ 0 ∧ 536870912 < 536870911 + (2 : Nat) ∧
    ob (hb 2) ≠ [] ∧ 536870912 % 64 + (ob (hb 2)).length ≤ 64 ∧ 536870912 < 536870912 + (ob (hb 2)).length := by decide +kernel

theorem witness_EveryCommandKeeps : exec .moveArrived State.reset = .next State.reset ∧ Instr.moveArrived ≠ .memoryPortGrant ∧
    (∀ sn b, Instr.moveArrived ≠ .powerOn sn b) ∧ ∀ sn b, Instr.moveArrived ≠ .resetLine sn b :=
  ⟨rfl, by decide, by simp, by simp⟩

/-- A state with bytes in memory, the top band applied, and one command waiting. -/
def busy : State := { State.reset with mem := [(5, 1), (9, 255)], mo.band := 7, pending := [.moveArrived] }

theorem witness_StepKeepsInvariants : (Memory.wf busy.mem = true ∧ bandsLegal busy = true ∧ lawful busy = true ∧
    step busy = .next { busy with pending := [] }) ∧ lawful Intake.cp0 = true ∧ lawful Writing.ws1 = true :=
  ⟨⟨by decide +kernel, by decide +kernel, by decide +kernel, rfl⟩, by decide +kernel, by decide +kernel⟩

theorem witness_StepKeepsTargetNoted : noted busy = true ∧ step busy = .next { busy with pending := [] } :=
  ⟨by decide +kernel, rfl⟩

theorem witness_MemoryReadAfterWrite : Memory.wf busy.mem = true ∧ Memory.wf [] = true := by decide +kernel

theorem witness_WriteOpenJudged_ignored : s0.wr.openBusy = false ∧ s0.wr.countBusy = false := by decide +kernel

theorem witness_GrantMovesChosenLine_1 :
    let r : Req := readOf 0 4 .plain
    let f : Req := writeOf 64 [some 1]
    let s : State := { s0 with bp.reqs := [r, f, readOf 128 4 .plain] }
    chooseGrant s = some ([r], f, [readOf 128 4 .plain]) ∧ s.bp.reqs ≠ [] ∧ f.cls ≠ .internal ∧ f.cls = .front ∧
      chooseGrant { s with bp.starve := 8 } = some ([], r, [f, readOf 128 4 .plain]) ∧ r.cls = .internal := by decide +kernel

theorem witness_SpansStayApart : 3 < 9 ∧ List.Pairwise (fun p q : Nat × Nat => p.2 < q.1) [(1, 2), (4, 6), (10, 12)] ∧
    ∀ r ∈ [((1 : Nat), (2 : Nat)), (4, 6), (10, 12)], r.1 < r.2 := by decide +kernel

theorem witness_BaseBandOfInflow : 4 < baseBand 801 ∨ baseBand 801 = 4 ∧ 753 ≤ 801 ∧ 801 ≤ 847 := by decide +kernel

theorem witness_ParityEquationsHold : (List.replicate 917504 (3 : Byte)).length = 917504 ∧ 3 < 4 ∧ 32767 < 32768 :=
  ⟨List.length_replicate, by decide, by decide⟩

theorem witness_RebuildRestoresFrame : [0, 9, 27, 31].length = 4 ∧ [0, 9, 27, 31].Nodup ∧ (∀ u ∈ [0, 9, 27, 31], u < 32) ∧
    9 ∈ [0, 9, 27, 31] ∧ ∀ k, k < 4 → (List.range 32).foldl (fun a i => a ^^^ gfMul ((0 : Byte)) (alpha (i * k))) 0 = 0 := by
  decide +kernel

theorem witness_CompressionRoundTrip : (hb 3).length ≤ 2048 ∧ ([7, 7, 7] : List Byte) ≠ [] ∧
    ([7, 7, 7] : List Byte).length ≤ 16384 := by decide +kernel

end Whole

namespace Examples
/-! ### The well-formedness check refuses -/

theorem test_wf_request : (Instr.frontPortWrite .interfaceController 60 (ob (hb 4))).wf = true ∧
    (Instr.frontPortWrite .interfaceController 60 (ob (hb 5))).wf = false ∧ (Instr.stagingWrite .interfaceController 64 []).wf =
    false ∧
    (Instr.frontPortRead .controlProcessor 0 65).wf = false ∧ (Instr.deliveryTailRead .interfaceController 0x1FFFFFFF 2).wf =
    false ∧
    (Instr.deliveryTailRead .interfaceController 0x1FFFFFFF 1).wf = true := by decide +kernel

theorem test_wf_samples : (Instr.armMoveDone 4095 true).wf = true ∧ (Instr.armMoveDone 4096 true).wf = false ∧
    (Instr.servoLock 47 20000).wf = true ∧ (Instr.servoLock 48 20000).wf = false ∧ (Instr.servoLock 0 4000000).wf = false := by
  decide +kernel

theorem test_wf_scan :
    let x : ScanSample :=
      { tension := 2048, supplyCurrent := 1, takeUpCurrent := 1, arm := 4095, movement := -3, servoPass := 47, servoCount := 9,
        tape := true }
    (Instr.scanComplete x).wf = true ∧ (Instr.scanComplete { x with tension := 4096 }).wf = false ∧
      (Instr.scanComplete { x with supplyCurrent := 4096 }).wf = false ∧ (Instr.scanComplete { x with takeUpCurrent := 4096 }).wf = false ∧
      (Instr.scanComplete { x with arm := 4096 }).wf = false ∧ (Instr.scanComplete { x with servoPass := 48 }).wf = false := by
  decide +kernel

theorem test_wf_frames :
    let f : FrameId := { seg := 4294967295, idx := 31, placement := 2, stamp := 4294967295 }
    (Instr.verifyResult f .good).wf = true ∧ (Instr.verifyResult { f with idx := 32 } .good).wf = false ∧
      (Instr.verifyResult { f with seg := 4294967296 } .good).wf = false ∧ (Instr.verifyResult { f with placement := 0 } .good).wf = false ∧
      (Instr.verifyResult { f with placement := 3 } .good).wf = false ∧ (Instr.verifyResult { f with stamp := 4294967296 } .good).wf = false ∧
      (Instr.frameReceived f .good 4000000 []).wf = false := by decide +kernel

theorem test_wf_operands : (Instr.setPowerPolicy 0 256 1).wf = false ∧ (Instr.setPowerPolicy 0 1 65536).wf = false ∧
    (Instr.locate 0 256 1).wf = false ∧ (Instr.locate 0 1 4294967296).wf = false ∧ (Instr.writeOpen 0 4294967296 true).wf = false ∧
    (Instr.readRecords 0 65536).wf = false ∧ (Instr.linkReply 0 [1, 2]).wf = false ∧
    (Instr.setMonitor 0 { counter := 256, mode := 0, source := 0, threshold := 0, invert := false, limit := 0 }).wf = false ∧
    (Instr.setMonitor 0 { counter := 0, mode := 4, source := 0, threshold := 0, invert := false, limit := 0 }).wf = false ∧
    (Instr.setCleanLimits 0 { soft := 65536, hard := 0, usage := 0, escalation := 0 }).wf = false ∧
    (Instr.setStreamPolicy 0 { bandMin := 256, bandMax := 0, readBand := 0, restart := 0, highMark := 0, dwell := 0, heavy := 0, readAhead := 0 }).wf = false := by
  decide +kernel

theorem test_wf_payload :
    let h : LinkHeader :=
      { fallInterval := 260400, rateFraming := false, rateLate := false, addr := 0x69, addrFraming := false, addrLate := false }
    let p : LinkPayload := { bytes := [1, 2, 3], check := 0, framing := false, late := false }
    (Instr.loadHint h p).wf = false ∧ (Instr.unloadReq h p).wf = false ∧ (Instr.passIn h p).wf = true ∧
      (Instr.passIn h { p with bytes := List.replicate 9 0 }).wf = false := by decide +kernel

/-- No word spells a command: the opcode table gives its rows no bits. -/
theorem test_decode : decodeTableWord 8 0 = none ∧ State.reset.withFetchWord 8 0 = State.reset := by decide +kernel

/-! ### Worked sequences of the spec -/

/-- The state a command leads to; the same state where it stops. -/
def after (c : Instr) (s : State) : State :=
  match exec c s with
  | .next t => t
  | _ => s

/-- 1.5: the capture that misses is retried with the attempt count at 2; the arm at 3,860 has the tape on its path. -/
theorem test_load_retry :
    let s := after .loadStepLimit (at_ .loading (some .pinCapture))
    let t := after (.armMoveDone 3860 true) { at_ .loading (some .threadPull) with ch.attempt := 2 }
    s.ch.step = some .armHomeForCapture ∧ s.ch.attempt = 2 ∧ t.ch.step = some .tensionUp ∧ t.ch.attempt = 2 := by decide +kernel

/-- 2.3: the three scans of the tension loop. -/
theorem test_loop_steps : stepDt 412 2048 1964 = 427 ∧ stepDs 538 184 176 = 539 ∧ stepDt 427 2048 2130 = 411 ∧
    stepDs 539 184 190 = 538 ∧ stepDt 411 2048 2040 = 412 ∧ stepDs 538 184 184 = 538 ∧ stagedDuty true 427 = 213 :=
    by decide +kernel

/-- A staging watch over a ring of 1 MiB, intake waiting elsewhere. -/
def ring (rl release : Nat) (spans : List Span) : State :=
  { s0 with bp.watch := true, bp.rl := rl, bp.release := release, bp.spans := spans, ri.session := .opened, ri.st := .placing }

/-- 4.4: a span ahead, the gap filled, a write that finds the ring full. -/
theorem test_staging :
    let bytes : List (Option Byte) := List.replicate 64 (some 7)
    let a := after (.stagingWrite .interfaceController (1048576 + 128) bytes) (ring 64 0 [])
    let b := after (.stagingWrite .interfaceController (1048576 + 64) bytes) (ring 64 0 [
      { start := 128, stop := 192 }, { start := 256, stop := 320 }])
    let c := after (.stagingWrite .interfaceController (1048576 + 4032) bytes) (ring 1048512 4096 [])
    let d := after (.stagingWrite .interfaceController (1048576 + 4096) bytes) (ring 1048576 4096 [])
    a.bp.spans = [{ start := 128, stop := 192 }] ∧ a.bp.rl = 64 ∧ b.bp.rl = 192 ∧ b.bp.spans = [{ start := 256, stop := 320 }] ∧
      c.bp.rl = 1048576 ∧ c.bp.held = none ∧ d.bp.held.isSome = true ∧ d.bp.acks = s0.bp.acks := by decide +kernel

/-- 4.6: the tail of B is read before the tail of A. -/
theorem test_tail_reads :
    let p (a n : Nat) (x : PieceState) : Piece := { start := a, len := n, state := x }
    let s : State :=
      { s0 with
        bp.pieces := [p 0 300000 .written, p 300000 200000 .written, p 500000 400000 .written], bp.occupied := 900000 }
    let b := after (.deliveryTailRead .interfaceController (2097152 + 499968) 32) s
    let a := after (.deliveryTailRead .interfaceController (2097152 + 299968) 32) b
    b.bp.pieces = [p 0 300000 .written, p 300000 200000 .marked, p 500000 400000 .written] ∧ b.bp.occupied = 900000 ∧
      a.bp.pieces = [p 500000 400000 .written] ∧ a.bp.occupied = 400000 := by decide +kernel

/-- 5.4: "abcabcabcabcX" after a history reset, and back. -/
theorem test_compress :
    let raw : List Byte := [97, 98, 99, 97, 98, 99, 97, 98, 99, 97, 98, 99, 88]
    let body : List Byte := [0x02, 97, 98, 99, 0xB0, 0x02, 0x00, 88]
    chunkBody true [] raw = (body, true) ∧ expandChunk [] body true 13 = some raw ∧ chunkBody false [] raw = (raw, false) := by
  decide +kernel

/-- 5.5: the fit of each placement up to the misfit. -/
theorem test_fits : chunkFits 895000 1022 5104 false = true ∧ chunkFits 900104 1022 704 false = true ∧
    chunkFits 900808 1023 9004 true = false ∧ chunkFits 0 0 9004 true = true ∧ padOf 900 = 12 := by decide +kernel

/-- 7.3: the base band at the ends of its ranges; 7.5: 801 gives 4, and 1,130 satisfies no band. -/
theorem test_bands : [470, 471, 564, 565, 658, 659, 752, 753, 847, 848, 941, 942, 1035, 1036, 801, 1130].map baseBand =
    [0, 1, 1, 2, 2, 3, 3, 4, 4, 5, 5, 6, 6, 7, 4, 7] := by decide +kernel

/-- 7.5: evaluations 13 and 15 of the worked case. -/
theorem test_evaluations :
    let s : State := { s0 with sp.timer := true, sp.c := 4, sp.hist := [0, 600000, 600000, 600000, 600000, 600000, 600000, 600000],
                               sp.sum := 600000, sp.dwellOn := true, sp.dwellCount := 9 }
    let a := after .intervalExpiry s
    let b := after .intervalExpiry { s with
      sp.c := 0, sp.dwellOn := false, sp.promo := 1, sp.sum := 1500000, sm.slots := List.replicate 3 (freshSlot .sealed 0) }
    a.sp.c = 0 ∧ a.sp.dwellOn = false ∧ b.sp.c = 2 ∧ b.sp.promo = 0 := by decide +kernel

/-- 9.6: the rates of the two checkpoints and of the unload. -/
theorem test_rates : loadRate { Tally.clear with frames := 4096, rewrites := 120 } = 29 ∧
    loadRate { Tally.clear with frames := 8192, rewrites := 520 } = 63 ∧
    loadRate { Tally.clear with frames := 9000, rewrites := 540 } = 60 ∧ atSoft 20 [25, 28, 12] = 2 := by decide +kernel

/-- 10.4: the consumer word written 20 with P 1 and C 2, and 40 with P 3 and C 20. -/
theorem test_consumer :
    let a := after (.consumerWordWrite .controlProcessor 12288 (ob (leBytes 4 20))) { s0 with cq.p := 1, cq.c := 2 }
    let b := after (.consumerWordWrite .controlProcessor 12288 (ob (leBytes 4 40))) { s0 with cq.p := 3, cq.c := 20 }
    a.cq.c = 20 ∧ a.cq.service = true ∧ b.cq.c = 3 ∧ b.cq.service = false := by decide +kernel

/-- 10.4: a record written to slot 31; its grant wraps P and inverts the lap flag. -/
theorem test_ring_wrap :
    let r : Req :=
      { cls := .internal, isWrite := true, addr := 8192 + 32 * 31, len := 32, data := List.replicate 32 (some 1), got := [],
        what := .record }
    let a := after .memoryPortGrant { s0 with cq.p := 31, cq.c := 2, cq.writing := true, bp.reqs := [r] }
    a.cq.p = 0 ∧ a.cq.lap = false ∧ a.cq.service = true ∧ memRead a.mem (8192 + 32 * 31) = 1 ∧ memRead a.mem (8192 + 32 * 32) = 0
    := by
  decide +kernel

/-- 11.4: check byte 84h for UNLOAD_REQ to drive 3 with payload 00h 12h, refused while the session is open. -/
theorem test_unload_req :
    let h : LinkHeader :=
      { fallInterval := 260400, rateFraming := false, rateLate := false, addr := 0x69, addrFraming := false, addrLate := false }
    let p : LinkPayload := { bytes := [0x00, 0x12], check := 0x84, framing := false, late := false }
    let t := after (.unloadReq h p) { s0 with li.phase := .awaitHeader, li.strap := 3, ri.session := .opened }
    checkByte 0x69 [0x00, 0x12] = 0x84 ∧ t.li.unloadRefused = true ∧ t.li.phase = .awaitAttention ∧ t.cq.queue.length = 1 := by
  decide +kernel

/-- 6.10: result 40/22 CORRECTED(21) counts a heavy frame, result 40/21 UNCORRECTABLE queues a rewrite, which the next slot takes at
write count 2. -/
theorem test_rewrite :
    let f (x : FrameState) : FrameEntry := { st := x, count := 1 }
    let x : Slot := { freshSlot .onTape 40 with
      frames := List.replicate 20 (f .good) ++ List.replicate 5 (f .inVerify) ++ List.replicate 7 { st := .unwritten, count := 0 } }
    let v (i : Nat) : VerifyEntry :=
      { slot := 2, idx := i, id := { seg := 40, idx := i, placement := 1, stamp := 0 }, isVoid := false }
    let s : State := { putSlot 2 x (at_ .active none) with
      mo.mode := some .writeStream, mo.pass := 6, mo.count := 1500096, mo.planned := 1500096, mo.v := 184, ri.session := .opened,
      wr.verifyQ := [v 21, v 22, v 23], he.tally.heavy := 0 }
    let a := after (.verifyResult (v 21).id .uncorrectable) s
    let b := after .frameSlot a
    let c := after (.verifyResult (v 22).id (.corrected 21)) b
    a.wr.rewriteQ = [(2, 21)] ∧ (slotAt a 2).rewrites = 1 ∧ b.wr.rewriteQ = [] ∧ b.wr.verifyQ = [v 22, v 23, v 21] ∧
      (frameAt b 2 21).count = 2 ∧ b.mo.planned = 1500144 ∧ c.he.tally.heavy = 1 ∧ (frameAt c 2 22).st = .good := by decide +kernel


/-- 12.3: the targets of LOCATE are 0 to 2; a fourth is refused as an operand. -/
theorem test_locate_targets :
    let s : State := { nt (at_ .ready none) with ch.recordHeld := true, mo.quality := .locked, mo.locked := true }
    (after (.locate 5 3 0) s).cq.queue.map Record.status = [Status.refusedOperand.code] ∧
      (after (.locate 5 2 0) s).cq.queue = [] ∧ (after (.locate 5 2 0) s).ch.transport = .active := by decide +kernel

end Examples

end Sys2Proof.Tests
end

section
/-! SUPPORT. Proofs about speed matching (Chapter 7): the base band of an inflow, and what an evaluation does to the decided band. -/

namespace Sys2Proof.Machine

/-! ### The base band (R131) -/

/-- The search for the base band ends at the first band that satisfies the test, or finds none and answers 7 (R131). -/
theorem baseBand_first_or_none (ef : Nat) :
    (baseBand ef ≤ 7 ∧ ef * 17 ≤ bandRate (baseBand ef) * 16 ∧ ∀ b < baseBand ef, bandRate b * 16 < ef * 17) ∨
    (baseBand ef = 7 ∧ ∀ b ≤ 7, bandRate b * 16 < ef * 17) := by
  unfold baseBand
  cases found : (List.range 8).find? (fun b => decide (ef * 17 ≤ bandRate b * 16)) with
  | none =>
    rw [List.find?_eq_none] at found
    exact .inr ⟨rfl, fun b hb => by simpa using found b (List.mem_range.mpr (by omega))⟩
  | some b =>
    obtain ⟨meets, inRange, below⟩ := List.find?_range_eq_some.mp found
    exact .inl ⟨Nat.le_of_lt_succ (List.mem_range.mp inRange), of_decide_eq_true meets, fun j hj => by simpa using below j hj⟩

theorem baseBand_le_seven (ef : Nat) : baseBand ef ≤ 7 := by
  rcases baseBand_first_or_none ef with ⟨le, -, -⟩ | ⟨eq, -⟩ <;> omega

/-- Every band below the base band fails the test. -/
theorem rate_lt_of_lt_baseBand {ef b : Nat} (h : b < baseBand ef) : bandRate b * 16 < ef * 17 := by
  rcases baseBand_first_or_none ef with ⟨-, -, below⟩ | ⟨eq, fails⟩
  · exact below b h
  · exact fails b (by omega)

/-- The base band satisfies the test, or it is 7 and no band does. -/
theorem baseBand_meets_or_none (ef : Nat) :
    ef * 17 ≤ bandRate (baseBand ef) * 16 ∨ (baseBand ef = 7 ∧ ∀ b ≤ 7, bandRate b * 16 < ef * 17) :=
  (baseBand_first_or_none ef).imp_left fun ⟨_, meets, _⟩ => meets

/-- Where the base band lies against a band below 7 is that band's test, since the rate grows with the band. -/
theorem baseBand_le_iff {ef b : Nat} (hb : b < 7) : baseBand ef ≤ b ↔ ef * 17 ≤ (500 + 100 * b) * 16 := by
  constructor
  · intro le
    rcases baseBand_meets_or_none ef with meets | ⟨eq, -⟩
    · simp only [bandRate] at meets; omega
    · omega
  · intro meets
    exact Nat.le_of_not_lt fun lt => Nat.not_le_of_lt (rate_lt_of_lt_baseBand lt) meets

/-- The range of a middle band: the band below fails the test, and the band itself satisfies it. -/
theorem baseBand_eq_succ_iff {ef b : Nat} (hb : b < 6) :
    baseBand ef = b + 1 ↔ (500 + 100 * b) * 16 < ef * 17 ∧ ef * 17 ≤ (500 + 100 * (b + 1)) * 16 := by
  have lower := baseBand_le_iff (ef := ef) (b := b) (by omega)
  have upper := baseBand_le_iff (ef := ef) (b := b + 1) (by omega)
  omega

/-- Settles O45: the base band is the first band that satisfies the test, and the limits of neighbouring bands give the rule's
ranges. -/
theorem baseBandOfInflow : Obligations.BaseBandOfInflow := by
  intro ef
  refine ⟨baseBand_le_seven ef, fun _ => rate_lt_of_lt_baseBand, baseBand_meets_or_none ef, fun hi => ?_, fun lo hi => ?_,
    fun lo hi => ?_, fun lo hi => ?_, fun lo hi => ?_, fun lo hi => ?_, fun lo hi => ?_, fun lo => ?_⟩
  · exact Nat.le_zero.mp ((baseBand_le_iff (by omega)).mpr (by omega))
  · exact (baseBand_eq_succ_iff (b := 0) (by omega)).mpr (by omega)
  · exact (baseBand_eq_succ_iff (b := 1) (by omega)).mpr (by omega)
  · exact (baseBand_eq_succ_iff (b := 2) (by omega)).mpr (by omega)
  · exact (baseBand_eq_succ_iff (b := 3) (by omega)).mpr (by omega)
  · exact (baseBand_eq_succ_iff (b := 4) (by omega)).mpr (by omega)
  · exact (baseBand_eq_succ_iff (b := 5) (by omega)).mpr (by omega)
  · have above := baseBand_le_iff (ef := ef) (b := 6) (by omega)
    have := baseBand_le_seven ef
    omega

/-! ### What comes before the decision (R130, R132, R138) -/

/-- An evaluation's count of residency changes the residency counters alone (R138). -/
theorem countResidency_eq (s : State) : countResidency s = { s with
    sp.resid := if s.ch.transport = .active ∧ s.mo.mode = some .writeStream
      then s.sp.resid.set s.mo.band (min (s.sp.resid.getD s.mo.band 0 + 1) 4294967295) else s.sp.resid } := by
  unfold countResidency
  split <;> rfl

/-- The target reads nothing of the residency counters (R132). -/
theorem bandTarget_countResidency (s : State) : bandTarget (countResidency s) = bandTarget s := by
  rw [countResidency_eq]; rfl

/-- With the timer running, an expiry pushes the sum into the history, counts the residency, and decides on the target of the history
so formed (R129, R130). -/
theorem exec_intervalExpiry_of_timer {s : State} (h : s.sp.timer = true) :
    let pushed : State := { s with sp.hist := (s.sp.hist ++ [s.sp.sum]).drop 1, sp.sum := 0 }
    exec .intervalExpiry s = .next (decideBand (bandTarget pushed) (countResidency pushed)) := by
  intro pushed
  calc exec .intervalExpiry s
      = .next (if s.sp.timer then decideBand (bandTarget (countResidency pushed)) (countResidency pushed) else s) := rfl
    _ = .next (decideBand (bandTarget pushed) (countResidency pushed)) := by rw [if_pos h, bandTarget_countResidency]

/-! ### The decision (R133, R134) -/

/-- The first target above the decided band counts, and ends a running dwell. -/
theorem decideBand_of_above_first {target : Nat} {s : State} (above : s.sp.c < target) (first : s.sp.promo ≠ 1) :
    let counts : State := { s with sp.dwellOn := false, sp.dwellCount := 0, sp.promo := s.sp.promo + 1 }
    decideBand target s = if s.sp.dwellOn then event .demotionRejected counts else counts := by
  intro counts
  have notSecond : ¬s.sp.promo + 1 = 2 := by omega
  simp only [decideBand, above, if_true, promote, notSecond, if_false]
  rfl

/-- The second target above the decided band in a row promotes to it, and ends a running dwell. -/
theorem decideBand_of_above_second {target : Nat} {s : State} (above : s.sp.c < target) (second : s.sp.promo = 1) :
    let promoted := event .promotion { s with sp.dwellOn := false, sp.dwellCount := 0, sp.c := target, sp.promo := 0 }
    decideBand target s = if s.sp.dwellOn then event .demotionRejected promoted else promoted := by
  intro promoted
  simp only [decideBand, above, if_true, promote, second]
  rfl

/-- A target equal to the decided band clears the promotion counter and ends a running dwell. -/
theorem decideBand_of_eq {target : Nat} {s : State} (eq : s.sp.c = target) :
    let ended : State := { s with sp.dwellOn := false, sp.dwellCount := 0, sp.promo := 0 }
    decideBand target s = if s.sp.dwellOn then event .demotionRejected ended else ended := by
  intro ended
  subst eq
  rw [decideBand, if_neg (Nat.lt_irrefl _), if_neg (Nat.lt_irrefl _)]

/-- A target below the decided band is left to the dwell. -/
theorem decideBand_of_below {target : Nat} {s : State} (below : target < s.sp.c) : decideBand target s = demote target s := by
  rw [decideBand, if_neg (Nat.lt_asymm below), if_pos below]

/-- With no dwell running, a fall starts one. -/
theorem decideBand_of_below_no_dwell {target : Nat} {s : State} (below : target < s.sp.c) (off : s.sp.dwellOn = false) :
    decideBand target s = { s with sp.promo := 0, sp.dwellOn := true, sp.dwellCount := 1, sp.dwellHigh := target } := by
  rw [decideBand_of_below below]
  simp only [demote, off, Bool.false_eq_true, if_false]

/-- A running dwell that has not yet seen its D evaluations counts one, and keeps the highest target. -/
theorem decideBand_of_below_dwell_short {target : Nat} {s : State} (below : target < s.sp.c) (on : s.sp.dwellOn = true)
    (short : s.sp.dwellCount + 1 < s.sp.policy.dwell) : decideBand target s = { s with
      sp.promo := 0, sp.dwellCount := s.sp.dwellCount + 1, sp.dwellHigh := max s.sp.dwellHigh target } := by
  have notFull : ¬s.sp.policy.dwell ≤ s.sp.dwellCount + 1 := Nat.not_le_of_lt short
  rw [decideBand_of_below below]
  simp only [demote, on, if_true, notFull, if_false]

/-- At its D-th evaluation a running dwell ends, and the decided band falls to the highest target seen. -/
theorem decideBand_of_below_dwell_full {target : Nat} {s : State} (below : target < s.sp.c) (on : s.sp.dwellOn = true)
    (full : s.sp.policy.dwell ≤ s.sp.dwellCount + 1) : decideBand target s = event .demotion { s with
      sp.dwellOn := false, sp.dwellCount := 0, sp.promo := 0, sp.c := max s.sp.dwellHigh target,
      sp.dwellHigh := max s.sp.dwellHigh target } := by
  rw [decideBand_of_below below]
  simp only [demote, on, if_true, full]

/-- Settles O46: an expiry is the count of the interval and one decision, by the case of the target and of the dwell. -/
theorem intervalDecidesBand : Obligations.IntervalDecidesBand := by
  intro s timer hist b0 f b1 target counted noDwell rejected high
  have decides : exec .intervalExpiry s = .next (decideBand target counted) := by
    rw [exec_intervalExpiry_of_timer timer, countResidency_eq]; rfl
  rw [decides]
  refine ⟨fun above first => ?_, fun above second => ?_, fun eq => ?_, fun below off => ?_, fun below on short => ?_,
    fun below on full => ?_⟩
  · exact congrArg _ (decideBand_of_above_first (s := counted) above first)
  · exact congrArg _ (decideBand_of_above_second (s := counted) above second)
  · exact congrArg _ (decideBand_of_eq (s := counted) eq)
  · exact congrArg _ (decideBand_of_below_no_dwell (s := counted) below off)
  · exact congrArg _ (decideBand_of_below_dwell_short (s := counted) below on short)
  · exact congrArg _ (decideBand_of_below_dwell_full (s := counted) below on full)

end Sys2Proof.Machine
end

section
/-! SUPPORT. Proofs about the whole part: the front of the queue, completion of every well-formed command, what every command leaves
alone, the invariants of every step, and a read after a write. -/

namespace Sys2Proof.Machine

/-- Settles O1: a step carries out the front of the queue on everything else. -/
theorem stepTakesFront : Obligations.StepTakesFront := by
  refine ⟨fun c rest s front => ?_, fun s empty => ?_⟩
  · simp only [step, front]
  · simp only [step, empty]

/-- Settles O6: the machine after reset is one closed state. -/
theorem resetMeetsInvariants : Obligations.ResetMeetsInvariants := by
  refine ⟨?_, ?_⟩ <;> decide +kernel

/-! ### What every command leaves alone -/

/-- Every command but the memory port's grant and the two resets keeps what `Keeps` names. -/
theorem exec_keeps {c : Instr} {s t : State} (ran : exec c s = .next t) (notGrant : c ≠ .memoryPortGrant)
    (notPowerOn : ∀ sn b, c ≠ .powerOn sn b) (notResetLine : ∀ sn b, c ≠ .resetLine sn b) : Keeps s t := by
  cases c with
  | memoryPortGrant => exact absurd rfl notGrant
  | powerOn sn b => exact absurd rfl (notPowerOn sn b)
  | resetLine sn b => exact absurd rfl (notResetLine sn b)
  | frontPortWrite m addr data => exact execFrontPortWrite_keeps m addr data ran
  | frontPortRead m addr len => exact execFrontPortRead_keeps m addr len ran
  | bindingWordWrite m addr data => exact execBindingWordWrite_keeps m addr data ran
  | anchorReadReturn => exact execAnchorReadReturn_keeps ran
  | stagingWrite m addr data => exact execStagingWrite_keeps m addr data ran
  | holdTimerExpiry => exact execHoldTimerExpiry_keeps ran
  | deliveryTailRead m addr len => exact execDeliveryTailRead_keeps m addr len ran
  | sequenceWordWrite m addr data => exact execSequenceWordWrite_keeps m addr data ran
  | slotReadReturn => exact execSlotReadReturn_keeps ran
  | consumerWordWrite m addr data => exact execConsumerWordWrite_keeps m addr data ran
  | internalQueueEntry => exact execInternalQueueEntry_keeps ran
  | ringRecordWrite => exact execRingRecordWrite_keeps ran
  | resetSettle sn => exact execResetSettle_keeps sn ran
  | seatClose tab => exact execSeatClose_keeps tab ran
  | seatOpen => exact execSeatOpen_keeps ran
  | tapeInPathLoss => exact execTapeInPathLoss_keeps ran
  | brakeRelease => exact execBrakeRelease_keeps ran
  | load tag => exact execLoad_keeps tag ran
  | automaticLoad => exact execAutomaticLoad_keeps ran
  | tagReadComplete image => exact execTagReadComplete_keeps image ran
  | tagReadLimit => exact execTagReadLimit_keeps ran
  | hubEngaged => exact execHubEngaged_keeps ran
  | pinCaptured => exact execPinCaptured_keeps ran
  | armMoveDone code tape => exact execArmMoveDone_keeps code tape ran
  | loadStepLimit => exact execLoadStepLimit_keeps ran
  | tensionSettled => exact execTensionSettled_keeps ran
  | servoLock pass count => exact execServoLock_keeps pass count ran
  | openFlagWriteEnd ok => exact execOpenFlagWriteEnd_keeps ok ran
  | unload tag force => exact execUnload_keeps tag force ran
  | tensionDownDone => exact execTensionDownDone_keeps ran
  | pinReleased => exact execPinReleased_keeps ran
  | hubReleased => exact execHubReleased_keeps ran
  | unloadStepLimit => exact execUnloadStepLimit_keeps ran
  | tagWriteEnd ok => exact execTagWriteEnd_keeps ok ran
  | periodStart => exact execPeriodStart_keeps ran
  | scanComplete x => exact execScanComplete_keeps x ran
  | reelDegrade r => exact execReelDegrade_keeps r ran
  | reelReturnNormal r => exact execReelReturnNormal_keeps r ran
  | tensionExcursion => exact execTensionExcursion_keeps ran
  | reelStall => exact execReelStall_keeps ran
  | setPowerPolicy tag enables dwell => exact execSetPowerPolicy_keeps tag enables dwell ran
  | park tag => exact execPark_keeps tag ran
  | parkDwellExpiry => exact execParkDwellExpiry_keeps ran
  | unparkSettled => exact execUnparkSettled_keeps ran
  | unparkTensionTimeout => exact execUnparkTensionTimeout_keeps ran
  | unparkServoTimeout => exact execUnparkServoTimeout_keeps ran
  | locate tag target r => exact execLocate_keeps tag target r ran
  | recalibrate tag => exact execRecalibrate_keeps tag ran
  | recalibrateLockTimeout => exact execRecalibrateLockTimeout_keeps ran
  | recalibrateNoMovement => exact execRecalibrateNoMovement_keeps ran
  | lossOfLock => exact execLossOfLock_keeps ran
  | reacquireTimeout => exact execReacquireTimeout_keeps ran
  | meter => exact execMeter_keeps ran
  | cleaningDistanceReached => exact execCleaningDistanceReached_keeps ran
  | retensionTimeout => exact execRetensionTimeout_keeps ran
  | recoveryLockTimeout => exact execRecoveryLockTimeout_keeps ran
  | stopTimeout => exact execStopTimeout_keeps ran
  | rampComplete => exact execRampComplete_keeps ran
  | moveArrived => exact execMoveArrived_keeps ran
  | frameSlot => exact execFrameSlot_keeps ran
  | frameTransmissionComplete => exact execFrameTransmissionComplete_keeps ran
  | verifyResult id st => exact execVerifyResult_keeps id st ran
  | blankDetection => exact execBlankDetection_keeps ran
  | writeOpen tag offset compress => exact execWriteOpen_keeps tag offset compress ran
  | sessionCountWriteEnd ok => exact execSessionCountWriteEnd_keeps ok ran
  | stagingFetchReturn => exact execStagingFetchReturn_keeps ran
  | chunkPlaced => exact execChunkPlaced_keeps ran
  | recompressDone => exact execRecompressDone_keeps ran
  | slotExhaustionEnd => exact execSlotExhaustionEnd_keeps ran
  | parityDone => exact execParityDone_keeps ran
  | flush tag => exact execFlush_keeps tag ran
  | writeClose tag => exact execWriteClose_keeps tag ran
  | writeAbort tag => exact execWriteAbort_keeps tag ran
  | setStreamPolicy tag p => exact execSetStreamPolicy_keeps tag p ran
  | intervalExpiry => exact execIntervalExpiry_keeps ran
  | readRecords tag n => exact execReadRecords_keeps tag n ran
  | readAbort tag => exact execReadAbort_keeps tag ran
  | frameReceived id st start data => exact execFrameReceived_keeps id st start data ran
  | readResume => exact execReadResume_keeps ran
  | rebuildDone => exact execRebuildDone_keeps ran
  | deliveryRoomGranted => exact execDeliveryRoomGranted_keeps ran
  | slotDrained => exact execSlotDrained_keeps ran
  | healthTick => exact execHealthTick_keeps ran
  | setMonitor tag m => exact execSetMonitor_keeps tag m ran
  | healthSnapshot tag => exact execHealthSnapshot_keeps tag ran
  | setCleanLimits tag l => exact execSetCleanLimits_keeps tag l ran
  | status h => exact execStatus_keeps h ran
  | cartId h => exact execCartId_keeps h ran
  | cleanInfo h => exact execCleanInfo_keeps h ran
  | loadHint h p => exact execLoadHint_keeps h p ran
  | unloadReq h p => exact execUnloadReq_keeps h p ran
  | passOut h => exact execPassOut_keeps h ran
  | passIn h p => exact execPassIn_keeps h p ran
  | linkHeaderOther h => exact execLinkHeaderOther_keeps h ran
  | linkByteTimeout => exact execLinkByteTimeout_keeps ran
  | linkIdleExpiry => exact execLinkIdleExpiry_keeps ran
  | answerSent => exact execAnswerSent_keeps ran
  | transmitMismatch lineActive => exact execTransmitMismatch_keeps lineActive ran
  | linkReply tag bytes => exact execLinkReply_keeps tag bytes ran
  | linkAttention tag => exact execLinkAttention_keeps tag ran
  | attentionPulseStart => exact execAttentionPulseStart_keeps ran
  | attentionPulseEnd lineActive => exact execAttentionPulseEnd_keeps lineActive ran
  | attentionWindowExpiry => exact execAttentionWindowExpiry_keeps ran
  | attentionGapExpiry => exact execAttentionGapExpiry_keeps ran
  | libraryAttention micros => exact execLibraryAttention_keeps micros ran
  | lineLevelChange active => exact execLineLevelChange_keeps active ran

/-- What every command keeps, the grant and the resets among them: the queue, the canonical form of the memory, the legal bands and
the laws. -/
theorem exec_keeps_invariants {c : Instr} {s t : State} (h : exec c s = .next t) :
    t.pending = s.pending ∧ (Memory.wf s.mem = true → Memory.wf t.mem = true) ∧ (bandsLegal s = true → bandsLegal t = true) ∧
      (lawful s = true → lawful t = true) := by
  by_cases grant : c = .memoryPortGrant
  · subst grant
    obtain ⟨mem, pending, -, bands, laws⟩ := execMemoryPortGrant_spec h
    exact ⟨pending, mem, bands, laws⟩
  by_cases powerOn : ∃ sn b, c = .powerOn sn b
  · obtain ⟨sn, b, rfl⟩ := powerOn
    obtain ⟨mem, pending, bands, laws⟩ := execPowerOn_spec h
    exact ⟨pending, fun wf => mem ▸ wf, fun _ => bands, fun _ => laws⟩
  by_cases resetLine : ∃ sn b, c = .resetLine sn b
  · obtain ⟨sn, b, rfl⟩ := resetLine
    obtain ⟨mem, pending, bands, laws⟩ := execResetLine_spec h
    exact ⟨pending, fun wf => mem ▸ wf, fun _ => bands, fun _ => laws⟩
  have k := exec_keeps h grant (fun sn b e => powerOn ⟨sn, b, e⟩) (fun sn b e => resetLine ⟨sn, b, e⟩)
  exact ⟨k.pending, fun wf => k.mem ▸ wf, k.bands, k.laws⟩

/-- Settles O3: the grant alone writes the memory, and the resets alone read the strap. -/
theorem everyCommandKeeps : Obligations.EveryCommandKeeps := by
  intro c s t h
  refine ⟨(exec_keeps_invariants h).1, fun notGrant => ?_, fun notPowerOn notResetLine => ?_⟩
  · by_cases powerOn : ∃ sn b, c = .powerOn sn b
    · obtain ⟨sn, b, rfl⟩ := powerOn
      exact (execPowerOn_spec h).1
    by_cases resetLine : ∃ sn b, c = .resetLine sn b
    · obtain ⟨sn, b, rfl⟩ := resetLine
      exact (execResetLine_spec h).1
    exact (exec_keeps h notGrant (fun sn b e => powerOn ⟨sn, b, e⟩) (fun sn b e => resetLine ⟨sn, b, e⟩)).mem
  · by_cases grant : c = .memoryPortGrant
    · subst grant
      exact (execMemoryPortGrant_spec h).2.2.1
    · exact (exec_keeps h grant notPowerOn notResetLine).strap

/-- Settles O4: a step is an idle or the command at the front of the queue, which keeps each invariant; the laws do not read the
queue. -/
theorem stepKeepsInvariants : Obligations.StepKeepsInvariants := by
  intro s t h
  unfold step at h
  split at h
  · obtain rfl := Host.Outcome.next.inj h
    exact ⟨id, id, id⟩
  · exact (exec_keeps_invariants h).2

/-! ### Completion -/

/-- A well-formed write at the front port is held behind another, or taken. -/
theorem frontWrite_next {m : Master} {a : Nat} {bs : List (Option Byte)} (wf : requestWf a bs.length = true) (s : State) :
    ∃ t, frontWrite m a bs s = .next t := by
  simp only [frontWrite, requestFault_of_wf wf]
  split <;> exact ⟨_, rfl⟩

/-- A well-formed read at the front port is forwarded. -/
theorem frontRead_next {m : Master} {a n : Nat} (wf : requestWf a n = true) (s : State) : ∃ t, frontRead m a n s = .next t := by
  simp only [frontRead, requestFault_of_wf wf]
  split <;> exact ⟨_, rfl⟩

/-- A request that the check names stops with that name, a write and a read alike. -/
theorem frontWrite_fault {a : Nat} {bs : List (Option Byte)} {f : Fault} (named : requestFault a bs.length = some f) (m : Master)
    (s : State) : frontWrite m a bs s = .fault f := by
  simp only [frontWrite, named]

theorem frontRead_fault {a n : Nat} {f : Fault} (named : requestFault a n = some f) (m : Master) (s : State) :
    frontRead m a n s = .fault f := by
  simp only [frontRead, named]

/-- A request that is no run of 1 to 64 bytes of one line is malformed (00_scope.md 0.2). -/
theorem requestFault_malformed {a n : Nat} (h : n = 0 ∨ 64 < a % 64 + n) : requestFault a n = some (.malformedRequest a n) := if_pos h

/-- A request within one line that ends behind the last byte lies outside the memory (00_scope.md 0.2). -/
theorem requestFault_outside {a n : Nat} (some_ : n ≠ 0) (line : a % 64 + n ≤ 64) (out : 536870912 < a + n) :
    requestFault a n = some (.outsideMemory a n) := by
  unfold requestFault
  rw [if_neg (by omega), if_pos (by exact out)]

/-- Settles O2: the front-port rows are judged by their request; every other row answers a next state outright. -/
theorem wellFormedCommandsComplete : Obligations.WellFormedCommandsComplete := by
  refine ⟨fun c s wf => ?_, fun m a n bs s => ⟨fun bad => ?_, fun bad => ?_, fun some_ line out => ?_, fun some_ line out => ?_⟩⟩
  · cases c with
    | frontPortWrite m a bs | bindingWordWrite m a bs | stagingWrite m a bs | sequenceWordWrite m a bs | consumerWordWrite m a bs =>
      exact frontWrite_next wf s
    | frontPortRead m a n | deliveryTailRead m a n => exact frontRead_next wf s
    | _ => exact ⟨_, rfl⟩
  · have stops := frontWrite_fault (requestFault_malformed bad) m s
    exact ⟨stops, stops, stops, stops, stops⟩
  · have stops := frontRead_fault (requestFault_malformed bad) m s
    exact ⟨stops, stops⟩
  · have stops := frontRead_fault (requestFault_outside some_ line out) m s
    exact ⟨stops, stops⟩
  · have stops := frontWrite_fault (requestFault_outside (mt List.length_eq_zero_iff.mp some_) line out) m s
    exact ⟨stops, stops, stops, stops, stops⟩

/-! ### A read after a write -/

/-- Below the lower bound of a canonical memory every byte is blank. -/
theorem memRead_below {m : List Host.Cell} {lo k : Nat} (wf : cellsFrom lo m = true) (below : k < lo) :
    memRead m k = Config.blankByte := by
  cases m with
  | nil => rfl
  | cons c rest =>
    obtain ⟨j, v⟩ := c
    simp only [cellsFrom, Bool.and_eq_true, decide_eq_true_eq] at wf
    rw [memRead, if_neg (by omega), if_pos (by omega)]

/-- A byte written is the byte read, and every other byte reads as before. -/
theorem memRead_memWrite {m : List Host.Cell} {lo : Nat} (wf : cellsFrom lo m = true) (a k : Nat) (b : Byte) :
    memRead (memWrite m a b) k = if k = a then b else memRead m k := by
  induction m generalizing lo with
  | nil =>
    simp only [memWrite]
    split
    case isTrue blank => simp only [memRead, blank, ite_self]
    case isFalse => by_cases same : k = a <;> simp [memRead, same, Ne.symm]
  | cons c rest ih =>
    obtain ⟨j, v⟩ := c
    simp only [cellsFrom, Bool.and_eq_true, decide_eq_true_eq] at wf
    obtain ⟨⟨-, -⟩, tail⟩ := wf
    have rest_below : ∀ i ≤ j, memRead rest i = Config.blankByte := fun i hi => memRead_below tail (by omega)
    simp only [memWrite]
    split
    case isTrue hit =>
      subst hit
      split
      case isTrue blank =>
        rcases Nat.lt_trichotomy k j with lt | rfl | gt
        · simp [memRead, rest_below k (by omega), show k ≠ j by omega, show j ≠ k by omega, lt]
        · simp [rest_below k le_rfl, blank]
        · simp [memRead, show k ≠ j by omega, show j ≠ k by omega, show ¬k < j by omega]
      case isFalse => by_cases same : k = j <;> simp [memRead, same, Ne.symm]
    case isFalse miss =>
      split
      case isTrue before =>
        split
        case isTrue blank =>
          split
          case isTrue same => subst same; simp [memRead, show j ≠ k by omega, before, blank]
          case isFalse => rfl
        case isFalse =>
          rcases Nat.lt_trichotomy k a with lt | rfl | gt
          · simp [memRead, show k ≠ a by omega, show a ≠ k by omega, lt, show j ≠ k by omega, show k < j by omega]
          · simp [memRead]
          · simp [memRead, show k ≠ a by omega, show a ≠ k by omega, show ¬k < a by omega]
      case isFalse after =>
        by_cases here : j = k
        · subst here; simp [memRead, show j ≠ a by omega]
        · simp only [memRead, here, if_false, ih tail]
          by_cases low : k < j
          · simp [low, show k ≠ a by omega]
          · simp [low]

/-- The requests issued later lie on top of those issued before. -/
theorem overlay_append (a : Nat) (b : Byte) (rs qs : List Req) : overlay a b (rs ++ qs) = overlay a (overlay a b rs) qs := by
  induction rs generalizing b with
  | nil => rfl
  | cons r rs ih => exact ih _

/-- A write issued lies on top of what was issued before it: its bytes where it covers the place, else what was read before. -/
theorem throughByte_issueWrite (cls : ReqClass) (a k : Nat) (bs : List Byte) (what : Purpose) (s : State) :
    throughByte s.mem (issueWrite cls a bs what s).bp.reqs k =
      if a ≤ k ∧ k < a + bs.length then bs.getD (k - a) 0 else throughByte s.mem s.bp.reqs k := by
  unfold issueWrite
  split
  case isTrue none_ =>
    have : bs = [] := List.isEmpty_iff.mp none_
    subst this
    rw [if_neg (by simp only [List.length_nil]; omega)]
  case isFalse =>
    simp only [throughByte, overlay_append, overlay, Bool.true_and, decide_eq_true_eq]
    by_cases from_ : a ≤ k
    · by_cases to_ : k - a < bs.length
      · simp [from_, show k < a + bs.length by omega, to_]
      · simp [from_, show ¬k < a + bs.length by omega, List.getElem?_eq_none (Nat.le_of_not_lt to_)]
    · simp [from_]

/-- Settles O7: by induction over the cells of the memory, and over the requests under the write. -/
theorem memoryReadAfterWrite : Obligations.MemoryReadAfterWrite := by
  refine ⟨fun m a k b wf => memRead_memWrite wf a k b, fun cls a k bs what s => ⟨?_, throughByte_issueWrite cls a k bs what s⟩⟩
  unfold issueWrite
  split <;> rfl

end Sys2Proof.Machine
end

section
/-! SUPPORT. Refutation of O5: the lock that ends a writer's wait for a pass leaves the motion mode set after the activity was noted. -/

namespace Sys2Proof.Machine

/-- UNLOADING with a turn that waits for lock on its pass: the activity and T* are noted. -/
def turnWaitsUnloading : State :=
  { State.reset with
    ch.transport := .unloading, ch.activityAt := (.unloading, none), re.tstar := Config.tStream, mo.passWait := true, mo.quality := .locked,
    mo.goal := .turnWrite }

/-- Lock on the pass waited for notes the mode RAMP and then sets TURN, so that the activity is not that of the mode it leaves. -/
theorem servoLock_leaves_turn_unnoted :
    ∃ t, exec (.servoLock 0 20000) turnWaitsUnloading = .next t ∧ t.mo.mode = some .turn ∧ t.ch.activityAt = (.unloading, some .ramp) :=
  ⟨_, rfl, by decide +kernel⟩

/-- Refutes O5: `noted` alone does not exclude UNLOADING with a turn that waits, in which SERVO_LOCK sets the mode behind the note. -/
theorem not_stepKeepsTargetNoted : ¬ Obligations.StepKeepsTargetNoted := by
  intro keeps
  obtain ⟨t, ran, turn, at_⟩ := servoLock_leaves_turn_unnoted
  have front : step { turnWaitsUnloading with pending := [.servoLock 0 20000] } = .next t := ran
  have noted_t := keeps _ t (by decide +kernel) front
  simp [noted, turn, at_] at noted_t

end Sys2Proof.Machine
end

section
/-! SUPPORT. What `noteTarget` sets, as one record update, and what `settle` does where nothing but the note follows from a step. -/

namespace Sys2Proof.Machine

/-- A value that stands while `old` is still `new`, and starts over where it has changed. -/
def unlessChanged {α β : Type} [DecidableEq α] (old new : α) (kept fresh : β) : β := if old = new then kept else fresh

@[simp] theorem unlessChanged_same {α β : Type} [DecidableEq α] (x : α) (kept fresh : β) : unlessChanged x x kept fresh = kept := if_pos rfl

theorem unlessChanged_of_ne {α β : Type} [DecidableEq α] {old new : α} (h : old ≠ new) (kept fresh : β) :
    unlessChanged old new kept fresh = fresh := if_neg h

@[simp] theorem unlessChanged_self {α β : Type} [DecidableEq α] (old new : α) (x : β) : unlessChanged old new x x = x := by
  unfold unlessChanged; split <;> rfl

/-- The activity is kept while transport state and motion mode are those it was set for (R20). -/
theorem noteActivity_eq (s : State) : noteActivity s = { s with
    ch.activity := unlessChanged s.ch.activityAt (s.ch.transport, s.mo.mode) s.ch.activity (activity s),
    ch.activityAt := (s.ch.transport, s.mo.mode) } := by
  unfold noteActivity unlessChanged
  split
  case isTrue same => rw [← same]
  case isFalse => rfl

/-- The note as one update of the state: the activity (R20), T*, and the counts that start over where T* has changed (R31, R33). -/
theorem noteTarget_eq (s : State) : noteTarget s = { s with
    ch.activity := unlessChanged s.ch.activityAt (s.ch.transport, s.mo.mode) s.ch.activity (activity s),
    ch.activityAt := (s.ch.transport, s.mo.mode), re.tstar := tStar s,
    re.settle := unlessChanged s.re.tstar (tStar s) s.re.settle 0, re.exc := unlessChanged s.re.tstar (tStar s) s.re.exc 0,
    re.excHold := unlessChanged s.re.tstar (tStar s) s.re.excHold 64 } := by
  simp only [noteTarget, tStar_noteActivity, noteActivity_re]
  split
  case isTrue same => simp only [← same, unlessChanged_same, noteActivity_eq s]
  case isFalse changed => simp only [unlessChanged_of_ne changed, noteActivity_eq s]

/-- No command waits for a recovery; no session, no watch, no held write and no command of a session that waits: from a step that leaves
this, the note alone follows. -/
structure AtEase (s : State) : Prop where
  deferred : s.ci.deferred = []
  session : s.ri.session = .closed
  intake : s.ri.st = .idle
  watch : s.bp.watch = false
  held : s.bp.held = none
  flush : s.wr.flush = none
  close : s.wr.close = false

theorem atEase_iff (s : State) : AtEase s ↔ s.ci.deferred = [] ∧ s.ri.session = .closed ∧ s.ri.st = .idle ∧ s.bp.watch = false ∧
    s.bp.held = none ∧ s.wr.flush = none ∧ s.wr.close = false :=
  ⟨fun ⟨h1, h2, h3, h4, h5, h6, h7⟩ => ⟨h1, h2, h3, h4, h5, h6, h7⟩, fun ⟨h1, h2, h3, h4, h5, h6, h7⟩ => ⟨h1, h2, h3, h4, h5, h6, h7⟩⟩

/-- A quiet part is at ease, with its target noted. -/
theorem quiet_iff (s : State) : quiet s = true ↔ AtEase s ∧ noted s = true := by
  simp only [quiet, Bool.and_eq_true, Option.isNone_iff_eq_none, Bool.not_eq_true', decide_eq_true_eq, steady_iff]
  constructor
  · rintro ⟨⟨⟨⟨⟨⟨⟨h1, hn⟩, h2⟩, h3⟩, h4⟩, h5⟩, h6⟩, h7⟩
    exact ⟨⟨h1, h2, h3, h4, h5, h6, h7⟩, hn⟩
  · rintro ⟨⟨h1, h2, h3, h4, h5, h6, h7⟩, hn⟩
    exact ⟨⟨⟨⟨⟨⟨⟨h1, hn⟩, h2⟩, h3⟩, h4⟩, h5⟩, h6⟩, h7⟩

/-- At ease only the note follows from a step. -/
theorem AtEase.settle_eq {s : State} (h : AtEase s) : settle s = noteTarget s := by
  have hf : fetchDue s = false := by simp [fetchDue, h.watch]
  have hx : intakeWaits s = false := by simp [intakeWaits, h.intake]
  have hl : writerLive s = false := by simp [writerLive, softError, h.session]
  have he : checkExhaustion s = s := by simp [checkExhaustion, hx, hl]
  have hr : checkRestart s = s := by simp [checkRestart, restartCause, hl]
  simp only [settle, judgeDeferred_none h.deferred, checkFlush_none h.flush, checkClose_off h.close, rejudgeHeld_none h.held,
    startFetch_off hf, he, hr]

/-- A step that leaves alone what `AtEase` reads leaves the part at ease. -/
theorem AtEase.congr {s t : State} (h : AtEase s) (deferred : t.ci.deferred = s.ci.deferred) (ri : t.ri = s.ri)
    (bp : (t.bp.watch, t.bp.held) = (s.bp.watch, s.bp.held)) (wr : (t.wr.flush, t.wr.close) = (s.wr.flush, s.wr.close)) : AtEase t := by
  simp only [Prod.mk.injEq] at bp wr
  exact ⟨deferred.trans h.deferred, by rw [ri]; exact h.session, by rw [ri]; exact h.intake, bp.1.trans h.watch, bp.2.trans h.held,
    wr.1.trans h.flush, wr.2.trans h.close⟩

/-- A part whose held write, session commands, fetch and wake leave nothing to follow from a step but the note. -/
structure Calm (s : State) : Prop where
  deferred : s.ci.deferred = []
  held : s.bp.held = none
  flush : s.wr.flush = none
  close : s.wr.close = false
  fetch : fetchDue s = false
  awake : s.ch.transport ≠ .parked
  elsewhere : ¬(s.ch.transport = .active ∧ s.mo.mode = some .waitData)

theorem calm_iff (s : State) : calm s = true ↔ Calm s ∧ noted s = true := by
  simp only [calm, Bool.and_eq_true, Option.isNone_iff_eq_none, Bool.not_eq_true', decide_eq_true_eq, steady_iff, ← Bool.decide_and,
    decide_eq_false_iff_not]
  constructor
  · rintro ⟨⟨⟨⟨⟨⟨⟨h1, hn⟩, h2⟩, h3⟩, h4⟩, h5⟩, h6⟩, h7⟩
    exact ⟨⟨h1, h2, h3, h4, h5, h6, h7⟩, hn⟩
  · rintro ⟨⟨h1, h2, h3, h4, h5, h6, h7⟩, hn⟩
    exact ⟨⟨⟨⟨⟨⟨⟨h1, hn⟩, h2⟩, h3⟩, h4⟩, h5⟩, h6⟩, h7⟩

/-- In a calm part only the note follows from a step. -/
theorem Calm.settle_eq {s : State} (h : Calm s) : settle s = noteTarget s := by
  simp only [settle, judgeDeferred_none h.deferred, checkFlush_none h.flush, checkClose_off h.close, rejudgeHeld_none h.held,
    startFetch_off h.fetch, checkExhaustion_awake h.awake, checkRestart_elsewhere h.elsewhere]

/-- Whether a fetch is due is read from the intake, the layout and the ring's watch alone (R90). -/
theorem fetchDue_congr {s t : State} (ri : t.ri = s.ri)
    (bp : (t.bp.watch, t.bp.rl, t.bp.release, t.bp.layout) = (s.bp.watch, s.bp.rl, s.bp.release, s.bp.layout)) :
    fetchDue t = fetchDue s := by
  simp only [Prod.mk.injEq] at bp
  obtain ⟨watch, rl, release, layout⟩ := bp
  have takes : takesBytes t = takesBytes s := by unfold takesBytes; rw [ri]
  have avail : available t = available s := by unfold available ringZ; rw [rl, release, layout, ri]
  unfold fetchDue
  rw [takes, avail, watch, ri]

/-- `fetchDue` over the fields it reads. -/
def fetchDueOf (watch : Bool) (rl release : Nat) (layout : Option Layout) (ri : RecordIntake) : Bool :=
  fetchDue { State.reset with bp.watch := watch, bp.rl := rl, bp.release := release, bp.layout := layout, ri := ri }

theorem fetchDue_eq (s : State) : fetchDue s = fetchDueOf s.bp.watch s.bp.rl s.bp.release s.bp.layout s.ri := (fetchDue_congr rfl rfl).symm

theorem calmAll_iff (s : State) : Calm s ↔ s.ci.deferred = [] ∧ s.bp.held = none ∧ s.wr.flush = none ∧ s.wr.close = false ∧
    fetchDueOf s.bp.watch s.bp.rl s.bp.release s.bp.layout s.ri = false ∧ s.ch.transport ≠ .parked ∧
      ¬(s.ch.transport = .active ∧ s.mo.mode = some .waitData) := by
  rw [← fetchDue_eq]
  exact ⟨fun ⟨h1, h2, h3, h4, h5, h6, h7⟩ => ⟨h1, h2, h3, h4, h5, h6, h7⟩, fun ⟨h1, h2, h3, h4, h5, h6, h7⟩ => ⟨h1, h2, h3, h4, h5, h6, h7⟩⟩

/-- A step that leaves alone what `Calm` reads leaves the part calm. -/
theorem Calm.congr {s t : State} (h : Calm s) (deferred : t.ci.deferred = s.ci.deferred) (ri : t.ri = s.ri)
    (bp : (t.bp.held, t.bp.watch, t.bp.rl, t.bp.release, t.bp.layout) = (s.bp.held, s.bp.watch, s.bp.rl, s.bp.release, s.bp.layout))
    (wr : (t.wr.flush, t.wr.close) = (s.wr.flush, s.wr.close)) (awake : t.ch.transport ≠ .parked)
    (elsewhere : ¬(t.ch.transport = .active ∧ t.mo.mode = some .waitData)) : Calm t := by
  obtain ⟨held, bp⟩ := Prod.mk.inj bp
  obtain ⟨flush, close⟩ := Prod.mk.inj wr
  exact ⟨deferred.trans h.deferred, held.trans h.held, flush.trans h.flush, close.trans h.close, (fetchDue_congr ri bp).trans h.fetch, awake,
    elsewhere⟩

/-- What `noted` says: T* is the one last noted, and the activity is that of the present state and mode. -/
theorem noted_iff (s : State) : noted s = true ↔ s.re.tstar = tStar s ∧ s.ch.activityAt = (s.ch.transport, s.mo.mode) := by
  simp [noted]

theorem cqOpen_iff (s : State) : cqOpen s = true ↔ s.cq.queue.length < 8 ∧ s.cq.waiting = [] := by simp [cqOpen]

theorem unthreaded_iff (s : State) : unthreaded s = true ↔ s.re.brake = false ∧ s.ch.step = none := by simp [unthreaded]

end Sys2Proof.Machine
end

section
/-! SUPPORT. The small operations as the record updates they are, for `simp`: one equation each, true by unfolding. -/

namespace Sys2Proof.Machine

/-! ### The plain updates of the statements -/

@[simp] theorem moved_def (t : Transport) (s : State) : s.moved t = { s with
    ch.transport := t, pw.dwell := false, pw.settling := false, mo.reacquire := false, mo.passWait := false, he.tick := tickRuns t } := rfl
@[simp] theorem lost_def (s : State) : s.lost = { s with mo.quality := .unknown, mo.lp := none, mo.stands := none, rd.start := none } := rfl
@[simp] theorem reelsZero_def (s : State) : s.reelsZero = { s with re.sup := s.re.sup.stage 0 0, re.tak := s.re.tak.stage 0 0 } := rfl
@[simp] theorem stage_def (c : Channel) (a b : Nat) : c.stage a b = { rise := c.rise, fall := c.fall, sRise := a, sFall := b, flag := true } := rfl
@[simp] theorem forced_def : Channel.forced = { rise := 0, fall := 0, sRise := 0, sFall := 0, flag := true } := rfl
@[simp] theorem unmoved_def (s : State) : s.unmoved = { s with
    mo.mode := none, mo.into := none, mo.stopping := false, mo.passWait := false, mo.legs := [], mo.goal := .none, mo.bandTo := none,
    mo.v := 0, mo.dest := 0, mo.pend := [], mo.mask := false, mo.wait := .none, mo.savedLegs := [], mo.savedGoal := .none,
    mo.redirect := false, mo.skipResume := false, mo.recT := Config.tStream, re.exc := 0, re.excDue := false } := rfl

/-! ### Transport states -/

@[simp] theorem powerOf_empty : powerOf .empty = .sleep := rfl
@[simp] theorem powerOf_seated : powerOf .seated = .sleep := rfl
@[simp] theorem powerOf_faulted : powerOf .faulted = .sleep := rfl
@[simp] theorem powerOf_parked : powerOf .parked = .parkPower := rfl
@[simp] theorem powerOf_ready : powerOf .ready = .holdPower := rfl
@[simp] theorem powerOf_unpositioned : powerOf .unpositioned = .holdPower := rfl
@[simp] theorem powerOf_loading : powerOf .loading = .full := rfl
@[simp] theorem powerOf_active : powerOf .active = .full := rfl
@[simp] theorem powerOf_unloading : powerOf .unloading = .full := rfl

@[simp] theorem zeroReels_def (s : State) : zeroReels s = { s with
    re.sup := .forced, re.tak := .forced, re.brake := s.re.brake || inputMoves s } := rfl
@[simp] theorem zeroAll_def (s : State) : zeroAll s = zeroReels { s with re.armCh := .forced } := rfl
@[simp] theorem enterSleep_def (s : State) : enterSleep s = { zeroAll s with
    re.degSup := false, re.degTak := false, re.limSup := 0, re.limTak := 0, re.exc := 0, re.excDue := false, re.stall := 0,
    re.stallDue := false, re.settle := 0 } := rfl
@[simp] theorem followPower_def (old new : Power) (s : State) : followPower old new s =
    let s := if new = .sleep ∧ old ≠ .sleep then enterSleep s else s
    if old = .sleep ∧ new ≠ .sleep then { s with re.window := [], re.scanDue := false } else s := rfl
@[simp] theorem losePosition_def (s : State) : losePosition s = s.lost := rfl
@[simp] theorem enterEffects_empty (s : State) : enterEffects .empty s = { s.lost with mo.locked := false, li.unloadRefused := false } := rfl
@[simp] theorem enterEffects_seated (s : State) : enterEffects .seated s = { s.lost with mo.locked := false } := rfl
@[simp] theorem enterEffects_loading (s : State) : enterEffects .loading s = { s.lost with mo.locked := false } := rfl
@[simp] theorem enterEffects_faulted (s : State) : enterEffects .faulted s = { s.lost with mo.locked := false } := rfl
@[simp] theorem enterEffects_unpositioned (s : State) : enterEffects .unpositioned s = s.lost := rfl
@[simp] theorem enterEffects_ready (s : State) : enterEffects .ready s = s := rfl
@[simp] theorem enterEffects_active (s : State) : enterEffects .active s = s := rfl
@[simp] theorem enterEffects_unloading (s : State) : enterEffects .unloading s = s := rfl
@[simp] theorem enterEffects_parked (s : State) : enterEffects .parked s = { s with
    mo.locked := false, mo.quality := if s.mo.quality = .locked then .estimated else s.mo.quality, pw.dataOffered := false, re.sparse := 0 } :=
  rfl

/-! ### Steps and the arm -/

@[simp] theorem setStep_def (x : Step) (s : State) : setStep x s = noteTarget (holdIdle { s with ch.step := some x }) := rfl
@[simp] theorem driveArm_def (d : ArmDir) (s : State) : driveArm d s = { s with re.armCh := s.re.armCh.stage 0 600, re.armDirS := d } := rfl
@[simp] theorem stopArm_def (s : State) : stopArm s = { s with re.armCh := s.re.armCh.stage 0 0 } := rfl

/-! ### Jobs and records -/

@[simp] theorem job_transport (s : State) : s.job .transport = s.ci.transport := rfl
@[simp] theorem job_write (s : State) : s.job .write = s.ci.write := rfl
@[simp] theorem job_read (s : State) : s.job .read = s.ci.read := rfl
@[simp] theorem job_health (s : State) : s.job .health = s.ci.health := rfl
@[simp] theorem job_link (s : State) : s.job .link = s.ci.link := rfl
@[simp] theorem setJob_transport (v : Job) (s : State) : s.setJob .transport v = { s with ci.transport := v } := rfl
@[simp] theorem setJob_write (v : Job) (s : State) : s.setJob .write v = { s with ci.write := v } := rfl
@[simp] theorem setJob_read (v : Job) (s : State) : s.setJob .read v = { s with ci.read := v } := rfl
@[simp] theorem setJob_health (v : Job) (s : State) : s.setJob .health v = { s with ci.health := v } := rfl
@[simp] theorem setJob_link (v : Job) (s : State) : s.setJob .link v = { s with ci.link := v } := rfl
@[simp] theorem cqPush_def (r : Record) (s : State) : cqPush r s = { s with cq.queue := s.cq.queue ++ [r] } := rfl
@[simp] theorem cqOpen_def (s : State) : cqOpen s = (decide (s.cq.queue.length < 8) && s.cq.waiting.isEmpty) := rfl
@[simp] theorem postNotice_def (k : NoticeKind) (content : List Byte) (s : State) :
    postNotice k content s = postAt (.notice k) (noticeRecord k content) s := rfl

end Sys2Proof.Machine
end

section
/-! SUPPORT. Continued: slots by state, and a firmware command that is judged at once. -/

namespace Sys2Proof.Machine

/-- The slots of a table in states that satisfy `f`, in ascending segment number. -/
def slotsOf (f : SlotState → Bool) (slots : List Slot) : List Nat := slotsIn f { State.reset with sm.slots := slots }

theorem insertBySeg_congr {s t : State} (h : t.sm.slots = s.sm.slots) (k : Nat) (ks : List Nat) :
    insertBySeg t k ks = insertBySeg s k ks := by
  induction ks with
  | nil => rfl
  | cons j ks ih =>
    have entries : slotAt t = slotAt s := by funext i; unfold slotAt; rw [h]
    rw [insertBySeg, insertBySeg, entries, ih]

/-- Which slots stand in a state is read from the segment table alone. -/
theorem slotsIn_eq (f : SlotState → Bool) (s : State) : slotsIn f s = slotsOf f s.sm.slots := by
  have insert (t : State) (h : t.sm.slots = s.sm.slots) : insertBySeg t = insertBySeg s :=
    funext fun k => funext fun ks => insertBySeg_congr h k ks
  simp only [slotsOf, slotsIn, bySeg, slotAt, insert { State.reset with sm.slots := s.sm.slots } rfl]

@[simp] theorem fwJob_load : fwJob .load = .transport := rfl
@[simp] theorem fwJob_unload (b : Bool) : fwJob (.unload b) = .transport := rfl
@[simp] theorem fwJob_locate (t r : Nat) : fwJob (.locate t r) = .transport := rfl
@[simp] theorem fwJob_recalibrate : fwJob .recalibrate = .transport := rfl
@[simp] theorem fwJob_park : fwJob .park = .transport := rfl
@[simp] theorem fwJob_setPowerPolicy (e d : Nat) : fwJob (.setPowerPolicy e d) = .transport := rfl
@[simp] theorem fwJob_writeOpen (o : Nat) (b : Bool) : fwJob (.writeOpen o b) = .write := rfl
@[simp] theorem fwJob_flush : fwJob .flush = .write := rfl
@[simp] theorem fwJob_writeClose : fwJob .writeClose = .write := rfl
@[simp] theorem fwJob_writeAbort : fwJob .writeAbort = .write := rfl
@[simp] theorem fwJob_setStreamPolicy (p : StreamOperands) : fwJob (.setStreamPolicy p) = .write := rfl
@[simp] theorem fwJob_readRecords (n : Nat) : fwJob (.readRecords n) = .read := rfl
@[simp] theorem fwJob_readAbort : fwJob .readAbort = .read := rfl
@[simp] theorem fwJob_setMonitor (m : MonitorOperands) : fwJob (.setMonitor m) = .health := rfl
@[simp] theorem fwJob_healthSnapshot : fwJob .healthSnapshot = .health := rfl
@[simp] theorem fwJob_setCleanLimits (l : CleanOperands) : fwJob (.setCleanLimits l) = .health := rfl
@[simp] theorem fwJob_linkReply (bs : List Byte) : fwJob (.linkReply bs) = .link := rfl
@[simp] theorem fwJob_linkAttention : fwJob .linkAttention = .link := rfl

@[simp] theorem keepsDwell_load : keepsDwell .load = false := rfl
@[simp] theorem keepsDwell_unload (b : Bool) : keepsDwell (.unload b) = false := rfl
@[simp] theorem keepsDwell_locate (t r : Nat) : keepsDwell (.locate t r) = false := rfl
@[simp] theorem keepsDwell_recalibrate : keepsDwell .recalibrate = false := rfl
@[simp] theorem keepsDwell_park : keepsDwell .park = true := rfl
@[simp] theorem keepsDwell_setPowerPolicy (e d : Nat) : keepsDwell (.setPowerPolicy e d) = true := rfl
@[simp] theorem keepsDwell_writeOpen (o : Nat) (b : Bool) : keepsDwell (.writeOpen o b) = false := rfl
@[simp] theorem keepsDwell_flush : keepsDwell .flush = false := rfl
@[simp] theorem keepsDwell_writeClose : keepsDwell .writeClose = false := rfl
@[simp] theorem keepsDwell_writeAbort : keepsDwell .writeAbort = false := rfl
@[simp] theorem keepsDwell_setStreamPolicy (p : StreamOperands) : keepsDwell (.setStreamPolicy p) = false := rfl
@[simp] theorem keepsDwell_readRecords (n : Nat) : keepsDwell (.readRecords n) = false := rfl
@[simp] theorem keepsDwell_readAbort : keepsDwell .readAbort = false := rfl
@[simp] theorem keepsDwell_setMonitor (m : MonitorOperands) : keepsDwell (.setMonitor m) = true := rfl
@[simp] theorem keepsDwell_healthSnapshot : keepsDwell .healthSnapshot = true := rfl
@[simp] theorem keepsDwell_setCleanLimits (l : CleanOperands) : keepsDwell (.setCleanLimits l) = true := rfl
@[simp] theorem keepsDwell_linkReply (bs : List Byte) : keepsDwell (.linkReply bs) = true := rfl
@[simp] theorem keepsDwell_linkAttention : keepsDwell .linkAttention = true := rfl

/-- Where no recovery makes it wait, a firmware command whose places are empty is judged, and the step settled (R181). -/
theorem firmware_settles {c : FwCmd} {judge : FwOp → State → State} {s : State} (bound : s.bp.layout.isSome = true)
    (clear : s.job (fwJob c.op) = Job.clear) (now : (s.mo.mask && waitsForRecovery c.op) = false) :
    firmware c judge s = .next (settle (judge c.op (startRunning c s))) := by
  rw [firmware_judges bound clear, judgeRunning, if_neg (by simp [now])]

/-- A command that leaves the dwell alone becomes running. -/
theorem startRunning_keeping {c : FwCmd} {s : State} (keeps : keepsDwell c.op = true) (clear : s.job (fwJob c.op) = Job.clear) :
    startRunning c s = s.setJob (fwJob c.op) (runningNow c) := by
  simp [startRunning, keeps, clear, Job.clear]

/-- With no dwell running there is none to cancel: the command becomes running. -/
theorem startRunning_dwellOff {c : FwCmd} {s : State} (off : s.pw.dwell = false) (clear : s.job (fwJob c.op) = Job.clear) :
    startRunning c s = s.setJob (fwJob c.op) (runningNow c) := by
  simp [startRunning, clear, Job.clear, cancelDwell, off]

end Sys2Proof.Machine
end

section
/-! SUPPORT. A firmware command that completes in the step that judges it: the dwell that it cancels is armed again, and the part is left as
it was but for the completion (R39, R183). -/

namespace Sys2Proof.Machine

/-- An event that no counter counts is offered to all four in vain (R163). -/
theorem offerToCounters_unmonitored {e : Ev} {s : State} (h : unmonitored e s = true) : offerToCounters e s = s := by
  simp only [unmonitored, Bool.and_eq_true, decide_eq_true_eq, List.all_eq_true] at h
  obtain ⟨four, none_⟩ := h
  have skips : ∀ n < 4, offerEvent e s n = s := fun n hn => by
    have counter : s.he.counters.getD n .clear ∈ s.he.counters := by
      rw [List.getD_eq_getElem _ _ (four ▸ hn)]; exact List.getElem_mem _
    simp only [offerEvent, none_ _ counter, false_and, if_false]
  simp only [offerToCounters, offerAll, List.foldl, skips 0 (by decide), skips 1 (by decide), skips 2 (by decide), skips 3 (by decide)]

/-- PARK_REJECTED has no tally field: where no counter counts it, it changes nothing (R161). -/
theorem event_parkRejected {s : State} (h : unmonitored .parkRejected s = true) : event .parkRejected s = s := by
  have offered : offerToCounters .parkRejected { s with he.tally := tallyEvent .parkRejected s.he.tally } = s := offerToCounters_unmonitored h
  simp [event, offered]

/-- The events that no monitor counter counts leave the monitor but for their tally field. -/
theorem event_unmonitored {e : Ev} {s : State} (h : unmonitored e s = true) (ne : e ≠ .frameWritten) :
    event e s = { s with he.tally := tallyEvent e s.he.tally } := by
  have offered : offerToCounters e { s with he.tally := tallyEvent e s.he.tally } = { s with he.tally := tallyEvent e s.he.tally } :=
    offerToCounters_unmonitored h
  simp [event, offered, ne]

theorem dwellCut_of_off {s : State} (off : s.pw.dwell = false) (j : JobId) : s.dwellCut j = s := by
  simp only [State.dwellCut, off, Bool.false_eq_true, if_false]; rw [← off]

/-- A command that becomes running cuts a steady dwell. -/
theorem startRunning_dwellCut {c : FwCmd} {s : State} (cuts : keepsDwell c.op = false) (dwell : dwellSteady s = true)
    (clear : s.job (fwJob c.op) = Job.clear) :
    startRunning c s = (s.dwellCut (fwJob c.op)).setJob (fwJob c.op) (runningNow c) := by
  simp only [startRunning, clear, Job.clear, cuts, Bool.false_eq_true, if_false, cancelDwell, pw_setJob]
  by_cases on : s.pw.dwell = true
  · have quiet : unmonitored .parkRejected s = true := by
      simp only [dwellSteady, on, Bool.not_true, Bool.false_or, Bool.and_eq_true] at dwell; exact dwell.2
    rw [if_pos on, event_parkRejected (by simpa [unmonitored] using quiet)]
    simp only [State.dwellCut, on, if_true]
    cases fwJob c.op <;> rfl
  · rw [if_neg on, dwellCut_of_off (by simpa using on)]

/-- The completion arms a dwell that its own command has cut again, and frees the place (R39, R183). -/
theorem complete_after_dwellCut {c : FwCmd} {st : Status} {sub : Nat} {r : Results} {s : State} (dwell : dwellSteady s = true)
    (place : placeOpen (fwJob c.op) s = true) :
    complete (fwJob c.op) st sub r ((s.dwellCut (fwJob c.op)).setJob (fwJob c.op) (runningNow c)) = posted c.tag c.op st sub r s := by
  simp only [placeOpen, Bool.and_eq_true, decide_eq_true_eq] at place
  obtain ⟨⟨⟨-, clear⟩, room⟩, cancelled⟩ := place
  have rearmed : rearmAfter (fwJob c.op) (noteStatus st ((s.dwellCut (fwJob c.op)).setJob (fwJob c.op) (runningNow c))) =
      noteStatus st (s.setJob (fwJob c.op) (runningNow c)) := by
    by_cases on : s.pw.dwell = true
    · simp only [dwellSteady, on, Bool.not_true, Bool.false_or, Bool.and_eq_true, Option.isNone_iff_eq_none] at dwell
      obtain ⟨⟨none_, place⟩, -⟩ := dwell
      have place' : dwellPlace (noteStatus st ((s.dwellCut (fwJob c.op)).setJob (fwJob c.op) (runningNow c))) = true := by
        rw [← place]; unfold noteStatus; split <;> cases fwJob c.op <;> rfl
      unfold rearmAfter
      rw [if_pos (by unfold noteStatus; split <;> simp [State.dwellCut, on]), place', Bool.or_true]
      unfold noteStatus
      split <;> cases fwJob c.op <;> simp [State.dwellCut, State.setJob, ← on, ← none_]
    · have off : s.pw.dwell = false := by simpa using on
      rw [dwellCut_of_off off, rearmAfter_of_ne]
      unfold noteStatus; split <;> simpa using cancelled
  have freed : endRunning (fwJob c.op) (cqPush (completionRecord c st sub r) (noteStatus st (s.setJob (fwJob c.op) (runningNow c)))) =
      posted c.tag c.op st sub r s := by
    have job : (cqPush (completionRecord c st sub r) (noteStatus st (s.setJob (fwJob c.op) (runningNow c)))).job (fwJob c.op) = runningNow c := by
      unfold noteStatus; split <;> cases fwJob c.op <;> rfl
    rw [endRunning_of_none (by rw [job])]
    unfold posted noteStatus
    rw [← clear]
    split <;> cases fwJob c.op <;> rfl
  have open_ : cqOpen (noteStatus st (s.setJob (fwJob c.op) (runningNow c))) = true := by
    rw [← room]; unfold noteStatus; split <;> cases fwJob c.op <;> rfl
  simp only [complete, setJob_job, Bool.false_eq_true, if_false, rearmed, postJobEnd, open_, if_true, freed]

theorem quiet_posted (tag : Word) (op : FwOp) (st : Status) (sub : Nat) (r : Results) (s : State) :
    quiet (posted tag op st sub r s) = quiet s := by
  unfold posted noteStatus; split <;> rfl

theorem calm_posted (tag : Word) (op : FwOp) (st : Status) (sub : Nat) (r : Results) (s : State) :
    calm (posted tag op st sub r s) = calm s := by
  unfold posted noteStatus; split <;> rfl

/-- Nothing follows from a completion in a quiet or a calm part. -/
theorem settle_posted {tag : Word} {op : FwOp} {st : Status} {sub : Nat} {r : Results} {s : State}
    (still : quiet s = true ∨ calm s = true) : settle (posted tag op st sub r s) = posted tag op st sub r s := by
  rcases still with quiet | calm
  · exact settle_quiet (by rw [quiet_posted, quiet])
  · exact settle_calm (by rw [calm_posted, calm])

/-- The state in which a command that cuts the dwell is judged. -/
abbrev State.judging (c : FwCmd) (s : State) : State := (s.dwellCut (fwJob c.op)).setJob (fwJob c.op) (runningNow c)

/-- A command that its judgement completes at once leaves the completion alone (R39, R183). -/
theorem firmware_completes {c : FwCmd} {judge : FwOp → State → State} {st : Status} {sub : Nat} {r : Results} {s : State}
    (still : quiet s = true ∨ calm s = true) (dwell : dwellSteady s = true) (place : placeOpen (fwJob c.op) s = true)
    (cuts : keepsDwell c.op = false) (now : (s.mo.mask && waitsForRecovery c.op) = false)
    (judged : judge c.op (s.judging c) = complete (fwJob c.op) st sub r (s.judging c)) :
    firmware c judge s = .next (posted c.tag c.op st sub r s) := by
  have place' := place
  simp only [placeOpen, Bool.and_eq_true, decide_eq_true_eq] at place'
  obtain ⟨⟨⟨bound, clear⟩, -⟩, -⟩ := place'
  rw [firmware_settles bound clear now, startRunning_dwellCut cuts dwell clear, judged, complete_after_dwellCut dwell place,
    settle_posted still]

/-- A command that leaves the dwell alone and completes at once leaves the completion alone. -/
theorem firmware_completes_keeping {c : FwCmd} {judge : FwOp → State → State} {st : Status} {sub : Nat} {r : Results} {s : State}
    (still : quiet s = true ∨ calm s = true) (place : placeOpen (fwJob c.op) s = true) (keeps : keepsDwell c.op = true)
    (now : (s.mo.mask && waitsForRecovery c.op) = false)
    (judged : judge c.op (s.setJob (fwJob c.op) (runningNow c)) = complete (fwJob c.op) st sub r (s.setJob (fwJob c.op) (runningNow c))) :
    firmware c judge s = .next (posted c.tag c.op st sub r s) := by
  simp only [placeOpen, Bool.and_eq_true, decide_eq_true_eq] at place
  obtain ⟨⟨⟨bound, clear⟩, room⟩, cancelled⟩ := place
  rw [firmware_settles bound clear now, startRunning_keeping keeps clear, judged,
    complete_posts (setJob_job _ _ _) (by rw [cqOpen_setJob]; exact room) (by rw [pw_setJob]; exact cancelled)]
  have back : (posted c.tag c.op st sub r (s.setJob (fwJob c.op) (runningNow c))).setJob (fwJob c.op) Job.clear = posted c.tag c.op st sub r s := by
    unfold posted noteStatus
    rw [← clear]
    split <;> cases fwJob c.op <;> rfl
  rw [back, settle_posted still]

end Sys2Proof.Machine
end

section
/-! SUPPORT. The transfers that the part issues, and what it reads of bytes that it has written before (R82): the cartridge record through
its area (R14). -/

namespace Sys2Proof.Machine

/-! ### Transfers issued -/

theorem issueWrite_internal {bs : List Byte} (h : bs ≠ []) (a : Nat) (what : Purpose) (s : State) :
    issueWrite .internal a bs what s = { s with bp.reqs := s.bp.reqs ++ [partWrite a bs what] } :=
  issueWrite_of_ne (by simpa using h) .internal a what s

@[simp] theorem issueWrite_nil (cls : ReqClass) (a : Nat) (what : Purpose) (s : State) : issueWrite cls a [] what s = s := rfl

theorem issueRead_internal {n : Nat} (h : n ≠ 0) (a : Nat) (what : Purpose) (s : State) :
    issueRead .internal a n what s = { s with bp.reqs := s.bp.reqs ++ [readOf a n what] } :=
  issueRead_of_pos h .internal a what s

theorem consult_internal {n : Nat} (h : n ≠ 0) (a : Nat) (s : State) :
    consult a n s = { s with bp.reqs := s.bp.reqs ++ [readOf a n .plain] } := issueRead_internal h a .plain s

/-! ### Bytes read through the requests -/

/-- `n` bytes from `a` as the memory and the requests give them. -/
def throughBytes (m : List Host.Cell) (rs : List Req) (a : Nat) : Nat → List Byte
  | 0 => []
  | n + 1 => throughByte m rs a :: throughBytes m rs (a + 1) n

theorem readThrough_eq (s : State) (a n : Nat) : readThrough s a n = throughBytes s.mem s.bp.reqs a n := by
  induction n generalizing a with
  | zero => rfl
  | succ n ih => rw [readThrough, throughBytes, ih]

@[simp] theorem throughBytes_length (m : List Host.Cell) (rs : List Req) (a n : Nat) : (throughBytes m rs a n).length = n := by
  induction n generalizing a with
  | zero => rfl
  | succ n ih => simp [throughBytes, ih]

theorem throughByte_append (m : List Host.Cell) (rs qs : List Req) (a : Nat) :
    throughByte m (rs ++ qs) a = overlay a (throughByte m rs a) qs := overlay_append a _ rs qs

/-- A write of the part lies on top of what was issued before it. -/
theorem throughByte_partWrite (m : List Host.Cell) (rs : List Req) (a k : Nat) (bs : List Byte) (what : Purpose) :
    throughByte m (rs ++ [partWrite a bs what]) k = if a ≤ k ∧ k < a + bs.length then bs.getD (k - a) 0 else throughByte m rs k := by
  have h := throughByte_issueWrite .internal a k bs what { State.reset with mem := m, bp.reqs := rs }
  by_cases empty : bs = []
  · subst empty
    rw [if_neg (by simp only [List.length_nil]; omega)]
    simp [throughByte_append, overlay, partWrite]
  · rw [issueWrite_internal empty] at h
    exact h

/-- Bytes that agree one by one are the same bytes. -/
theorem throughBytes_congr {m : List Host.Cell} {rs qs : List Req} {a n : Nat}
    (h : ∀ k, a ≤ k → k < a + n → throughByte m rs k = throughByte m qs k) : throughBytes m rs a n = throughBytes m qs a n := by
  induction n generalizing a with
  | zero => rfl
  | succ n ih =>
    rw [throughBytes, throughBytes, h a le_rfl (by omega), ih fun k h1 h2 => h k (by omega) (by omega)]

/-- A read changes no byte. -/
@[simp] theorem throughBytes_readOf (m : List Host.Cell) (rs : List Req) (a n b k : Nat) (what : Purpose) :
    throughBytes m (rs ++ [readOf b k what]) a n = throughBytes m rs a n :=
  throughBytes_congr fun i _ _ => by simp [throughByte_append, overlay, readOf]

/-- A write elsewhere changes no byte. -/
theorem throughBytes_partWrite_apart {a n b : Nat} {bs : List Byte} (h : b + bs.length ≤ a ∨ a + n ≤ b) (m : List Host.Cell)
    (rs : List Req) (what : Purpose) : throughBytes m (rs ++ [partWrite b bs what]) a n = throughBytes m rs a n :=
  throughBytes_congr fun i _ _ => by rw [throughByte_partWrite, if_neg (by omega)]

/-- What the part has written it reads back. -/
theorem throughBytes_partWrite_same (m : List Host.Cell) (rs : List Req) (a : Nat) (bs : List Byte) (what : Purpose) :
    throughBytes m (rs ++ [partWrite a bs what]) a bs.length = bs := by
  have from_ : ∀ n i, n + i = bs.length → throughBytes m (rs ++ [partWrite a bs what]) (a + i) n = bs.drop i := by
    intro n
    induction n with
    | zero => intro i hi; rw [throughBytes, List.drop_of_length_le (by omega)]
    | succ n ih =>
      intro i hi
      have next : a + i + 1 = a + (i + 1) := by omega
      have inside : i < bs.length := by omega
      rw [throughBytes, next, ih (i + 1) (by omega), throughByte_partWrite, if_pos ⟨by omega, by omega⟩, List.drop_eq_getElem_cons inside]
      simp [inside]
  simpa using from_ bs.length 0 (by omega)

/-! ### The cartridge record -/

theorem cartArea_eq {s : State} {l : Layout} (bound : s.bp.layout = some l) :
    cartArea s = throughBytes s.mem s.bp.reqs l.cartBase 16384 := by
  simp only [cartArea, bound, readThrough_eq]

theorem cart_eq {s : State} {l : Layout} (bound : s.bp.layout = some l) :
    s.cart = cartOf (throughBytes s.mem s.bp.reqs l.cartBase 16384) := by rw [State.cart, cartArea_eq bound]

theorem cartImage_length (c : Cart) : (cartImage c).length = 16384 := by simp [cartImage, cartBody_length]

@[simp] theorem cartImage_ne_nil (c : Cart) : cartImage c ≠ [] := by
  intro h; have := cartImage_length c; rw [h] at this; simp at this

@[simp] theorem cartImage_take (c : Cart) : (cartImage c).take Config.cartBytes = cartImage c :=
  List.take_of_length_le (by rw [cartImage_length])

/-- The area read behind a whole image written to it is that image. -/
theorem throughBytes_image {bs : List Byte} (whole : bs.length = 16384) (m : List Host.Cell) (rs : List Req) (a : Nat) (what : Purpose) :
    throughBytes m (rs ++ [partWrite a bs what]) a 16384 = bs := by
  rw [← whole]; exact throughBytes_partWrite_same m rs a bs what

theorem consultCart_eq {s : State} {l : Layout} (bound : s.bp.layout = some l) :
    consultCart s = { s with bp.reqs := s.bp.reqs ++ [readOf l.cartBase 16384 .plain] } := by
  unfold consultCart; rw [bound]; exact consult_internal (n := 16384) (by decide) _ _

theorem consultHead_eq {s : State} {l : Layout} (bound : s.bp.layout = some l) :
    consultHead s = { s with bp.reqs := s.bp.reqs ++ [readOf l.cartBase 64 .plain] } := by
  unfold consultHead; rw [bound]; exact consult_internal (n := 64) (by decide) _ _

/-- The record is read and written whole (R14). -/
theorem putCart_eq {s : State} {l : Layout} (bound : s.bp.layout = some l) (c : Cart) :
    putCart c s = { s with bp.reqs := s.bp.reqs ++ [readOf l.cartBase 16384 .plain, partWrite l.cartBase (cartImage c) .plain] } := by
  simp only [putCart, bound, consultCart_eq bound, issueWrite_internal (cartImage_ne_nil c), List.append_assoc, List.cons_append, List.nil_append]

/-- A good tag image is whole. -/
theorem length_of_tagGood {bs : List Byte} (h : tagGood bs = true) : bs.length = 16384 := by
  simp only [tagGood, cartCheck, Bool.and_eq_true, decide_eq_true_eq] at h
  exact h.1.1.1.1

end Sys2Proof.Machine
end

section
/-! SUPPORT. Proofs about cartridge handling (Chapter 1): seat and path sensors, load, unload. -/

namespace Sys2Proof.Machine

/-! ### Seat and path -/

/-- Settles O8: each edge of the seat by the transport state it meets. -/
theorem seatSensor : Obligations.SeatSensor := by
  intro tag tab s seated emptied
  refine ⟨?_, ?_, ?_, ?_, ?_, ?_, ?_⟩
  · intro empty settled idle wake notice
    obtain ⟨brake, step⟩ := (unthreaded_iff s).mp idle
    simp [seated, exec, execSeatClose, setTransport, holdIdle, loopsRun, noteTarget_eq, tStar, activity, empty, settled, brake, step, wake,
      notice]
  · intro empty settled idle wake notice room
    obtain ⟨brake, step⟩ := (unthreaded_iff s).mp idle
    obtain ⟨room, none_⟩ := (cqOpen_iff s).mp room
    simp [seated, exec, execSeatClose, setTransport, holdIdle, loopsRun, noteTarget_eq, tStar, activity, postAt, empty, settled, brake,
      step, wake, notice, room, none_]
  · intro elsewhere
    simp [exec, execSeatClose, elsewhere]
  · intro seated_ idle room
    obtain ⟨brake, step⟩ := (unthreaded_iff s).mp idle
    obtain ⟨room, none_⟩ := (cqOpen_iff s).mp room
    simp [emptied, exec, execSeatOpen, setTransport, holdIdle, loopsRun, noteTarget_eq, tStar, activity, postAt, seated_, brake, step, room,
      none_]
  · intro faulted path step limSup limTak exc excDue stall stallDue room
    obtain ⟨room, none_⟩ := (cqOpen_iff s).mp room
    simp [emptied, exec, execSeatOpen, setTransport, holdIdle, loopsRun, noteTarget_eq, tStar, activity, postAt, faulted, path, step, limSup,
      limTak, exc, excDue, stall, stallDue, room, none_]
  · rintro (empty | ⟨faulted, path⟩)
    · simp [exec, execSeatOpen, empty]
    · simp [exec, execSeatOpen, faulted, path]
  · intro loading path step calm clean running dwell none_ room
    obtain ⟨⟨deferred, session, intake, watch, held, flush, close⟩, -⟩ := (quiet_iff s).mp calm
    have room8 : s.cq.queue.length < 8 := by omega
    have room7 : s.cq.queue.length + 1 < 8 := by omega
    simp [emptied, exec, execSeatOpen, loadSeatLoss, cleaningFailed, setTransport, holdIdle, loopsRun, noteTarget_eq, tStar, activity, postAt,
      endTransport, completeWith, complete, postJobEnd, noteStatus, rearmAfter, endRunning, posted, inputMoves, AtEase.settle_eq, atEase_iff,
      loading, path, step, clean, running, dwell, none_, room8, room7, deferred, session, intake, watch, held, flush, close]

/-- Settles O9: no operation is under way, so that the loss ends in the entry to FAULTED alone. -/
theorem lossEntersFaulted : Obligations.LossEntersFaulted := by
  intro s threaded none_ calm stack step faulted
  obtain ⟨⟨deferred, session, intake, watch, held, flush, close⟩, -⟩ := (quiet_iff s).mp calm
  simp only [noOperations, Bool.and_eq_true, decide_eq_true_eq, Option.isNone_iff_eq_none, slotsIn_eq, and_assoc] at none_
  obtain ⟨transport, write, read, user, clean, tape⟩ := none_
  constructor <;> rcases threaded with at_ | at_ | at_ <;>
    simp [faulted, exec, execTapeInPathLoss, execSeatOpen, enterFaulted, setTransport, holdIdle, loopsRun, noteTarget_eq, tStar, activity,
      endRecovery, emptyStack, endTransport, cleaningFailed, loseOperations, runningOp, sessionError, dropOnTape, slotsIn_eq,
      AtEase.settle_eq, atEase_iff, Job.clear, at_, stack, step, transport, write, read, user, clean, tape, deferred, session, intake, watch,
      held, flush, close]

/-! ### Load -/

/-- Settles O10: the three ways into a load, and its refusal elsewhere. -/
theorem loadBegins : Obligations.LoadBegins := by
  intro tag tab s calm brake loading autoJob
  obtain ⟨⟨deferred, session, intake, watch, held, flush, close⟩, noted_⟩ := (quiet_iff s).mp calm
  refine ⟨?_, ?_, ?_, ?_⟩
  · intro seated step off bound clear
    have judged := firmware_settles (c := { tag := tag, op := .load }) (judge := fun _ => judgeLoad) bound clear (by simp [waitsForRecovery])
    simp [loading, exec, execLoad, judged, startRunning_dwellOff off, judgeLoad, beginLoad, setTransport, holdIdle, loopsRun, noteTarget_eq,
      tStar, activity, AtEase.settle_eq, atEase_iff, seated, step, clear, brake, deferred, session, intake, watch, held, flush, close]
  · intro seated step waiting none_
    simp [loading, autoJob, exec, execAutomaticLoad, startAutoLoad, beginLoad, setTransport, holdIdle, loopsRun, noteTarget_eq, tStar,
      activity, seated, step, brake, waiting, none_]
  · intro empty step settled wake notice none_
    obtain ⟨-, activityAt⟩ := (noted_iff s).mp noted_
    simp [loading, autoJob, exec, execSeatClose, startAutoLoad, beginLoad, setTransport, holdIdle, loopsRun, noteTarget_eq, tStar, activity,
      unlessChanged_of_ne, activityAt, empty, settled, wake, notice, step, brake, none_]
  · intro elsewhere dwell place
    refine firmware_completes (c := { tag := tag, op := .load }) (.inl calm) dwell place rfl (by simp [waitsForRecovery]) ?_
    cases at_ : s.ch.transport <;> simp_all [judgeLoad, refuse, State.judging, State.dwellCut]

/-- Settles O11: the image is judged as the area holds it behind the write; each verdict begins the step it names. -/
theorem tagReadJudged : Obligations.TagReadJudged := by
  intro image l s bound loading brake hub seat calm some_ uses taken kind gen atRead
  obtain ⟨ease, noted_⟩ := (calm_iff s).mp calm
  obtain ⟨deferred, held, flush, close, fetch, -, elsewhere⟩ := (calmAll_iff s).mp ease
  rw [bound] at fetch
  obtain ⟨tstar, activityAt⟩ := (noted_iff s).mp noted_
  have hold : s.ch.step ≠ some .threadPull → s.re.tstar = Config.tHold := fun ne => by simpa [tStar, loading, ne] using tstar
  have within : ¬(bitAt image 13 1 = true ∧ 50 < field image 14 1) := by
    rintro ⟨present, above⟩
    rcases uses with absent | le
    · simp [present] at absent
    · omega
  refine ⟨?_, ?_, ?_, ?_, ?_⟩
  · intro at_ good data current
    simp only [kind, gen] at data current
    rcases at_ with at_ | at_ <;>
      simp [taken, exec, execTagReadComplete, tagReadEnds, putImage, decideCartridge, startHubEngage, holdIdle, loopsRun,
        issueWrite_internal some_, cart_eq, throughBytes_image (length_of_tagGood good), cartOf, noteTarget_eq, tStar, Calm.settle_eq, calmAll_iff, hold, at_, good, bound, within,
        data, current, hub, loading, brake, deferred, held, flush, close, fetch, activityAt]
  · intro at_ good data ne3 ne2
    simp only [kind, gen] at data ne3 ne2
    rcases at_ with at_ | at_ <;>
      simp [taken, exec, execTagReadComplete, tagReadEnds, putImage, decideCartridge, loadEject, startEject, holdIdle, loopsRun,
        issueWrite_internal some_, cart_eq, throughBytes_image (length_of_tagGood good), cartOf, noteTarget_eq, tStar, Calm.settle_eq, calmAll_iff, hold, at_, good, bound, within,
        data, ne3, ne2, seat, loading, brake, deferred, held, flush, close, fetch, activityAt]
  · intro at_ good data present expired
    simp only [kind] at data
    rcases at_ with at_ | at_ <;>
      simp [taken, exec, execTagReadComplete, tagReadEnds, putImage, decideCartridge, loadEject, startEject, holdIdle, loopsRun,
        issueWrite_internal some_, cart_eq, throughBytes_image (length_of_tagGood good), cartOf, noteTarget_eq, tStar, Calm.settle_eq, calmAll_iff, hold, at_, good, bound,
        data, present, expired, seat, loading, brake, deferred, held, flush, close, fetch, activityAt]
  · intro at_ bad
    have take_some : image.take Config.cartBytes ≠ [] := by simp [some_]
    constructor <;>
      simp [exec, execTagReadComplete, execTagReadLimit, tagReadEnds, putRaw, holdIdle, loopsRun, issueWrite_internal take_some,
        noteTarget_eq, tStar, Calm.settle_eq, calmAll_iff, hold, at_, bad, bound, loading, brake, deferred, held, flush, close, fetch, activityAt]
  · intro at_ bad blank
    have take_some : image.take Config.cartBytes ≠ [] := by simp [some_]
    constructor <;>
      simp [blank, exec, execTagReadComplete, execTagReadLimit, tagReadEnds, putRaw, decideCartridge, startHubEngage, holdIdle, loopsRun,
        issueWrite_internal take_some, issueWrite_internal (cartImage_ne_nil _), noteTarget_eq, tStar, Calm.settle_eq, calmAll_iff, hold, at_, bad, bound, hub, loading, brake,
        deferred, held, flush, close, fetch, activityAt]

/-- Settles O12: each completing condition in its own step begins the next, and elsewhere sets its sensor. -/
theorem threadingAdvances : Obligations.ThreadingAdvances := by
  intro code s loading brake
  refine ⟨?_, ?_, ?_, ?_, ?_, ?_, ?_, ?_, ?_⟩
  · intro at_ pin
    simp [exec, execHubEngaged, startPinCapture, holdIdle, loopsRun, noteTarget_eq, tStar, activity, at_, pin, loading, brake]
  · intro at_
    simp [exec, execPinCaptured, startThreadPull, holdIdle, loopsRun, noteTarget_eq, tStar, activity, at_, loading, brake]
  · intro at_ home
    simp [exec, execArmMoveDone, holdIdle, loopsRun, noteTarget_eq, tStar, activity, at_, home, loading, brake]
  · intro at_ home attempt
    have notLast : ¬3 ≤ s.ch.attempt := by omega
    have counted : min 3 (s.ch.attempt + 1) = s.ch.attempt + 1 := by omega
    simp [exec, execArmMoveDone, loadStepFails, startBackArm, holdIdle, loopsRun, noteTarget_eq, tStar, activity, at_, home, notLast, counted,
      loading, brake]
  · intro at_ short
    simp [exec, execArmMoveDone, at_, Nat.not_le_of_lt short]
  · intro at_ settled noted_ readable data
    obtain ⟨tstar, activityAt⟩ := (noted_iff s).mp noted_
    have held : s.re.tstar = Config.tHold := by simpa [tStar, loading, at_] using tstar
    simp [exec, execTensionSettled, tensionSettled, holdIdle, loopsRun, noteTarget_eq, tStar, activityAt, ← held, at_, settled, readable, data,
      loading, brake]
    rw [← brake]
  · intro at_ short
    simp [exec, execTensionSettled, tensionSettled, Nat.not_le_of_lt short]
  · intro elsewhere
    simp [exec, execHubEngaged, elsewhere]
  · intro elsewhere
    simp [exec, execPinCaptured, elsewhere]

end Sys2Proof.Machine
end

section
/-! SUPPORT. What a cartridge image that the part has written decodes to (R14, 12.7), and the record read behind such a write. -/

namespace Sys2Proof.Machine

theorem slice_append_right {a : List Byte} {off : Nat} (h : a.length ≤ off) (b : List Byte) (n : Nat) :
    slice (a ++ b) off n = slice b (off - a.length) n := by
  simp only [slice, List.drop_append, List.drop_of_length_le h, List.nil_append]

theorem slice_append_left {a : List Byte} {off n : Nat} (h : off + n ≤ a.length) (b : List Byte) : slice (a ++ b) off n = slice a off n := by
  simp only [slice, List.drop_append_of_le_length (show off ≤ a.length by omega),
    List.take_append_of_le_length (show n ≤ (a.drop off).length by rw [List.length_drop]; omega)]

theorem eodBytes_length (e : Option Eod) : (eodBytes e).length = 16 := by cases e <;> simp [eodBytes, ones]

/-- The image's first 16 bytes (12.7). -/
def cartHead (c : Cart) : List Byte :=
  padTo 8 c.serial ++ [if c.cleaning then 2 else 1, byteOf c.gen] ++ leBytes 2 c.loads ++
    [if c.openFlag then 1 else 0, byteOf ((if c.eod.isSome then 1 else 0) + (if c.cleaning then 2 else 0)),
     if c.cleaning then byteOf c.uses else 255, byteOf c.hist.length]

theorem cartHead_length (c : Cart) : (cartHead c).length = 16 := by simp [cartHead]

/-- A field within the first 16 bytes is one of the head. -/
theorem slice_cartImage {off n : Nat} (head : off + n ≤ 16) (c : Cart) : slice (cartImage c) off n = slice (cartHead c) off n := by
  have split : ∃ rest, cartImage c = cartHead c ++ rest := by
    unfold cartImage cartBody cartHead; simp only [List.append_assoc]; exact ⟨_, rfl⟩
  obtain ⟨rest, split⟩ := split
  rw [split, slice_append_left (by rw [cartHead_length]; exact head)]

/-- A byte of the head behind the serial number, the kind and the load count. -/
theorem field_cartHead_flags {c : Cart} {i : Nat} (off : i < 4) : field (cartHead c) (12 + i) 1 =
    field [if c.openFlag then 1 else 0, byteOf ((if c.eod.isSome then 1 else 0) + (if c.cleaning then 2 else 0)),
     if c.cleaning then byteOf c.uses else 255, byteOf c.hist.length] i 1 := by
  rw [field, cartHead, slice_append_right (by simp), field]
  simp

@[simp] theorem openFlag_cartImage (c : Cart) : (cartOf (cartImage c)).openFlag = c.openFlag := by
  have byte : field (cartImage c) 12 1 = if c.openFlag then 1 else 0 := by
    rw [field, slice_cartImage (by decide), ← field, field_cartHead_flags (i := 0) (by decide)]
    cases c.openFlag <;> rfl
  simp only [cartOf, byte]
  cases c.openFlag <;> rfl

@[simp] theorem cleaning_cartImage (c : Cart) : (cartOf (cartImage c)).cleaning = c.cleaning := by
  have byte : field (cartImage c) 8 1 = if c.cleaning then 2 else 1 := by
    rw [field, slice_cartImage (by decide), cartHead, slice_append_left (by simp), slice_append_left (by simp),
      slice_append_right (by simp)]
    cases c.cleaning <;> simp [slice, leNat]
  simp only [cartOf, byte]
  cases c.cleaning <;> rfl

@[simp] theorem eod_isSome_cartImage (c : Cart) : (cartOf (cartImage c)).eod.isSome = c.eod.isSome := by
  have bit : bitAt (cartImage c) 13 0 = c.eod.isSome := by
    rw [bitAt, field, slice_cartImage (by decide), ← field, field_cartHead_flags (i := 1) (by decide)]
    cases c.eod <;> cases c.cleaning <;> simp [field, slice, leNat, byteOf]
  rw [show (cartOf (cartImage c)).eod = eodOf (cartImage c) from rfl, eodOf, bit]
  cases c.eod <;> simp

/-- The record read behind the write of its image. -/
theorem cartOf_written (m : List Host.Cell) (rs : List Req) (a : Nat) (c : Cart) (what : Purpose) :
    throughBytes m (rs ++ [partWrite a (cartImage c) what]) a 16384 = cartImage c := throughBytes_image (cartImage_length c) m rs a what

/-- The record read behind its reading and writing (R14). -/
theorem throughBytes_putCart (m : List Host.Cell) (rs : List Req) (a : Nat) (c : Cart) (r w : Purpose) :
    throughBytes m (rs ++ [readOf a 16384 r, partWrite a (cartImage c) w]) a 16384 = cartImage c := by
  rw [show rs ++ [readOf a 16384 r, partWrite a (cartImage c) w] = (rs ++ [readOf a 16384 r]) ++ [partWrite a (cartImage c) w] by simp]
  exact cartOf_written m _ a c w

end Sys2Proof.Machine
end

section
/-! SUPPORT. Proofs about the end of a load and about UNLOAD (Chapter 1). -/

namespace Sys2Proof.Machine

/-- Settles O14: the record read back behind the write of its load count still carries the open flag clear. -/
theorem loadCompletes : Obligations.LoadCompletes := by
  intro tag l s bound loading step brake running room none_ flag clean calm
  obtain ⟨⟨deferred, session, intake, watch, held, flush, close⟩, noted_⟩ := (quiet_iff s).mp calm
  obtain ⟨room, empty⟩ := (cqOpen_iff s).mp room
  rw [cart_eq bound] at flag
  simp [exec, execServoLock, loadComplete, countLoad, putCart_eq bound, cart_eq (l := l), bound, throughBytes_putCart, flag, finishLoad, toReady, loadTally,
    setTransport, holdIdle, loopsRun, noteTarget_eq, tStar, activity, endTransport, completeWith, complete, postJobEnd, noteStatus, rearmAfter, endRunning,
    AtEase.settle_eq, atEase_iff, loading, step, brake, running, room, empty, none_, clean, deferred, session, intake, watch, held, flush, close, satInc16, Job.clear]

/-- Settles O15: UNLOAD by the transport state it meets. -/
theorem unloadBegins : Obligations.UnloadBegins := by
  intro tag force s brake seat c toBot
  refine ⟨?_, ?_, ?_, ?_, ?_⟩
  · intro empty calm dwell place
    refine firmware_completes (c := c) (.inl calm) dwell place rfl (by simp [c, waitsForRecovery]) ?_
    simp [c, judgeUnload, refuse, State.judging, State.dwellCut, empty]
    rfl
  · intro busy calm dwell place
    refine firmware_completes (c := c) (.inl calm) dwell place rfl (by simp [c, waitsForRecovery]) ?_
    rcases busy with busy | busy <;> simp [c, judgeUnload, refuse, State.judging, State.dwellCut, busy] <;> rfl
  · intro ready unforced open_ calm dwell place
    refine firmware_completes (c := c) (.inr calm) dwell place rfl (by simp [c, waitsForRecovery]) ?_
    simp only [sessionOpen] at open_
    simp [c, judgeUnload, refuse, State.judging, State.dwellCut, sessionOpen, ready, unforced, open_]
    rfl
  · intro seated step calm off bound clear
    obtain ⟨⟨deferred, session, intake, watch, held, flush, close⟩, noted_⟩ := (quiet_iff s).mp calm
    obtain ⟨tstar, activityAt⟩ := (noted_iff s).mp noted_
    have hold : s.re.tstar = tStar s := tstar
    simp [tStar, seated] at hold
    have judged : execUnload tag force s = .next (settle (judgeUnload force (startRunning c s))) :=
      firmware_settles bound clear (by simp [waitsForRecovery])
    simp [exec, judged, c, startRunning_dwellOff off, judgeUnload, startEject, holdIdle, loopsRun, noteTarget_eq, tStar, activityAt, hold,
      AtEase.settle_eq, atEase_iff, seated, seat, clear, brake, deferred, session, intake, watch, held, flush, close]
  · intro ready settled calm dwell bound clear read write known undistanced far
    obtain ⟨⟨deferred, session, intake, watch, held, flush, close⟩, noted_⟩ := (quiet_iff s).mp calm
    have judged : execUnload tag force s = .next (settle (judgeUnload force (startRunning c s))) :=
      firmware_settles bound clear (by simp [waitsForRecovery])
    have cut := startRunning_dwellCut (c := c) rfl dwell clear
    have low : Config.regionLow = 20000 := rfl
    have fast : Config.locateSpeed = 307 := rfl
    have back : ¬s.mo.count < Config.regionLow := by omega
    have reverse : Config.regionLow < s.mo.count := by omega
    have room : ¬(s.mo.count - Config.regionLow) * 256 ≤ Config.locateSpeed * (Config.locateSpeed + 1) := by rw [fast]; omega
    by_cases first : s.mo.pass = 0 <;>
    simp [toBot, ← low, ← fast, exec, judged, cut, c, State.dwellCut, judgeUnload, sessionOpen, endReadForUnload, runningOp, unloadFrom, beginUnload, startRewind, setTransport, holdIdle, loopsRun, noteTarget_eq, tStar, activity,
      startPlan, enterActive, motionStart, rewindLegs, first, beginLegs, moveLeg, bot, checkStop, remaining, reverse, room, known, undistanced, settled,
      AtEase.settle_eq, atEase_iff, ready, read, write, Job.clear, brake, deferred, session, intake, watch, held, flush, close]

/-- Settles O16: each step of R18 in turn. -/
theorem unloadAdvances : Obligations.UnloadAdvances := by
  intro code tape ok tag force l s unloading seat brake bound removed done summary summed mine loaded tagged recordRead
  have base : histBase s = l.histBase := by simp [histBase, bound]
  have some_ (h : Health) : persistentBytes h ≠ [] := by simp [persistentBytes]
  have length (h : Health) : (persistentBytes h).length = 512 := by simp [persistentBytes]
  refine ⟨?_, ?_, ?_, ?_, ?_, ?_, ?_, ?_⟩
  · intro at_ home pin
    simp [exec, execArmMoveDone, startPinRelease, holdIdle, loopsRun, noteTarget_eq, tStar, activity, at_, home, pin, unloading, brake]
  · intro at_ hub
    simp [exec, execPinReleased, startHubRelease, holdIdle, loopsRun, noteTarget_eq, tStar, activity, at_, hub, unloading, brake]
  · intro at_ unheld shut
    simp [exec, execHubReleased, startTagWrite, healthAtTagWrite, loadSummary, writePersistent, histBase, bound, issueWrite_internal (some_ _), unheld, shut,
      startEject, seat, holdIdle, loopsRun, noteTarget_eq, tStar, activity, at_, unloading, brake]
  · intro at_ held_ unreadable open_ few
    simp [exec, execHubReleased, startTagWrite, healthAtTagWrite, loadSummary, writePersistent, histBase, bound, issueWrite_internal (some_ _), held_, unreadable, open_, Nat.not_le_of_lt few,
      summed, summary, appendMax,
      startEject, seat, holdIdle, loopsRun, noteTarget_eq, tStar, activity, at_, unloading, brake]
  · intro at_ held_ readable shut apart_
    have behind (what : Purpose) := throughBytes_partWrite_apart (a := l.cartBase) (n := 16384) (b := l.histBase) (bs := persistentBytes s.he) (by rw [length]; omega) s.mem s.bp.reqs what
    simp [exec, execHubReleased, startTagWrite, healthAtTagWrite, loadSummary, writePersistent, histBase, bound, issueWrite_internal (some_ _), held_, readable, shut,
      tagged, recordRead, putCart_eq (l := l), cart_eq (l := l), behind, 
      seat, holdIdle, loopsRun, noteTarget_eq, tStar, activity, at_, unloading, brake]
  · intro at_ held_ readable open_ few data apart_
    have behind (c : Cart) (h : Health) : throughBytes s.mem (s.bp.reqs ++
        [readOf l.cartBase 16384 .plain, partWrite l.cartBase (cartImage c) .plain, partWrite l.histBase (persistentBytes h) .plain])
        l.cartBase 16384 = cartImage c := by
      rw [List.append_cons, List.append_cons, throughBytes_partWrite_apart (by rw [length]; omega)]
      exact cartOf_written _ _ _ _ _
    rw [cart_eq bound] at data
    simp [exec, execHubReleased, startTagWrite, healthAtTagWrite, loadSummary, writePersistent, histBase, bound, issueWrite_internal (some_ _), held_, readable, open_, Nat.not_le_of_lt few,
      tagged, recordRead, putCart_eq (l := l), cart_eq (l := l), appendMax, data, loaded, mine, summed, summary, behind,
      seat, holdIdle, loopsRun, noteTarget_eq, tStar, activity, at_, unloading, brake]
  · intro at_ room
    obtain ⟨room, empty⟩ := (cqOpen_iff s).mp room
    cases ok <;> simp [exec, execTagWriteEnd, startEject, postAt, seat, room, empty, holdIdle, loopsRun, noteTarget_eq, tStar, activity, at_, unloading, brake]
    rw [← empty]
  · intro at_ running none_ room cancelled degSup degTak
    have first : s.cq.queue.length < 8 := by omega
    have second : s.cq.queue.length + 1 < 8 := by omega
    simp [exec, execSeatOpen, finishEject, setTransport, holdIdle, loopsRun, noteTarget_eq, tStar, activity, postAt, endTransport, completeWith, complete,
      postJobEnd, noteStatus, rearmAfter, endRunning, removed, done, first, second, running, none_, cancelled, at_, unloading, brake, Job.clear, inputMoves]

end Sys2Proof.Machine
end

section
/-! SUPPORT. Proofs about the resets and about the reel drive, tension and power (Chapters 1 and 2). -/

namespace Sys2Proof.Machine

/-- With no layout in force a write that is no binding word is forwarded, and nothing else (R68, R69). -/
theorem takeWrite_unbound {w : FrontWrite} {s : State} (bound : s.bp.layout = none) (plain : ∀ i < 8, w.enables (248 + i) = false) :
    takeWrite w s = { s with bp.acks := s.bp.acks.add w.master, bp.reqs := s.bp.reqs ++ [writeOf w.addr w.data] } := by
  have none_ : (List.range 8).any (fun i => w.enables (248 + i)) = false := by simpa using plain
  simp [takeWrite, stagingVerdict, recognise, forwardWrite, writeOf, bound, none_]

/-- The writes that waited are forwarded in order, where no layout is in force (R68). -/
theorem takeBehind_unbound {ws : List FrontWrite} {s : State} (bound : s.bp.layout = none) (held : s.bp.held = none)
    (plain : ∀ w ∈ ws, ∀ i < 8, w.enables (248 + i) = false) :
    takeBehind ws s = { s with
      bp.acks := ws.foldl (fun n w => n.add w.master) s.bp.acks, bp.reqs := s.bp.reqs ++ ws.map (fun w => writeOf w.addr w.data) } := by
  induction ws generalizing s with
  | nil => simp [takeBehind]
  | cons w ws ih =>
    simp only [List.forall_mem_cons] at plain
    rw [takeBehind, if_neg (by simp [held]), takeWrite_unbound bound plain.1]
    refine (ih ?_ ?_ plain.2).trans ?_
    · exact bound
    · exact held
    · simp only [List.foldl_cons, List.map_cons, List.append_assoc, List.cons_append, List.nil_append]

/-- The reset of every block, before the transport state is decided. -/
theorem resetAll_eq {line : Bool} {sn : Sensors} {strap : BitVec 3} {s : State}
    (plain : ∀ w ∈ waitingWrites s, ∀ i < 8, w.enables (248 + i) = false) : resetAll line sn strap s = s.afterReset line sn strap := by
  have forwarded (ws : List FrontWrite) (h : ∀ w ∈ ws, ∀ i < 8, w.enables (248 + i) = false) :=
    takeBehind_unbound (ws := ws) (s := positionInput sn.movement (readSensors sn { State.reset with
      mem := s.mem, pending := s.pending, li.strap := strap, bp.acks := s.bp.acks, bp.lastRead := s.bp.lastRead,
      bp.reqs := s.bp.reqs.filter (fun r => decide (r.cls = .front)), ch.causeLine := line, ch.tapeAtStart := sn.tape,
      ch.lastActivity := if line then s.ch.activity else .none, ch.arm := s.ch.arm, li.line := lineAfterReset s })) rfl rfl h
  unfold resetAll
  cases held : s.bp.held with
  | none =>
    have all : waitingWrites s = s.bp.behind := by simp [waitingWrites, held]
    rw [all] at plain
    rw [State.afterReset, all]
    exact forwarded _ plain
  | some w =>
    have all : waitingWrites s = w :: s.bp.behind := by simp [waitingWrites, held]
    rw [all] at plain
    rw [State.afterReset, all]
    exact forwarded _ plain

/-- Settles O17: the blocks as after reset, and then the state decided from the sensors. -/
theorem powerOnDecides : Obligations.PowerOnDecides := by
  intro sn strap s plain state
  have reset_ := resetAll_eq (line := false) (sn := sn) (strap := strap) plain
  cases tape : sn.tape <;> cases seat : sn.seat <;>
  simp [state, exec, execPowerOn, reset_, State.afterReset, decideState, sensedState, readSensors, positionInput, setTransport, holdIdle, loopsRun, noteTarget_eq, tStar, activity,
    State.reset, tape, seat, tickRuns]

/-- The reel drive after `holdIdle`: with no loop running the reels are staged at zero. -/
def idleReels (s : State) : ReelDrive := (holdIdle s).re

theorem holdIdle_frame (s : State) : holdIdle s = { s with re := idleReels s } := by
  simp only [idleReels, holdIdle]; repeat' split
  all_goals rfl

theorem idleReels_brake (s : State) : (idleReels s).brake = s.re.brake := by
  simp only [idleReels, holdIdle]; repeat' split
  all_goals rfl

/-- Settles O18: what the state decided after the reset leaves alone is read off field by field. -/
theorem resetLineThenSettle : Obligations.ResetLineThenSettle := by
  intro sn strap s
  refine ⟨fun plain => ?_, fun pending empty => ?_, fun decided => ?_⟩
  · simp [exec, execResetLine, resetAll_eq plain]
  · cases tape : sn.tape <;> cases seat : sn.seat <;>
    simp [exec, execResetSettle, pending, decideState, sensedState, readSensors, positionInput, setTransport, holdIdle_frame, idleReels_brake, noteTarget_eq, empty, tape, seat, tickRuns]
  · simp [exec, execResetSettle, decided]

/-- Settles O19: each of the three rows by the condition it meets. -/
theorem periodStartAndBrake : Obligations.PeriodStartAndBrake := by
  refine ⟨fun s => ?_, fun s => ?_, fun s => ?_⟩
  · intro take applied
    refine ⟨?_, ?_, ?_⟩
    · rintro (power | power) <;> simp [exec, execPeriodStart, markScan, Channel.apply, power, applied, take]
    · intro power; simp [exec, execPeriodStart, markScan, Channel.apply, power, applied, take]
    · intro power; simp [exec, execPeriodStart, markScan, Channel.apply, power, applied, take]
  · refine ⟨?_, ?_⟩
    · intro brake apart_ back
      simp [exec, execBrakeRelease, fillWindow, brake, apart_, back]
    · rintro (brake | at_ | at_) <;> simp_all [exec, execBrakeRelease]
  · intro home
    refine ⟨?_, ?_, ?_⟩
    · intro unloading at_ done
      simp [home, exec, execTensionDownDone, startThreadReturn, fillWindow, holdIdle, loopsRun, noteTarget_eq, tStar, activity, unloading, at_, done]
    · intro loading at_ done
      simp [home, exec, execTensionDownDone, startBackArm, fillWindow, holdIdle, loopsRun, noteTarget_eq, tStar, activity, loading, at_, done]
    · intro early
      simp [exec, execTensionDownDone, Nat.not_le_of_lt early]

/-- The clamped integrators of the loops, as integers (R28, R29). -/
theorem clampInt_eq (x : Int) (lo hi : Nat) : (clampInt x lo hi : Int) = max (lo : Int) (min x hi) := by
  unfold clampInt; omega

/-- The excursion count of a scan in ACTIVE as one update (R33). -/
theorem countExcursion_active {s : State} (active : s.ch.transport = .active) (held : Bool) (t : Nat) :
    countExcursion held t s = { s with
      re.exc := if held = true ∨ codeGap t s.re.tstar ≤ 600 then 0 else if s.re.exc = 4 then 4 else s.re.exc + 1,
      re.excDue := s.re.excDue || (!held && decide (600 < codeGap t s.re.tstar) && decide (s.re.exc = 3)) } := by
  unfold countExcursion
  rw [if_neg (by simp [active])]
  by_cases hold : held = true
  · simp [hold]
  · by_cases wide : 600 < codeGap t s.re.tstar
    · have within : ¬codeGap t s.re.tstar ≤ 600 := by omega
      by_cases full : s.re.exc = 4
      · simp [hold, wide, within, full]; rw [← full]
      · simp [hold, wide, within, full, Bool.or_comm]
    · have within : codeGap t s.re.tstar ≤ 600 := by omega
      simp [hold, wide, within]

/-- The stall count as one update (R34). -/
theorem countStall_eq (s : State) : countStall s = { s with
    re.stall := if (windowDistance s).natAbs < 2 ∧ 26 ≤ vStar s ∧ 960 ≤ s.re.ds then (if s.re.stall = 64 then 64 else s.re.stall + 1) else 0,
    re.stallDue := s.re.stallDue ||
      (decide ((windowDistance s).natAbs < 2) && decide (26 ≤ vStar s) && decide (960 ≤ s.re.ds) && decide (s.re.stall = 63)) } := by
  unfold countStall
  by_cases stuck : (windowDistance s).natAbs < 2 ∧ 26 ≤ vStar s ∧ 960 ≤ s.re.ds
  · rw [if_pos stuck, if_pos stuck]
    obtain ⟨stands, moving, driven⟩ := stuck
    by_cases full : s.re.stall = 64
    · simp [stands, moving, driven, full]; rw [← full]
    · simp [stands, moving, driven, full, Bool.or_comm]
  · rw [if_neg stuck, if_neg stuck]
    have calm : (decide ((windowDistance s).natAbs < 2) && decide (26 ≤ vStar s) && decide (960 ≤ s.re.ds)) = false := by
      simpa [← Bool.decide_and, and_assoc] using stuck
    rw [calm]; simp

/-- The stop of a move that ends at a count (R45). -/
theorem checkStop_leg {s : State} {leg : Leg} {rest : List Leg} {t : Nat} (legs : s.mo.legs = leg :: rest) (target : leg.target = some t) :
    checkStop s =
      if s.mo.stopping = false ∧ s.mo.passWait = false ∧ remaining s t * 256 ≤ s.mo.v * (s.mo.v + 1) ∧ (0 < s.mo.v ∨ remaining s t = 0) then
        { s with mo.dest := 0, mo.stopping := true, mo.into := none, mo.mode := if s.mo.mode = some .locate then some .ramp else s.mo.mode }
      else s := by
  obtain ⟨m, p, target', v⟩ := leg
  subst target
  simp only [checkStop, legs]

/-- A scan whose loops leave the part at ease, with nothing waiting for its position, is the step of the loops. -/
theorem scanComplete_still {x : ScanSample} {s t : State} (calm : AtEase t) (due : s.re.scanDue = true)
    (reads : scanLoops x (watchSearch x (scanReads x s)) = t) (pass : t.mo.passWait = false) (still : streaming t = false)
    (unloading : t.ch.transport ≠ .loading) (noted_ : noted t = true) : exec (.scanComplete x) s = .next t := by
  simp [exec, execScanComplete, due, scanDone, reads, passReached, pass, watchPosition, still, calm.settle_eq, noteTarget_noted noted_,
    watchBot, unloading]

/-- Settles O20: in each case the loops run, and nothing waits for the position that the scan brings. -/
theorem scanStepsLoops : Obligations.ScanStepsLoops := by
  refine ⟨?_, ?_⟩
  · intro x leg t s delta window d v gap dt ds quarters scanned standing
    refine ⟨fun off => by simp [exec, execScanComplete, off], ?_⟩
    intro due brake tape undistanced step calm
    obtain ⟨ease, noted_⟩ := (quiet_iff s).mp calm
    obtain ⟨tstar, activityAt⟩ := (noted_iff s).mp noted_
    refine ⟨?_, ?_, ?_⟩
    · intro ready mode legs quality wait
      have hold : s.re.tstar = Config.tHold := by simpa [tStar, ready] using tstar
      refine scanComplete_still (ease.congr rfl rfl rfl rfl) due ?_ wait (by simp [streaming, standing, scanned, mode])
        (by simp [standing, scanned, ready]) (by simp [noted_iff, standing, scanned, tStar, ready, mode, hold, activityAt])
      simp [scanLoops, watchSearch, scanReads, ready, mode, step, trackMovement, carryMovement, trackPosition, quality, newWindow,
        noteTarget_eq, loopsRun, tStar, brake, countHold, countSettle, codeGap, loopOf, pulling, detect, loopStep, stageTake, stageSupply,
        stagedDuty, countStall, countExcursion, vStar, supplyDir, signedV, windowDistance, checkCleanRewind, undistanced, stepSpeed, checkStop,
        legs, tape, standing, scanned, delta, window, d, gap, dt, ds, hold, activityAt]
      rw [← undistanced]
    · intro ready mode legs quality wait
      have hold : s.re.tstar = Config.tHold := by simpa [tStar, ready] using tstar
      refine scanComplete_still (ease.congr rfl rfl rfl rfl) due ?_ wait (by simp [streaming, standing, scanned, mode])
        (by simp [standing, scanned, ready]) (by simp [noted_iff, standing, scanned, tStar, ready, mode, hold, activityAt])
      simp [scanLoops, watchSearch, scanReads, ready, mode, step, trackMovement, carryMovement, trackPosition, carryCount, quality, newWindow,
        noteTarget_eq, loopsRun, tStar, brake, countHold, countSettle, codeGap, loopOf, pulling, detect, loopStep, stageTake, stageSupply,
        stagedDuty, countStall, countExcursion, vStar, supplyDir, signedV, windowDistance, checkCleanRewind, undistanced, stepSpeed, checkStop,
        legs, tape, standing, scanned, delta, window, d, gap, dt, ds, quarters, hold, activityAt]
      rw [← undistanced]
    · intro active mode recal quality legs target stopping wait moves far
      have stream : s.re.tstar = Config.tStream := by simpa [tStar, active, mode] using tstar
      have near : ¬(if s.mo.dir = .forward then (t - x.servoCount) * 256 else (x.servoCount - t) * 256) ≤ s.mo.v * (s.mo.v + 1) := by
        rw [← ite_mul]; omega
      refine scanComplete_still (ease.congr rfl rfl rfl rfl) due ?_ wait (by simp [streaming, scanned, mode])
        (by simp [scanned, active]) (by simp [noted_iff, scanned, tStar, active, mode, stream, activityAt])
      simp [scanLoops, watchSearch, scanReads, active, mode, recal, step, trackMovement, carryMovement, trackPosition, quality, newWindow,
        noteTarget_eq, loopsRun, tStar, brake, countHold, countSettle, codeGap, loopOf, pulling, detect, loopStep, stageTake, stageSupply,
        stagedDuty, countStall_eq, countExcursion_active, vStar, knownRewind, supplyDir, signedV, windowDistance, checkCleanRewind, undistanced, stepSpeed, checkStop_leg (leg := leg) (rest := []) (t := t), legs, target, remaining,
        near, stopping, wait, moves, tape, scanned, delta, window, d, v, gap, dt, ds, stream, activityAt]
      have released : (!decide (0 < s.re.excHold)) = decide (s.re.excHold = 0) := by simp [Nat.pos_iff_ne_zero]
      exact ⟨⟨by rw [released], by congr⟩, by rw [← undistanced]⟩
  · intro dt ds target t vStar v hdt hds
    simp only [stepDt, stepDs, clampInt_eq]
    refine ⟨rfl, rfl, ?_, ?_, ?_⟩ <;> unfold clampInt <;> omega

/-- Which loop of a scan runs (R27). -/
theorem loopOf_supply (tape : Bool) (s : State) :
    loopOf .supply tape s = true ↔ loopsRun s = true ∧ ¬(s.ch.transport = .loading ∧ s.ch.step = some .threadPull) := by
  simp only [loopOf, pulling, Bool.and_eq_true, Bool.or_eq_true, Bool.not_eq_true', ← Bool.decide_and, decide_eq_false_iff_not,
    Bool.false_eq_true, or_false]

theorem loopOf_takeUp (tape : Bool) (s : State) :
    loopOf .takeUp tape s = true ↔ loopsRun s = true ∧ (¬(s.ch.transport = .loading ∧ s.ch.step = some .threadPull) ∨ tape = true) := by
  simp only [loopOf, pulling, Bool.and_eq_true, Bool.or_eq_true, Bool.not_eq_true', ← Bool.decide_and, decide_eq_false_iff_not]

/-- A fault that does not outrank the cause under way joins the pending set once (R61). -/
theorem raiseFault_pending {c : Cause} {x : Context} {s : State} (stack : s.mo.stack = [x]) (mask : s.mo.mask = true)
    (recal : s.mo.recal = false) (wait : s.mo.wait ≠ .failing) (stall : c ≠ x.cause) (lower : ¬c.code < x.cause.code) :
    raiseFault c s = { s with mo.pend := if s.mo.pend.contains c then s.mo.pend else s.mo.pend ++ [c] } := by
  have first : ¬(c = .reelStall ∧ x.cause = .reelStall) := fun ⟨h, k⟩ => stall (h.trans k.symm)
  unfold raiseFault
  rw [if_neg (by simp [recal]), if_neg wait, if_pos mask, stack]
  dsimp only
  rw [if_neg first, if_neg lower]
  split <;> rfl

/-- Settles O21: a reel that degrades is staged again where its loop runs; END_APPROACH outranks both raised faults. -/
theorem reelLimitsAndRaisedFaults : Obligations.ReelLimitsAndRaisedFaults := by
  refine ⟨fun s => ?_, fun x s => ?_⟩
  · intro threading degraded
    have supply (normal : s.re.degSup = false) (limit : 8 ≤ s.re.limSup) : exec (.reelDegrade .supply) s = .next
        (if loopOf .supply s.ch.tape (degraded .supply) then stageSupply (degraded .supply) else degraded .supply) := by
      change Host.Outcome.next (if s.re.degSup = false ∧ 8 ≤ s.re.limSup then _ else _) = _
      rw [if_pos ⟨normal, limit⟩]; rfl
    have takeUp (normal : s.re.degTak = false) (limit : 8 ≤ s.re.limTak) : exec (.reelDegrade .takeUp) s = .next
        (if loopOf .takeUp s.ch.tape (degraded .takeUp) then stageTake (degraded .takeUp) else degraded .takeUp) := by
      change Host.Outcome.next (if s.re.degTak = false ∧ 8 ≤ s.re.limTak then _ else _) = _
      rw [if_pos ⟨normal, limit⟩]; rfl
    refine ⟨?_, ?_, ?_, ?_, ?_, ?_, ?_, ?_, ?_, ?_⟩
    · intro normal limit runs apart_
      rw [supply normal limit, if_pos ((loopOf_supply s.ch.tape (degraded .supply)).mpr ⟨runs, apart_⟩)]
      rfl
    · intro normal limit runs apart_
      rw [takeUp normal limit, if_pos ((loopOf_takeUp s.ch.tape (degraded .takeUp)).mpr ⟨runs, apart_⟩)]
      rfl
    · intro normal limit off
      rw [supply normal limit, if_neg]
      rintro loop
      obtain ⟨runs, apart_⟩ := (loopOf_supply _ _).mp loop
      exact off.elim (fun off => Bool.false_ne_true (off.symm.trans runs)) apart_
    · intro normal limit off
      rw [takeUp normal limit, if_neg]
      rintro loop
      obtain ⟨runs, apart_⟩ := (loopOf_takeUp _ _).mp loop
      rcases off with off | ⟨thread, tape⟩
      · exact Bool.false_ne_true (off.symm.trans runs)
      · exact apart_.elim (fun h => h thread) (fun h => Bool.false_ne_true (tape.symm.trans h))
    · intro deg done; simp [exec, execReelReturnNormal, deg, done]
    · intro deg done; simp [exec, execReelReturnNormal, deg, done]
    · intro few; simp [exec, execReelDegrade, Nat.not_le_of_lt few]
    · intro few; simp [exec, execReelDegrade, Nat.not_le_of_lt few]
    · intro few; simp [exec, execReelReturnNormal, Nat.not_le_of_lt few]
    · intro few; simp [exec, execReelReturnNormal, Nat.not_le_of_lt few]
  · intro active stack cause mask recal wait calm joined
    refine ⟨?_, ?_, ?_, ?_⟩
    · intro due
      have raised := raiseFault_pending (c := .tensionExcursion) (s := { s with re.excDue := false }) stack mask recal wait (by simp [cause])
        (by simp [cause, Cause.code])
      have same : settle { s with re.excDue := false, mo.pend := joined .tensionExcursion } =
          { s with re.excDue := false, mo.pend := joined .tensionExcursion } := settle_calm (by rw [← calm]; rfl)
      simp only [exec, execTensionExcursion, due, active, if_true, raised]
      exact congrArg Host.Outcome.next same
    · intro due
      have raised := raiseFault_pending (c := .reelStall) (s := { s with re.stallDue := false }) stack mask recal wait (by simp [cause])
        (by simp [cause, Cause.code])
      have same : settle { s with re.stallDue := false, mo.pend := joined .reelStall } =
          { s with re.stallDue := false, mo.pend := joined .reelStall } := settle_calm (by rw [← calm]; rfl)
      simp only [exec, execReelStall, due, active, if_true, raised]
      exact congrArg Host.Outcome.next same
    · intro off; simp [exec, execTensionExcursion, off]
    · intro off; simp [exec, execReelStall, off]

theorem placeOpen_iff (j : JobId) (s : State) : placeOpen j s = true ↔
    s.bp.layout.isSome = true ∧ s.job j = Job.clear ∧ s.cq.queue.length < 8 ∧ s.cq.waiting = [] ∧ s.pw.cancelled ≠ some j := by
  simp [placeOpen, and_assoc]

/-- A command that leaves the dwell alone, and completes at once in a state that its judgement has set, leaves the completion there. -/
theorem firmware_completes_into {c : FwCmd} {judge : FwOp → State → State} {st : Status} {sub : Nat} {r : Results} {s t : State}
    (still : quiet t = true ∨ calm t = true) (place : placeOpen (fwJob c.op) s = true) (place' : placeOpen (fwJob c.op) t = true)
    (keeps : keepsDwell c.op = true) (now : (s.mo.mask && waitsForRecovery c.op) = false)
    (judged : judge c.op (s.setJob (fwJob c.op) (runningNow c)) = complete (fwJob c.op) st sub r (t.setJob (fwJob c.op) (runningNow c))) :
    firmware c judge s = .next (posted c.tag c.op st sub r t) := by
  obtain ⟨bound, clear, -⟩ := (placeOpen_iff _ s).mp place
  obtain ⟨-, clear', room, none_, cancelled⟩ := (placeOpen_iff _ t).mp place'
  rw [firmware_settles bound clear now, startRunning_keeping keeps clear, judged,
    complete_posts (setJob_job _ _ _) (by rw [cqOpen_setJob, cqOpen_iff]; exact ⟨room, none_⟩) (by rw [pw_setJob]; exact cancelled)]
  have back : (posted c.tag c.op st sub r (t.setJob (fwJob c.op) (runningNow c))).setJob (fwJob c.op) Job.clear = posted c.tag c.op st sub r t := by
    unfold posted noteStatus
    rw [← clear']
    split <;> cases fwJob c.op <;> rfl
  rw [back, settle_posted still]

/-- Where intake waits for no slot and no command of the session is outstanding, nothing follows from entering PARKED but the note. -/
theorem settle_parked {s : State} (deferred : s.ci.deferred = []) (held : s.bp.held = none) (flush : s.wr.flush = none)
    (close : s.wr.close = false) (fetch : fetchDue s = false) (waits : intakeWaits s = false) (parked : s.ch.transport = .parked) :
    settle s = noteTarget s := by
  have asleep : checkExhaustion s = s := by simp [checkExhaustion, flushCause, waits, flush, close]
  simp only [settle, judgeDeferred_none deferred, checkFlush_none flush, checkClose_off close, rejudgeHeld_none held, startFetch_off fetch,
    asleep, checkRestart_elsewhere (s := s) (by simp [parked])]

/-- What intake waits for is read from the intake alone (R96). -/
theorem intakeWaits_congr {s t : State} (ri : t.ri = s.ri) : intakeWaits t = intakeWaits s := by unfold intakeWaits; rw [ri]

/-- Settles O22: parking, the policy, and the three ends of a wake. -/
theorem parkAndPolicy : Obligations.ParkAndPolicy := by
  refine ⟨?_, ?_, ?_⟩
  · intro tag s brake step parked
    refine ⟨?_, ?_, ?_, ?_, ?_, ?_⟩
    · intro ready calm place
      obtain ⟨⟨deferred, session, intake, watch, held, flush, close⟩, noted_⟩ := (quiet_iff s).mp calm
      obtain ⟨bound, clear, room, none_, cancelled⟩ := (placeOpen_iff _ s).mp place
      have judged : execPark tag s = .next (settle (judgePark (startRunning { tag := tag, op := .park } s))) :=
        firmware_settles bound clear (by simp [waitsForRecovery])
      simp [parked, exec, judged, startRunning_keeping (c := { tag := tag, op := .park }) rfl clear, judgePark, park, setTransport, holdIdle, loopsRun, noteTarget_eq, tStar, activity, completeWith, complete, postJobEnd, noteStatus, rearmAfter, endRunning, posted,
        AtEase.settle_eq, atEase_iff, ready, Job.clear, room, none_, cancelled, brake, step, deferred, session, intake, watch, held, flush, close]
      have ci : s.ci = { s.ci with transport := Job.clear, deferred := [] } := by rw [← deferred, ← show s.ci.transport = Job.clear from clear]
      exact ci.symm
    · intro ready calm dwell
      obtain ⟨⟨deferred, session, intake, watch, held, flush, close⟩, noted_⟩ := (quiet_iff s).mp calm
      simp [parked, exec, execParkDwellExpiry, dwell, park, setTransport, holdIdle, loopsRun, noteTarget_eq, tStar, activity,
        AtEase.settle_eq, atEase_iff, ready, brake, step, deferred, session, intake, watch, held, flush, close]
    · intro active mode dwell stack opened held flush close fetch waits deferred
      have parks : park s = noteTarget parked.unmoved := by
        simp [parked, park, setTransport, leaveActive, endRecovery, emptyStack, holdIdle, loopsRun, noteTarget_eq, tStar, activity, active, mode, stack, brake, step]
      have after : settle (noteTarget parked.unmoved) = noteTarget parked.unmoved := by
        rw [settle_parked, noteTarget_idem]
        all_goals rw [noteTarget_eq]
        exacts [deferred, held, flush, close, (fetchDue_congr rfl rfl).trans fetch, (intakeWaits_congr rfl).trans waits, rfl]
      simp only [exec, execParkDwellExpiry, dwell, if_true, parks, after]
    · intro at_ calm place
      refine firmware_completes_keeping (c := { tag := tag, op := .park }) (.inl calm) place rfl (by simp [waitsForRecovery]) ?_
      simp [judgePark, completeWith, at_]
    · intro ready at_ calm place
      refine firmware_completes_keeping (c := { tag := tag, op := .park }) (.inl calm) place rfl (by simp [waitsForRecovery]) ?_
      cases h : s.ch.transport <;> simp_all [judgePark, refuse]
    · intro off
      simp [exec, execParkDwellExpiry, off]
  · intro tag e d s place still mask
    refine firmware_completes_into (c := { tag := tag, op := .setPowerPolicy e d }) still.symm place place rfl (by simp [mask]) ?_
    simp [judgeSetPowerPolicy, completeWith, clampNat]
  · intro s ready settling waiters calm none_ brake stack step
    obtain ⟨⟨deferred, session, intake, watch, held, flush, close⟩, noted_⟩ := (quiet_iff s).mp calm
    obtain ⟨tstar, activityAt⟩ := (noted_iff s).mp noted_
    have same := settle_quiet calm
    have hold : s.re.tstar = Config.tHold := by simpa [tStar, ready] using tstar
    simp only [noOperations, Bool.and_eq_true, decide_eq_true_eq, Option.isNone_iff_eq_none, slotsIn_eq, and_assoc] at none_
    obtain ⟨transport, write, read, user, clean, tape⟩ := none_
    refine ⟨?_, ?_, ?_, ?_, ?_, ?_⟩
    · intro done locked stands_
      have still : settle { s with pw.settling := false, pw.dwell := true } = { s with pw.settling := false, pw.dwell := true } :=
        settle_quiet (by rw [← calm]; rfl)
      have ends : settlingEnds s = { s with pw.settling := false, pw.dwell := true } := by
        simp [settlingEnds, waiters, sessionOpen, session]
      have settled : tensionSettled s = true := by simp [tensionSettled, done, tstar]
      change Host.Outcome.next (if _ then _ else _) = _
      rw [if_pos ⟨ready, settling, settled, locked, stands_⟩, ends, still]
    · intro unlocked; simp [exec, execUnparkSettled, unlocked]
    · intro short
      simp [exec, execUnparkTensionTimeout, tensionSettled, Nat.not_le_of_lt short, settling, enterFaulted, setTransport, holdIdle, loopsRun, noteTarget_eq, tStar, activity,
        endRecovery, emptyStack, endTransport, cleaningFailed, loseOperations, runningOp, sessionError, dropOnTape, slotsIn_eq,
        AtEase.settle_eq, atEase_iff, Job.clear, ready, stack, step, transport, write, read, user, clean, tape, deferred, session, intake, watch,
        held, flush, close]
    · intro done; simp [exec, execUnparkTensionTimeout, tensionSettled, done, ← tstar]
    · intro unlocked
      simp [exec, execUnparkServoTimeout, settling, unlocked, losePlace, waiters, setTransport, holdIdle, loopsRun, noteTarget_eq, tStar, activity, loseOperations, runningOp, sessionError, dropOnTape, slotsIn_eq,
        AtEase.settle_eq, atEase_iff, Job.clear, ready, stack, step, brake, write, read, user, tape, deferred, session, intake, watch,
        held, flush, close]
    · intro locked; simp [exec, execUnparkServoTimeout, locked]

end Sys2Proof.Machine
end

section
/-! SUPPORT. What the ends of a motion leave alone: the recovery stack's markers, and what is still on tape of a session that has closed. -/

namespace Sys2Proof.Machine

/-- The requests after the recovery stack has been emptied, its markers written clear (R59). -/
def reqsUnstacked (s : State) : List Req := (emptyStack s).bp.reqs

theorem issueWrite_frame (cls : ReqClass) (a : Nat) (bs : List Byte) (what : Purpose) (s : State) :
    issueWrite cls a bs what s = { s with bp.reqs := (issueWrite cls a bs what s).bp.reqs } := by
  unfold issueWrite; split <;> rfl

theorem clearMarkers_frame (s : State) : clearMarkers s = { s with bp.reqs := (clearMarkers s).bp.reqs } := by
  unfold clearMarkers
  split
  · rfl
  · rw [issueWrite_frame, issueWrite_frame]

theorem emptyStack_frame (s : State) : emptyStack s = { s with mo.stack := [], bp.reqs := reqsUnstacked s } := by
  unfold reqsUnstacked emptyStack
  split
  case isTrue h => rw [← List.isEmpty_iff.mp h]
  case isFalse => rw [clearMarkers_frame]

/-- The segment table, the writer and the band of a ramp after `dropOnTape` (R84, R125). -/
def segmentsDropped (s : State) : SegmentManager := (dropOnTape s).sm
def writerDropped (s : State) : Writer := (dropOnTape s).wr
def bandDropped (s : State) : Option Nat := (dropOnTape s).mo.bandTo

theorem freeSlots_frame (ks : List Nat) (s : State) : freeSlots ks s = { s with sm := (freeSlots ks s).sm } := by
  induction ks generalizing s with
  | nil => rfl
  | cons k ks ih => rw [freeSlots, ih]; rfl

theorem dropOnTape_frame (s : State) : dropOnTape s = { s with
    sm := segmentsDropped s, wr := writerDropped s, mo.bandTo := bandDropped s } := by
  unfold segmentsDropped writerDropped bandDropped dropOnTape
  dsimp only
  split
  · rfl
  · rw [freeSlots_frame]; rfl

theorem writerDropped_flush (s : State) : (writerDropped s).flush = s.wr.flush := by
  unfold writerDropped dropOnTape
  dsimp only
  split
  · rfl
  · rw [freeSlots_frame]; rfl

theorem writerDropped_close (s : State) : (writerDropped s).close = s.wr.close := by
  unfold writerDropped dropOnTape
  dsimp only
  split
  · rfl
  · rw [freeSlots_frame]; rfl

end Sys2Proof.Machine
end

section
/-! SUPPORT. Proofs about motion (Chapter 3). -/

namespace Sys2Proof.Machine

/-! ### LOCATE -/

/-- READY with the motion mode RAMP and the goal of an EOD confirmation still set: everything that O23 asks of its move to BOT holds. -/
def readyWithModeLeft : State :=
  { State.reset with
    bp.layout := some (layoutOf []), ch.transport := .ready, ch.activityAt := (.ready, some .ramp), mo.mode := some .ramp,
    mo.goal := .confirmBack, mo.count := 20000 }

/-- The activity that LOCATE sets there is that of the goal left, which the change of transport state finds; RAMP to RAMP is then no change. -/
theorem locate_keeps_activity_left : ∃ t, exec (.locate 0 2 0) readyWithModeLeft = .next t ∧ t.ch.activity = .reading :=
  ⟨_, rfl, by decide +kernel⟩

/-- Refutes O23: `quiet` leaves open a motion mode in READY, and with RAMP there the activity is set before the move's own goal is. -/
theorem not_locateBegins : ¬ Obligations.LocateBegins := by
  intro holds
  obtain ⟨t, ran, reading⟩ := locate_keeps_activity_left
  obtain ⟨-, -, toBot, -⟩ := holds 0 2 0 readyWithModeLeft (by decide +kernel)
  obtain ⟨begins, -⟩ := toBot rfl rfl (by decide +kernel) rfl rfl rfl rfl (by decide) rfl (by decide +kernel)
  have same := begins rfl (by decide)
  rw [ran] at same
  have moving := congrArg (fun t : State => t.ch.activity) (Host.Outcome.next.inj same)
  rw [show t.ch.activity = _ from reading] at moving
  exact absurd moving (by decide +kernel)

/-- Settles O24: the search begun, ended by a lock, and ended by its limits. -/
theorem recalibrateSearches : Obligations.RecalibrateSearches := by
  intro tag x s calm brake c
  obtain ⟨⟨deferred, session, intake, watch, held, flush, close⟩, noted_⟩ := (quiet_iff s).mp calm
  obtain ⟨tstar, activityAt⟩ := (noted_iff s).mp noted_
  refine ⟨?_, ?_, ?_, ?_, ?_, ?_, ?_⟩
  · intro unpositioned mode off record bound clear
    have judged : execRecalibrate tag s = .next (settle (judgeRecalibrate (startRunning c s))) :=
      firmware_settles bound clear (by simp [waitsForRecovery])
    have hold : s.re.tstar = Config.tHold := by simpa [tStar, unpositioned] using tstar
    simp [exec, judged, c, startRunning_dwellOff off, judgeRecalibrate, record, beginRecalibrate, startSearch, motionStart, setTransport, holdIdle, loopsRun, noteTarget_eq, tStar, activity,
      unlessChanged, hold, activityAt, 
      AtEase.settle_eq, atEase_iff, unpositioned, mode, clear, brake, deferred, session, intake, watch, held, flush, close]
  · intro unpositioned off unheld bound clear
    have judged : execRecalibrate tag s = .next (settle (judgeRecalibrate (startRunning c s))) :=
      firmware_settles bound clear (by simp [waitsForRecovery])
    have hold : s.re.tstar = Config.tHold := by simpa [tStar, unpositioned] using tstar
    simp [exec, judged, c, startRunning_dwellOff off, judgeRecalibrate, unheld, startAdopt, holdIdle, loopsRun, noteTarget_eq, tStar, 
      hold, activityAt, 
      AtEase.settle_eq, atEase_iff, unpositioned, clear, brake, deferred, session, intake, watch, held, flush, close]
    rw [← hold, ← brake]
  · intro elsewhere dwell place
    refine firmware_completes (c := c) (.inl calm) dwell place rfl (by simp [c, waitsForRecovery]) ?_
    cases at_ : s.ch.transport <;> simp_all [judgeRecalibrate, refuse, State.judging, State.dwellCut, c]
  · intro active recal goal mode speed running room cancelled write read user clean failed
    obtain ⟨room, none_⟩ := (cqOpen_iff s).mp room
    have ends : ∃ t, enterFaulted .motionFault s = t ∧ failed t := by
      simp [failed, c, enterFaulted, setTransport, leaveActive, holdIdle, loopsRun, noteTarget_eq, tStar, activity,
        endRecovery, emptyStack_frame, endTransport, cleaningFailed, loseOperations, runningOp, sessionError, dropOnTape_frame, writerDropped_flush, writerDropped_close,
        completeWith, complete, postJobEnd, noteStatus, rearmAfter, endRunning, room, none_, cancelled, running, 
        AtEase.settle_eq, atEase_iff, Job.clear, active, write, read, user, clean, deferred, session, intake, watch,
        held, flush, close]
    have moving : vStar s ≠ 0 := by simp [vStar, active, mode, speed]
    refine ⟨fun unlocked => ?_, ?_⟩
    · simpa [exec, execRecalibrateLockTimeout, recal, goal, unlocked, recalibrateFails, active] using ends
    · simpa [exec, execRecalibrateNoMovement, recal, moving, recalibrateFails, active] using ends
  · intro locked; simp [exec, execRecalibrateLockTimeout, locked]
  · intro active recal goal mode speed locked due undistanced step wait
    have stream : s.re.tstar = Config.tStream := by simpa [tStar, active, mode] using tstar
    cases quality : s.mo.quality <;>
    simp [exec, execScanComplete, due, scanDone, scanReads, newWindow, trackPosition, carryCount, quality, trackMovement, carryMovement, watchSearch, recal, goal, locked, takePosition,
      searchLocked, startPlan, enterActive, motionStart, beginLegs, stopLeg, moveLeg, bot, atRest, speed, scanLoops, noteTarget_eq, tStar, countHold, countSettle,
        loopsRun, loopOf, pulling, detect, loopStep, stageTake, stageSupply, countStall_eq, countExcursion_active, checkCleanRewind, undistanced, stepSpeed, checkStop, stepToward,
        passReached, watchPosition, streaming, watchBot, AtEase.settle_eq, atEase_iff, active, mode, step, wait, brake, deferred, session, intake, watch, held, flush, close, Config.regionLow, Config.locateSpeed]
  · intro off; simp [exec, execRecalibrateLockTimeout, execRecalibrateNoMovement, off]

/-- Settles O25: lock lost, and the three ends of the reacquire. -/
theorem lockLostAtRest : Obligations.LockLostAtRest := by
  intro pass count s ready settled brake step calm none_ waiters stack unplaced
  obtain ⟨⟨deferred, session, intake, watch, held, flush, close⟩, noted_⟩ := (quiet_iff s).mp calm
  simp only [noOperations, Bool.and_eq_true, decide_eq_true_eq, Option.isNone_iff_eq_none, slotsIn_eq, and_assoc] at none_
  obtain ⟨transport, write, read, user, clean, tape⟩ := none_
  have lost : losePlace s = noteTarget unplaced := by
    simp [unplaced, losePlace, waiters, setTransport, holdIdle, loopsRun, noteTarget_eq, tStar, activity, loseOperations, runningOp,
      sessionError, dropOnTape, slotsIn_eq, AtEase.settle_eq, atEase_iff, Job.clear, ready, step, brake, write, read, user, tape, deferred,
      session, intake, watch, held, flush, close]
  refine ⟨?_, ?_, ?_, ?_, ?_, ?_⟩
  · intro locked quality
    simp [exec, execLossOfLock, locked, quality, ready, settled]
  · intro unlocked quality
    simp [exec, execLossOfLock, unlocked, quality]
    rw [← unlocked]
  · intro reacquires same near
    simp [exec, execServoLock, ready, reacquires, inPlace, same, near, takePosition]
  · intro reacquires apart_
    have elsewhere : inPlace pass count s = false := by
      simp only [inPlace, Bool.and_eq_false_iff, decide_eq_false_iff_not]; omega
    simp only [exec, execServoLock, ready, reacquires, Bool.or_true, elsewhere, if_true, Bool.false_eq_true, if_false, lost]
  · intro reacquires
    simp only [exec, execReacquireTimeout, reacquires, if_true, lost]
  · intro off; simp [exec, execReacquireTimeout, off]

/-! ### The cleaning run -/

/-- A cleaning cartridge in TENSION_UP, tension settled, with the goal of an EOD confirmation still set. -/
def cleaningWithGoalLeft : State :=
  { State.reset with
    mem := [(16392, 2)], bp.layout := some { layoutOf [] with cartBase := 16384 }, ch.transport := .loading, ch.step := some .tensionUp,
    ch.activityAt := (.loading, none), re.settle := 16, mo.goal := .confirmBack }

/-- The activity of the run is set by the change of transport state, which still finds that goal. -/
theorem cleanRun_keeps_activity_left :
    ∃ t, exec .tensionSettled cleaningWithGoalLeft = .next t ∧ t.ch.activity = .reading :=
  ⟨_, rfl, by decide +kernel⟩

/-- Refutes O26: nothing in its premises clears the goal left by an EOD confirmation, which the run clears only behind the note. -/
theorem not_meterAndCleaningRun : ¬ Obligations.MeterAndCleaningRun := by
  intro holds
  obtain ⟨t, ran, reading⟩ := cleanRun_keeps_activity_left
  obtain ⟨-, runs⟩ := holds
  obtain ⟨begins, -⟩ := runs 0 { layoutOf [] with cartBase := 16384 } cleaningWithGoalLeft rfl
  have same := begins rfl rfl rfl (by decide) (by decide +kernel) rfl (by decide +kernel)
  rw [ran] at same
  have moving := congrArg (fun t : State => t.ch.activity) (Host.Outcome.next.inj same)
  rw [show t.ch.activity = _ from reading] at moving
  exact absurd moving (by decide +kernel)

/-- Settles O29: each ramp by the mode it leads into, each move by the goal it comes to rest at. -/
theorem rampsAndMovesEnd : Obligations.RampsAndMovesEnd := by
  intro m tag g r st lp sp leg p s calm brake step rest
  obtain ⟨⟨deferred, session, intake, watch, held, flush, close⟩, noted_⟩ := (quiet_iff s).mp calm
  obtain ⟨tstar, activityAt⟩ := (noted_iff s).mp noted_
  refine ⟨?_, ?_, ?_, ?_, ?_, ?_, ?_⟩
  · rintro active (mode | mode) into ne reached <;> simp [exec, execRampComplete, active, mode, into, ne, reached]
  · rintro active (mode | mode) into reached <;> simp [exec, execRampComplete, active, mode, into, reached, noteTarget_eq, tStar, activity]
  · rintro (under | none_)
    · cases into : s.mo.into <;> simp [exec, execRampComplete, into, under]
    · simp [exec, execRampComplete, none_]
  · rintro (going | going) <;> simp [exec, execMoveArrived, arrive, going]
  · intro active stopping still legs goal stack read
    simp [rest, exec, execMoveArrived, arrive, stopping, still, active, legs, stopLeg, goal, reachGoal, toReady, setTransport, leaveActive, endRecovery, emptyStack, stack,
      holdIdle, loopsRun, noteTarget_eq, tStar, activity, abortStands, runningOp, read, Job.clear, AtEase.settle_eq, atEase_iff, brake,
      deferred, session, intake, watch, held, flush, close]
  · intro active stopping still legs target goal stack running room cancelled
    obtain ⟨room, none_⟩ := (cqOpen_iff s).mp room
    obtain ⟨m', pass', target', v'⟩ := leg
    subst target
    rcases cancelled with cancelled | cancelled <;> by_cases ok : st = .ok <;>
    simp [rest, exec, execMoveArrived, arrive, stopping, still, active, legs, goal, reachGoal, toReady, setTransport, leaveActive, endRecovery, emptyStack, stack,
      holdIdle, loopsRun, noteTarget_eq, tStar, activity, complete, postJobEnd, noteStatus, ok, rearmAfter, dwellPlace, cancelled, endRunning, running, room, none_, posted, Job.clear, AtEase.settle_eq, atEase_iff, brake,
      deferred, session, intake, watch, held, flush, close]
  · intro unloading at_ stopping still legs target goal
    have stream : s.re.tstar = Config.tStream := by simpa [tStar, unloading] using tstar
    obtain ⟨m', pass', target', v'⟩ := leg
    subst target
    simp [exec, execMoveArrived, arrive, stopping, still, unloading, at_, legs, goal, reachGoal, startTensionDown, noteTarget_eq, tStar, stream, activityAt,
      AtEase.settle_eq, atEase_iff, deferred, session, intake, watch, held, flush, close]

end Sys2Proof.Machine
end

section
/-! SUPPORT. Proofs about recovery (Sections 3.6 to 3.9). -/

namespace Sys2Proof.Machine

/-- `unmonitored` over the counters it reads. -/
def unmonitoredBy (e : Ev) (counters : List Counter) : Bool := unmonitored e { State.reset with he.counters := counters }

theorem unmonitored_eq (e : Ev) (s : State) : unmonitored e s = unmonitoredBy e s.he.counters := rfl

theorem contextBytes_ne_nil (c : Context) : contextBytes c ≠ [] := fun h => by
  have := congrArg List.length h
  simp [contextBytes] at this

/-- The context of a LOCATE's move reads back as it was written (12.6). -/
theorem contextOf_move {cause : Cause} {dir : Dir} {pass count band : Nat} (slots : Nat) (hp : pass < 48) (hc : count < 65536) (hb : band < 8) :
    contextOf slots (contextBytes ⟨cause, .locate, ⟨pass, count⟩, dir, band, none, none, [], .move⟩) =
      some ⟨cause, .locate, ⟨pass, count⟩, dir, band, none, none, [], .move⟩ := by
  have bytes : count % 256 + 256 * (count / 256 % 256 + 256 * (count / 256 / 256 % 256 + 256 * (count / 256 / 256 / 256 % 256))) = count := by omega
  cases cause <;> cases dir <;>
    simp [contextOf, contextBytes, padTo, field, slice, leBytes, leNat, bitAt, byteOf, ones, Cause.code, Operation.code, Phase.code, pendBits, causeOf, operationOf,
      phaseOf, causesOf, Nat.mod_eq_of_lt (show pass < 256 by omega), Nat.mod_eq_of_lt (show band < 256 by omega), bytes, show ¬47 < pass by omega, show ¬7 < band by omega]

/-- The sole transfer, of one line, read back for a pop: the recovery goes on from it (R62, R82). -/
theorem memoryPortGrant_pop {a d : Nat} {s : State} (reqs : s.bp.reqs = [readOf a 64 (.contextPop d)]) (aligned : a % 64 = 0) :
    exec .memoryPortGrant s =
      .next (settle (contextPopped d (memReadBytes s.mem a 64) { s with bp.reqs := [], bp.starve := 0 })) := by
  simp [exec, execMemoryPortGrant, grantLine, chooseGrant, grantable, headOf, reqs, readOf, moveLine, Req.step, Config.lineBytes, aligned, requestDone]


/-! ### Slots in use -/

/-- The entry of a slot, over the list of the entries. -/
def slotOf (slots : List Slot) (k : Nat) : Slot := slots.getD k (freshSlot .free 0)

theorem slotAt_eq (s : State) (k : Nat) : slotAt s k = slotOf s.sm.slots k := rfl

theorem frameAt_eq (s : State) (k i : Nat) : frameAt s k i = (slotOf s.sm.slots k).frames.getD i { st := .unwritten, count := 0 } := rfl

/-- A slot in use is one of the S slots. -/
theorem slot_lt {slots : List Slot} {k : Nat} (used : (slotOf slots k).st ≠ .free) : k < slots.length := by
  by_contra beyond
  simp [slotOf, List.getD, List.getElem?_eq_none (Nat.le_of_not_lt beyond), freshSlot] at used

theorem slotOf_set {slots : List Slot} {k : Nat} (used : (slotOf slots k).st ≠ .free) (v : Slot) : slotOf (slots.set k v) k = v := by
  simp [slotOf, List.getD, slot_lt used]

theorem setSlot_used {s : State} {k : Nat} {v : Slot} (used : (slotAt s k).st ≠ .free) (kept : v.st ≠ .free) :
    setSlot k v s = { s with sm.slots := s.sm.slots.set k v } := by simp [setSlot, used, kept]

/-- A failed frame is queued once more, in the slot's entry and in the queue (R116). -/
theorem queueRewrite_eq {s : State} {k i : Nat} (used : (slotAt s k).st = .onTape) : queueRewrite k i s = { s with
    sm.slots := s.sm.slots.set k { slotAt s k with
      frames := (slotAt s k).frames.set i { frameAt s k i with st := .rewriteQueued }, rewrites := (slotAt s k).rewrites + 1 },
    wr.rewriteQ := s.wr.rewriteQ ++ [(k, i)] } := by
  rw [slotAt_eq] at used
  have used' : (slotOf s.sm.slots k).st ≠ .free := by simp [used]
  simp [queueRewrite, setFrame, setSlot, slotAt_eq, slotOf_set used', used, frameAt_eq]

/-! ### A recovery entered in a write stream -/

/-- The context of an entry in a write stream, at the last frame end (R59). -/
def streamContext (c : Cause) (next : Option (Nat × Nat)) (s : State) : Context := {
  cause := c, op := .write, pos := { pass := s.mo.pass, count := s.mo.lastEnd.count }, dir := passDir s.mo.pass, band := s.mo.band,
  slot := next.map Prod.fst, frame := next.map Prod.snd, pending := [], phase := .stream }

/-- The machine in which a recovery of cause `c` has been entered in a write stream, with the slots `slots` and the rewrites `queue` that
the handing over leaves (R58 to R60, R119). -/
def streamRecovery (l : Layout) (c : Cause) (slots : List Slot) (queue : List (Nat × Nat)) (next : Option (Nat × Nat)) (s : State) : State := { s with
  sm.slots := slots, wr.verifyQ := [], wr.tx := none, wr.discard := true, wr.heldF0 := none, wr.turnWait := false, wr.rewriteQ := queue,
  mo.entry := s.mo.entry + 1, mo.pend := [], mo.stack := [streamContext c next s], mo.savedLegs := s.mo.legs, mo.savedGoal := .none, mo.mode := some .recovery,
  mo.legs := [stopLeg .recovery], mo.goal := .recStop, mo.wait := .stop, mo.mask := true, mo.dest := 0, mo.stopping := true, mo.into := none,
  mo.recT := Config.tStream, mo.stands := none, rd.start := none, mo.bandTo := none, pw.dwell := false,
  bp.reqs := s.bp.reqs ++ [partWrite l.ctxBase (contextBytes (streamContext c next s)) .plain] }

/-- What the writer has given up when it hands the frames of the verify queue over (R119). -/
def State.handing (s : State) : State :=
  { s with wr.verifyQ := [], wr.tx := none, wr.discard := true, wr.abandon := none, wr.heldF0 := none, wr.turnWait := false, mo.bandTo := none }

/-- A cause raised in a write stream, whose frames are handed over without an abandonment, enters its recovery (R57 to R59, R119). -/
theorem raiseFault_stream {l : Layout} {c : Cause} {slots : List Slot} {queue : List (Nat × Nat)} {s : State} (bound : s.bp.layout = some l)
    (active : s.ch.transport = .active) (mode : s.mo.mode = some .writeStream) (session : s.ri.session = .opened) (recal : s.mo.recal = false)
    (calm : Calm s) (mask : s.mo.mask = false) (stack : s.mo.stack = []) (pend : s.mo.pend = []) (wait : s.mo.wait = .none)
    (entry : s.mo.entry < 4) (abandon : s.wr.abandon = none) (passWait : s.mo.passWait = false) (goal : s.mo.goal = .none)
    (silent : ∀ t : State, t.he = s.he → causeEvent c t = t)
    (handed : ∀ t : State, t.sm = s.sm → t.wr = s.handing.wr → handOver s.wr.verifyQ t = ({ t with sm.slots := slots, wr.rewriteQ := queue }, none)) :
    ∃ next, settle (raiseFault c s) = noteTarget (streamRecovery l c slots queue next s) := by
  obtain ⟨deferred, held, flush, close, fetch, awake, elsewhere⟩ := (calmAll_iff s).mp calm
  have fifth : ¬4 < s.mo.entry + 1 := by omega
  have highest_ : highest [c] = some c := by cases c <;> rfl
  refine ⟨slotNow .write s, ?_⟩
  have given : writerEntry { s with mo.pend := [c], mo.entry := s.mo.entry + 1 } =
      { s.handing with mo.pend := [c], mo.entry := s.mo.entry + 1, sm.slots := slots, wr.rewriteQ := queue } := by
    have opened : (sessionOpen { s with mo.pend := [c], mo.entry := s.mo.entry + 1 } ||
        !List.isEmpty s.wr.verifyQ) = true := by simp [sessionOpen, session]
    simp only [writerEntry]
    rw [if_pos opened, handed, abandon]
    all_goals rfl
  have context : contextNow c { s with mo.pend := [c], mo.entry := s.mo.entry + 1 } = { streamContext c (slotNow .write s) s with pending := [c] } := by
    simp [contextNow, operationNow, mode, streamContext, passInUse, passWait, phaseNow, slotNow, unwrittenFrame, nextToVerify, nextToWrite, slotsIn_eq, frameAt_eq]
  have entered : raiseFault c s = noteTarget (streamRecovery l c slots queue (slotNow .write s) s) := by
    have first : raiseFault c s = enterRecovery none { s with mo.pend := [c] } := by simp [raiseFault, recal, wait, mask, pend]
    rw [first]
    simp only [enterRecovery, highest_]
    rw [if_neg fifth, given, context]
    simp only [State.handing]
    have cleared : { streamContext c (slotNow .write s) s with pending := [c].filter (fun x => decide (x ≠ c)) } =
        streamContext c (slotNow .write s) s := by simp [streamContext]
    simp only [ne_eq, cleared]
    simp [pushContext, bound, stack, issueWrite_internal (contextBytes_ne_nil _), silent, startProcedure, startPlan, enterActive, active, motionStart,
      beginLegs, stopLeg, streamRecovery, abandon, goal, passWait, noteTarget_eq, tStar, activity, sessionOpen, session]
  have calm' : Calm (streamRecovery l c slots queue (slotNow .write s) s) :=
    calm.congr rfl rfl (by simp [streamRecovery]) rfl (by simp [streamRecovery, active]) (by simp [streamRecovery])
  rw [entered, Calm.settle_eq, noteTarget_idem]
  rw [noteTarget_eq]
  exact calm'.congr rfl rfl rfl rfl (by simp [streamRecovery, active]) (by simp [streamRecovery])

/-- A frame written that no counter counts and that makes no checkpoint only counts in the tally (R161, R166). -/
theorem event_frameWritten {s : State} (unmon : unmonitored .frameWritten s = true)
    (between : s.he.tallyOpen = true → satAdd32 s.he.tally.frames 1 % 4096 ≠ 0) :
    event .frameWritten s = { s with he.tally := { s.he.tally with frames := satAdd32 s.he.tally.frames 1 } } := by
  have offered := offerToCounters_unmonitored (s := { s with he.tally := tallyEvent .frameWritten s.he.tally }) unmon
  simp only [event, offered]
  rw [if_neg (by simpa [tallyEvent] using between)]
  rfl

/-- The queue entry of a frame rewritten at the next planned start (R114). -/
def rewritten (k i : Nat) (s : State) : VerifyEntry := {
  slot := k, idx := i, isVoid := false, id := { seg := (slotAt s k).seg, idx := i, placement := (slotAt s k).placement, stamp := s.wr.stamp } }

/-- A rewrite that waits alone is sent at the planned start (R112, R114). -/
theorem frameSlot_rewrite {s : State} {k i : Nat} (pendingEnd : s.wr.pendingEnd = .none) (countBusy : s.wr.countBusy = false)
    (session : s.ri.session = .opened) (queue : s.wr.verifyQ = []) (heldF0 : s.wr.heldF0 = none) (rewriteQ : s.wr.rewriteQ = [(k, i)])
    (later : i ≠ 0) (onTape : (slotAt s k).st = .onTape) (unmon : unmonitored .frameWritten s = true)
    (between : s.he.tallyOpen = true → satAdd32 s.he.tally.frames 1 % 4096 ≠ 0) :
    frameSlot s = { s with
      sm.slots := s.sm.slots.set k { slotAt s k with
        frames := (slotAt s k).frames.set i { st := .inVerify, count := (frameAt s k i).count + 1 } },
      wr.tx := some { slot := k, idx := i, start := { pass := s.mo.pass, count := s.mo.planned }, bytes := [] }, wr.discard := false,
      wr.turnWait := false, wr.heldF0 := none, wr.rewriteQ := [], wr.verifyQ := [rewritten k i s], mo.mode := some .writeStream, mo.planned := ahead s.mo.pass s.mo.planned Config.pitch,
      bp.reqs := s.bp.reqs ++
        [{ cls := .tape, isWrite := false, addr := slotBase s k + i * 32768, len := 32768, data := [], got := [], what := .txFrame }],
      he.tally := { s.he.tally with frames := satAdd32 s.he.tally.frames 1 } } := by
  have used : (slotOf s.sm.slots k).st = .onTape := onTape
  have counted (t : State) (he : t.he = s.he) : event .frameWritten t = { t with he.tally := { s.he.tally with frames := satAdd32 s.he.tally.frames 1 } } := by
    rw [event_frameWritten (by rw [unmonitored_eq, he, ← unmonitored_eq]; exact unmon) (by rw [he]; exact between), he]
  simp [frameSlot, pendingEnd, countBusy, session, queue, heldF0, rewriteQ, sendFrame, later, setSlot, slotAt_eq, frameAt_eq, used, nextSlot, issueRead,
    rewritten, slotBase, counted, Config.frameBytes, isSealed]

theorem handOver_none {s t : State} (queue : s.wr.verifyQ = []) (sm : t.sm = s.sm) (wr : t.wr = s.handing.wr) :
    handOver s.wr.verifyQ t = ({ t with sm.slots := s.sm.slots, wr.rewriteQ := s.wr.rewriteQ }, none) := by
  have kept : s.wr.rewriteQ = t.wr.rewriteQ := by rw [wr]; rfl
  rw [queue, handOver, ← sm, kept]

/-- A frame that awaits its result alone, within the limits of its placement, is queued for rewrite as it is handed over (R119). -/
theorem handOver_one {v : VerifyEntry} {s t : State} (queue : s.wr.verifyQ = [v]) (sound : v.isVoid = false)
    (onTape : (slotAt s v.slot).st = .onTape) (may : mayRewrite s v.slot v.idx = true) (sm : t.sm = s.sm) (wr : t.wr = s.handing.wr) :
    handOver s.wr.verifyQ t = ({ t with
      sm.slots := (queueRewrite v.slot v.idx s).sm.slots, wr.rewriteQ := s.wr.rewriteQ ++ [(v.slot, v.idx)] }, none) := by
  have onTape' : (slotAt t v.slot).st = .onTape := by rw [slotAt_eq, sm]; exact onTape
  have may' : mayRewrite t v.slot v.idx = true := by
    rw [← may]; unfold mayRewrite frameAt slotAt; rw [sm, wr]; rfl
  rw [queue]
  simp only [handOver, sound, may', queueRewrite_eq onTape', queueRewrite_eq onTape]
  simp [slotAt_eq, frameAt_eq, sm, wr, State.handing]

theorem sent_count {frames : List FrameEntry} {i n : Nat} {st : FrameState}
    (few : (frames.getD i { st := .unwritten, count := 0 }).count + 1 < n) :
    ((frames.set i { st := st, count := (frames.getD i { st := .unwritten, count := 0 }).count + 1 }).getD i { st := .unwritten, count := 0 }).count < n := by
  by_cases within : i < frames.length
  · simpa [List.getD, within] using few
  · simp [List.getD, Nat.le_of_not_lt within]; omega

/-- In a write stream the loops and detectors of a scan set the reels' state alone (R27 to R34). -/
theorem scanLoops_stream {x : ScanSample} {t : State} (active : t.ch.transport = .active) (mode : t.mo.mode = some .writeStream)
    (brake : t.re.brake = false) (tape : t.ch.tape = true) (step : t.ch.step = none) (legs : t.mo.legs = []) (undistanced : t.he.cleanDist = none) (noted_ : noted t = true) :
    ∃ reels, scanLoops x t = { t with re := reels } := by
  refine ⟨(scanLoops x t).re, ?_⟩
  simp [scanLoops, noteTarget_noted noted_, loopsRun, active, mode, brake, step, loopOf, pulling, countHold, countSettle, detect, loopStep, stageTake,
    stageSupply, countStall_eq, countExcursion_active, stepSpeed, checkStop, legs, checkCleanRewind, undistanced]

/-- A stop that begins touches the speed under way and, in a move at locate speed, the mode (R45). -/
theorem checkStop_frame {s : State} (mode : s.mo.mode ≠ some .locate) :
    ∃ dest stopping into, checkStop s = { s with mo.dest := dest, mo.stopping := stopping, mo.into := into } := by
  unfold checkStop
  split
  next =>
    dsimp only
    split
    next => exact ⟨0, true, none, by simp⟩
    next => exact ⟨_, _, _, rfl⟩
  next => exact ⟨_, _, _, rfl⟩

/-- A turn runs to the standing point of the next pass's region start (R51). -/
def turnLeg (s : State) : Leg := {
  mode := .turn, pass := none, target := some (standing { pass := s.mo.pass + 1, count := regionStart (s.mo.pass + 1) }).count,
  speed := bandSpeed s.mo.band }

theorem beginTurn_frame (g : Goal) {s : State} (active : s.ch.transport = .active) :
    ∃ dest stopping into dir, beginTurn g s = { s with
      mo.mode := some .turn, mo.goal := g, mo.legs := [turnLeg s], mo.named := s.mo.pass, mo.bandTo := none, mo.passWait := false,
      mo.stands := none, rd.start := none, mo.dest := dest, mo.stopping := stopping, mo.into := into, mo.dir := dir } := by
  obtain ⟨dest, stopping, into, stop⟩ := checkStop_frame (s := { s with
    mo.mode := some .turn, mo.goal := g, mo.legs := [turnLeg s], mo.named := s.mo.pass, mo.bandTo := none, mo.passWait := false,
    mo.stands := none, rd.start := none, mo.dest := bandSpeed s.mo.band, mo.stopping := false, mo.into := none,
    mo.dir := if (standing { pass := s.mo.pass + 1, count := regionStart (s.mo.pass + 1) }).count < s.mo.count then .reverse
      else if s.mo.count < (standing { pass := s.mo.pass + 1, count := regionStart (s.mo.pass + 1) }).count then .forward else s.mo.dir }) (by simp)
  refine ⟨dest, stopping, into, _, .trans ?_ stop⟩
  simp only [turnLeg]
  simp [beginTurn, motionStart, beginLegs, active]
  rfl

/-- The machine at the return of a recovery with nothing pending: the marker is to be written clear, and the stack is empty (R59, R62). -/
def popped (l : Layout) (s : State) : State := { s with
  bp.reqs := [partWrite l.ctxBase [0] .plain], bp.starve := 0, mo.stack := [], mo.mask := false, mo.wait := .none, mo.pend := [],
  mo.savedLegs := [], mo.savedGoal := .none, mo.redirect := false, mo.skipResume := false }

/-- The grant that reads the context of END_APPROACH back goes on to R64 (R62, R64). -/
theorem memoryPortGrant_endApproach {l : Layout} {x : Context} {s : State} (bound : s.bp.layout = some l) (wait : s.mo.wait = .pop)
    (single : s.mo.stack.length = 1) (redirect : s.mo.redirect = false) (pend : s.mo.pend = [])
    (reqs : s.bp.reqs = [readOf l.ctxBase 64 (.contextPop 1)]) (aligned : l.ctxBase % 64 = 0)
    (bytes : contextOf s.sm.slots.length (memReadBytes s.mem l.ctxBase 64) = some x) (cause : x.cause = .endApproach) (op : x.op = .write) :
    exec .memoryPortGrant s = .next (settle (resumeEndApproach x (popped l s))) := by
  rw [memoryPortGrant_pop reqs aligned]
  simp [contextPopped, wait, single, bytes, bound, issueWrite_internal, pend, resumeOperation, redirect, op, cause, popped]

/-- END_APPROACH returns with a turn in a write below pass 47 (R64). -/
theorem settle_turnWrite {x : Context} {s t : State} (op : x.op = .write) (lower : s.mo.pass < 47) (given : abandonForTurn s = t)
    (session : t.ri.session = .opened) (active : t.ch.transport = .active) (calm : Calm t) :
    ∃ dest stopping into dir, settle (resumeEndApproach x s) = noteTarget { t with
      mo.mode := some .turn, mo.goal := .turnWrite, mo.legs := [turnLeg t], mo.named := t.mo.pass, mo.bandTo := none, mo.passWait := false,
      mo.stands := none, rd.start := none, mo.dest := dest, mo.stopping := stopping, mo.into := into, mo.dir := dir, wr.turnWait := false } := by
  obtain ⟨dest, stopping, into, dir, turn⟩ := beginTurn_frame .turnWrite (s := { t with mo.mode := some .turn, wr.turnWait := false }) active
  have resumed : resumeEndApproach x s = beginTurn .turnWrite { t with mo.mode := some .turn, wr.turnWait := false } := by
    simp [resumeEndApproach, op, lower, given, session]
  refine ⟨dest, stopping, into, dir, ?_⟩
  exact (congrArg settle (resumed.trans turn)).trans (Calm.settle_eq (calm.congr rfl rfl rfl rfl calm.awake (by simp)))

/-- END_APPROACH abandons the one placement on tape, the first, with no frame that awaits its result (R64, R117). -/
theorem abandonForTurn_one {s : State} {k : Nat} (one : slotsOf isOnTape s.sm.slots = [k]) (onTape : (slotAt s k).st = .onTape)
    (placement : (slotAt s k).placement = 1) (queue : s.wr.verifyQ = []) (unmon : unmonitored .segmentSkip s = true) :
    abandonForTurn s = { s with
      sm.slots := s.sm.slots.set k { freshSlot .onTape (slotAt s k).seg with placement := 2 },
      wr.rewriteQ := s.wr.rewriteQ.filter (fun q => decide (q.1 ≠ k)), wr.heldF0 := none, mo.bandTo := none, wr.turnWait := false,
      wr.skipStart := none, wr.abandon := none, he.tally := tallyEvent .segmentSkip s.he.tally } := by
  rw [slotAt_eq] at onTape placement
  have counted (t : State) (he : t.he = s.he) : event .segmentSkip t = { t with he.tally := tallyEvent .segmentSkip s.he.tally } := by
    rw [event_unmonitored (by rw [unmonitored_eq, he, ← unmonitored_eq]; exact unmon) (by decide), he]
  have others (q : Nat × Nat) : (!decide (k = q.1)) = !decide (q.1 = k) := congrArg (! ·) (decide_eq_decide.mpr eq_comm)
  simp [abandonForTurn, slotsIn_eq, one, secondAlready, skipSlots, placement, slotAt_eq, secondPlacement, voidFrames, queue, onTape, setSlot,
    Abandonment.has, counted, freshSlot, others]
/-- Settles O27: the entries in a move and in a stream, the parts of a procedure, and the returns. -/
theorem recoveryEntered : Obligations.RecoveryEntered := by
  refine ⟨?_, ?_, ?_, ?_⟩
  · intro l x legs g s bound active recal undistanced calm begun unlocked inMove moved
    obtain ⟨⟨deferred, session, intake, watch, held, flush, close⟩, noted_⟩ := (quiet_iff s).mp calm
    obtain ⟨tstar, activityAt⟩ := (noted_iff s).mp noted_
    refine ⟨?_, ?_, ?_, ?_, ?_, ?_⟩
    · rintro ⟨locked, quality, mask, stack, pend, wait, mode, legs_, ne, goal, scan, verify, pass⟩ entry unmon
      rw [unmonitored_eq] at unmon
      have fifth : ¬4 < s.mo.entry + 1 := by omega
      simp [begun, unlocked, moved, exec, execLossOfLock, locked, quality, active, mode, undistanced, raiseFault, recal, wait, mask, pend, enterRecovery, highest, fifth, contextNow,
        operationNow, passInUse, pass, legs_, ne, goal, slotNow, phaseNow, scan, writerEntry, sessionOpen, session, verify, pushContext, bound, stack, issueWrite_internal (contextBytes_ne_nil _), causeEvent, 
        startProcedure, startPlan, enterActive, motionStart, beginLegs, stopLeg, noteTarget_eq, tStar, activity, readMotion, AtEase.settle_eq, atEase_iff, deferred, intake, watch, held, flush, close, event_unmonitored, unmonitored_eq, unmon]
    · rintro ⟨locked, quality, mask, stack, pend, wait, mode, legs_, ne, goal, scan, verify, pass⟩ entry moving
      have still (t : State) (v : t.mo.v = s.mo.v) (w : t.re.window = s.re.window) : atRest t = false := by
        rw [← moving]; unfold atRest stands windowDistance; rw [v, w]
      simp [begun, unlocked, exec, execLossOfLock, locked, quality, active, mode, undistanced, raiseFault, recal, wait, mask, pend, enterRecovery, highest, entry, 
        stallInvolved, failRecovery, still, stack, 
        startPlan, enterActive, motionStart, beginLegs, stopLeg, noteTarget_eq, tStar, activity, readMotion, sessionOpen, session, AtEase.settle_eq, atEase_iff, deferred, intake, watch, held, flush, close]
    · intro due mask wait stack cause entry unmon
      rw [unmonitored_eq] at unmon
      have fifth : ¬4 < s.mo.entry + 1 := by omega
      simp [begun, exec, execTensionExcursion, due, active, raiseFault, recal, wait, mask, stack, cause, Cause.code, fifth, pushContext, bound, issueWrite_internal (contextBytes_ne_nil _), causeEvent, tallyEvent,
        event_unmonitored, unmonitored_eq, unmon, startProcedure, startPlan, enterActive, motionStart, beginLegs, stopLeg, noteTarget_eq, tStar, activity, readMotion, sessionOpen, session, AtEase.settle_eq, atEase_iff, deferred, intake, watch, held, flush, close]
    · intro stopping rest mode legs_ goal stack cause
      simp [exec, execMoveArrived, arrive, stopping, rest, active, legs_, stopLeg, goal, reachGoal, procedureStopped, topContext, stack, cause, mode, noteTarget_eq, tStar, activity,
        AtEase.settle_eq, atEase_iff, deferred, session, intake, watch, held, flush, close, Config.tHold]
    · intro settled wait mode stack op phase v stands_ pass even before_ far
      have ahead_ : ¬x.pos.count - 1536 < s.mo.count := by omega
      have apart_ : ¬x.pos.count - 1536 - s.mo.count = 0 := by omega
      have even_ : evenPass x.pos.pass = true := by simp [evenPass, even]
      have rest (t : State) (same : t.mo.v = s.mo.v) (w : t.re.window = s.re.window) : atRest t = true := by
        rw [stands, windowDistance] at stands_
        unfold atRest stands windowDistance; rw [same, w, stands_, v]; rfl
      simp [exec, execTensionSettled, tensionSettled, settled, tstar, active, wait, procedureReturns, stack, op, resumePoint, phase, standing, back, even_, startPlan, enterActive, motionStart, 
        beginLegs, stopLeg, moveLeg, rest, pass, ahead_, apart_, before_, checkStop, remaining, v, mode, noteTarget_eq, tStar, activityAt]
    · intro wait stack mask mode redirect reqs aligned bytes pass count band pend goal legs_ v stands_ far
      have rest (t : State) (same : t.mo.v = s.mo.v) (w : t.re.window = s.re.window) : atRest t = true := by
        rw [stands, windowDistance] at stands_
        unfold atRest stands windowDistance; rw [same, w, stands_, v]; rfl
      have back_ : 18464 < s.mo.count := by omega
      have apart_ : ¬s.mo.count - 18464 = 0 := by omega
      rw [memoryPortGrant_pop reqs aligned, bytes]
      simp [contextPopped, wait, stack, moved, contextOf_move, pass, count, band, bound, issueWrite_internal, pend, resumeOperation, redirect, goal, legs_, startPlan, enterActive, motionStart,
        active, beginLegs, back_, apart_, checkStop, remaining, v, noteTarget_eq, tStar, activity, AtEase.settle_eq, atEase_iff, deferred, session, intake, watch, held, flush, close]
  · intro l v k i y s bound active mode session recal undistanced calm mask stack pend wait entry abandon passWait goal entered mayAgain
    obtain ⟨ease, noted_⟩ := (calm_iff s).mp calm
    refine ⟨?_, ?_, ?_⟩
    · rintro due queue sound onTape ⟨again, rewrites⟩ room unmon
      have silent (t : State) (he : t.he = s.he) : causeEvent .reelStall t = t := by
        have unmon' : unmonitored .reelStall t = true := by rw [← unmon, unmonitored_eq, he, unmonitored_eq]
        simp [causeEvent, event_unmonitored unmon', tallyEvent]
      have may : mayRewrite s v.slot v.idx = true := by simpa [mayRewrite, room, and_assoc] using And.intro again rewrites
      obtain ⟨next, done⟩ := raiseFault_stream (s := { s with re.stallDue := false }) bound active mode session recal
        (ease.congr rfl rfl rfl rfl ease.awake ease.elsewhere) mask stack pend wait entry abandon passWait goal silent
        (fun t sm wr => handOver_one queue sound onTape may sm wr)
      refine ⟨_, .trans ?_ (congrArg Host.Outcome.next done), ?_⟩
      · simp [exec, execReelStall, due, active]
      · simp [noteTarget_eq, streamRecovery, streamContext, entered, queueRewrite_eq (s := { s with re.stallDue := false }) onTape]
        rfl
    · rintro due pendingEnd countBusy queue heldF0 rewriteQ later onTape slip ⟨again, rewrites⟩ unmon between
      have sent := frameSlot_rewrite pendingEnd countBusy session queue heldF0 rewriteQ later onTape unmon between
      have silent (t : State) (_ : t.he = (frameSlot s).he) : causeEvent .frameSlip t = t := rfl
      have unsent : s.wr.tx.isNone = true := by
        simp only [slotDue, Bool.and_eq_true] at due
        exact due.1.2
      have used : (slotOf s.sm.slots k).st = .onTape := onTape
      have handed (t : State) (sm : t.sm = (frameSlot s).sm) (wr : t.wr = (frameSlot s).handing.wr) :=
        handOver_one (s := frameSlot s) (v := rewritten k i s) (by rw [sent]) rfl (by simp [sent, slotAt_eq, rewritten, slotOf_set, used])
          (by
            simp only [mayRewrite, slotAt_eq, frameAt_eq, sent, rewritten, slotOf_set, used, ne_eq, reduceCtorEq, not_false_eq_true, List.length_nil,
              Bool.and_eq_true, decide_eq_true_eq, Nat.ofNat_pos, and_true]
            exact ⟨sent_count again, rewrites⟩) sm wr
      obtain ⟨next, done⟩ := raiseFault_stream (s := frameSlot s) (by rw [sent]; exact bound) (by rw [sent]; exact active) (by rw [sent])
        (by rw [sent]; exact session) (by rw [sent]; exact recal)
        (by rw [sent]; exact ease.congr rfl rfl rfl rfl ease.awake (by simp)) (by rw [sent]; exact mask) (by rw [sent]; exact stack)
        (by rw [sent]; exact pend) (by rw [sent]; exact wait) (by rw [sent]; exact entry)
        (by rw [sent]; exact abandon) (by rw [sent]; exact passWait) (by rw [sent]; exact goal) silent handed
      refine ⟨_, .trans ?_ (congrArg Host.Outcome.next done), ?_⟩
      · have slips : slipped s (frameSlot s) = true := by simp [slipped, sent, unsent, slip]
        simp [exec, execFrameSlot, due, slips]
      · simp [noteTarget_eq, streamRecovery, streamContext, entered, sent, rewritten, satAdd32]
    · intro due brake tape step quality legs queue warned servoPass beyond
      obtain ⟨tstar, activityAt⟩ := (noted_iff s).mp noted_
      have reads : scanReads y s = { s with
          re := { s.re with scanDue := false, window := (newWindow y s).2, input := y.movement }, ch.arm := y.arm, mo.count := y.servoCount,
          mo.quarter := 0, mo.meter := (scanReads y s).mo.meter } := by
        simp [scanReads, trackMovement, carryMovement, trackPosition, quality, mode, servoPass, tape, undistanced, newWindow]
        rw [← undistanced]
      have tstar' : s.re.tstar = Config.tStream := by simpa [tStar, active, mode] using tstar
      obtain ⟨reels, loops⟩ := scanLoops_stream (x := y) (t := scanReads y s) (by rw [reads]; exact active) (by rw [reads]; exact mode)
        (by rw [reads]; exact brake) (by rw [reads]; exact tape) (by rw [reads]; exact step) (by rw [reads]; exact legs)
        (by rw [reads]; exact undistanced) (by rw [reads]; simp [noted_iff, tStar, active, mode, tstar', activityAt])
      generalize (scanReads y s).mo.meter = meter at reads
      generalize read : scanLoops y (scanReads y s) = u at loops
      rw [reads] at loops
      obtain ⟨next, done⟩ := raiseFault_stream (c := .endApproach) (s := u) (by rw [loops]; exact bound) (by rw [loops]; exact active)
        (by rw [loops]; exact mode) (by rw [loops]; exact session) (by rw [loops]; exact recal)
        (by rw [loops]; exact ease.congr rfl rfl rfl rfl ease.awake ease.elsewhere) (by rw [loops]; exact mask) (by rw [loops]; exact stack)
        (by rw [loops]; exact pend) (by rw [loops]; exact wait) (by rw [loops]; exact entry)
        (by rw [loops]; exact abandon) (by rw [loops]; exact passWait) (by rw [loops]; exact goal) (fun _ _ => rfl)
        (fun _ sm wr => handOver_none (by rw [loops]; exact queue) sm wr)
      refine ⟨_, .trans ?_ (congrArg Host.Outcome.next done), ?_⟩
      · have past : beyondEnd u = true := by rw [beyondEnd, loops]; exact beyond
        have still : watchSearch y (scanReads y s) = scanReads y s := by simp [watchSearch, reads, recal]
        have raised : watchPosition (passReached u) = raiseFault .endApproach u := by
          have active' : u.ch.transport = .active := by rw [loops]; exact active
          have mode' : u.mo.mode = some .writeStream := by rw [loops]; exact mode
          have passWait' : u.mo.passWait = false := by rw [loops]; exact passWait
          have quality' : u.mo.quality = .locked := by rw [loops]; exact quality
          have warned' : u.mo.warned = true := by rw [loops]; exact warned
          simp [passReached, passWait', watchPosition, active', streaming, mode', quality', earlyWarning, warned', past]
        have active' : (settle (raiseFault .endApproach u)).ch.transport = .active := by
          rw [done, loops]; simp [noteTarget_eq, streamRecovery, active]
        simp [exec, execScanComplete, due, scanDone, still, read, raised, watchBot, active']
      · simp [noteTarget_eq, streamRecovery, streamContext, entered, loops]
  · intro x s active recal calm stopping rest mode legs goal stack p
    obtain ⟨ease, noted_⟩ := (calm_iff s).mp calm
    obtain ⟨deferred, held, flush, close, fetch, awake, elsewhere⟩ := (calmAll_iff s).mp ease
    obtain ⟨tstar, activityAt⟩ := (noted_iff s).mp noted_
    refine ⟨?_, ?_⟩
    · intro cause
      simp [exec, execMoveArrived, arrive, stopping, rest, active, legs, stopLeg, goal, reachGoal, procedureStopped, topContext, stack, cause, mode, noteTarget_eq, tStar, activity,
        Calm.settle_eq, calmAll_iff, deferred, held, flush, close, fetch, Config.tPark]
    · intro cause op skip pass reverse
      have still (t : State) (v : t.mo.v = s.mo.v) (w : t.re.window = s.re.window) : atRest t = true := by
        rw [← rest]; unfold atRest stands windowDistance; rw [v, w]
      have v : s.mo.v = 0 := by simp [atRest] at rest; exact rest.1
      have stand : standing { pass := x.pos.pass, count := ahead x.pos.pass x.pos.count Config.pitch } =
          { pass := x.pos.pass, count := p.count } := rfl
      have apart_ : ¬s.mo.count - p.count = 0 := by omega
      rcases cause with cause | cause <;>
        simp [exec, execMoveArrived, arrive, stopping, rest, active, legs, stopLeg, goal, reachGoal, procedureStopped, topContext, stack, cause,
          mode, procedureReturns, op, startPlan, enterActive, motionStart, beginLegs, still, moveLeg, resumePoint, skip, stand, pass, reverse,
          checkStop, remaining, v, apart_, Calm.settle_eq, calmAll_iff, deferred, held, flush, close, fetch, noteTarget_eq, tStar, activityAt]
  · intro l x k s bound active recal calm wait single mask mode redirect pend reqs aligned bytes cause op session filling returned turns
    obtain ⟨ease, noted_⟩ := (calm_iff s).mp calm
    obtain ⟨deferred, held, flush, close, fetch, awake, elsewhere⟩ := (calmAll_iff s).mp ease
    refine ⟨?_, ?_, ?_⟩
    · intro lower none_
      rw [slotsIn_eq] at none_
      refine ⟨_, memoryPortGrant_endApproach bound wait single redirect pend reqs aligned bytes cause op, ?_⟩
      obtain ⟨dest, stopping, into, dir, done⟩ := settle_turnWrite (t := popped l s) (s := popped l s) op lower
        (by simp [abandonForTurn, slotsIn_eq, none_, popped]) session active (ease.congr rfl rfl rfl rfl awake elsewhere)
      rw [done]
      simp [turns, returned, noteTarget_eq, popped, active, session, turnLeg]
    · intro lower one onTape placement queue unmon
      rw [slotsIn_eq] at one
      refine ⟨_, memoryPortGrant_endApproach bound wait single redirect pend reqs aligned bytes cause op, ?_⟩
      obtain ⟨dest, stopping, into, dir, done⟩ := settle_turnWrite (s := popped l s) op lower
        (abandonForTurn_one (s := popped l s) one onTape placement queue unmon) session active (ease.congr rfl rfl rfl rfl awake elsewhere)
      rw [done]
      simp [turns, returned, noteTarget_eq, popped, active, session, turnLeg, tallyEvent, satAdd32, slotAt_eq]
    · intro last one onTape open_
      rw [slotsIn_eq] at one
      rw [slotAt_eq] at onTape
      obtain ⟨room, none_⟩ := (cqOpen_iff s).mp open_
      refine ⟨_, memoryPortGrant_endApproach bound wait single redirect pend reqs aligned bytes cause op, ?_⟩
      simp [resumeEndApproach, op, popped, last, sessionError, session, stopIntake, stopWatch, sealSlot, filling, freeEmptyFilling, postSessionError, noteStatus, dropWriter, slotsIn_eq, one,
        forgetAll, postAt, room, none_, allBackToSealed, backToSealed, toReady, setTransport, leaveActive, endRecovery, emptyStack, holdIdle_frame, noteTarget_eq, active, Calm.settle_eq, calmAll_iff, deferred, held, flush, close, fetchDueOf, fetchDue, returned, setSlot, slotAt_eq, onTape, freshSlot]
      rfl

end Sys2Proof.Machine
end

section
/-! SUPPORT. Proofs about the buffer path (Chapter 4). -/

namespace Sys2Proof.Machine

/-! ### The front port -/

/-- A write that no block watches is forwarded, and nothing else (R68, R69). -/
theorem takeWrite_unwatched {w : FrontWrite} {s : State} (unwatched : unwatchedWrite w s = true) : takeWrite w s = forwardWrite w s := by
  simp only [unwatchedWrite, Bool.and_eq_true, List.all_eq_true, Bool.not_eq_true'] at unwatched
  obtain ⟨unbound, apart_⟩ := unwatched
  have word : ((List.range 8).any fun i => w.enables (248 + i)) = false := by
    rw [List.any_eq_false]; exact fun i hi => by simp [unbound i hi]
  cases bound : s.bp.layout with
  | none => simp [takeWrite, stagingVerdict, bound, recognise, word, forwardWrite]
  | some l =>
    simp only [bound, Bool.and_eq_true, Bool.not_eq_true'] at apart_
    obtain ⟨unstaged, unsequenced⟩ := apart_
    simp only [takeWrite, stagingVerdict, bound, unstaged, Bool.false_eq_true, if_false, recognise, word, forwardWrite]
    split
    next inside => rw [if_pos inside] at unsequenced; simp_all
    next outside => rw [if_neg outside] at unsequenced; simp_all

theorem frontWrite_taken {m : Master} {a : Nat} {bs : List (Option Byte)} {s : State} (wf : requestWf a bs.length = true)
    (held : s.bp.held = none) : frontWrite m a bs s = .next (settle (takeWrite { master := m, addr := a, data := bs } s)) := by
  simp [frontWrite, requestFault_of_wf wf, held]

theorem frontWrite_waits {m : Master} {a : Nat} {bs : List (Option Byte)} {s : State} (wf : requestWf a bs.length = true)
    (held : s.bp.held.isSome = true) :
    frontWrite m a bs s = .next { s with bp.behind := s.bp.behind ++ [{ master := m, addr := a, data := bs }] } := by
  simp [frontWrite, requestFault_of_wf wf, held]

/-- A calm step that changes no more of the buffer path than its queues and its binding leaves nothing to settle. -/
theorem settle_forwarded {s t : State} (still : calm s = true) (held : s.bp.held = none) (same : t = { s with bp := t.bp })
    (bp : (t.bp.held, t.bp.watch, t.bp.rl, t.bp.release, t.bp.layout) = (s.bp.held, s.bp.watch, s.bp.rl, s.bp.release, s.bp.layout)) :
    settle t = t := by
  simp only [Prod.mk.injEq] at bp
  obtain ⟨held', watch, rl, release, layout⟩ := bp
  rw [same]
  exact settle_of_agrees still (held'.trans held) watch rl release layout rfl rfl rfl rfl rfl rfl rfl

/-- Settles O30: an access at the front port, by whether a held write is before it and whether a block watches it. -/
theorem frontPortForwards : Obligations.FrontPortForwards := by
  refine ⟨fun m a n bs s => ?_, fun m a i bs s wf within enabled held unwatched still => ?_⟩
  · intro w writes read
    have each (c : Instr) (hc : c ∈ writes) : exec c s = frontWrite m a bs s := by
      simp only [writes, List.mem_cons, List.not_mem_nil, or_false] at hc
      rcases hc with rfl | rfl | rfl | rfl | rfl <;> rfl
    refine ⟨?_, ?_, ?_⟩
    · intro wf held unwatched still c hc
      rw [each c hc, frontWrite_taken wf held, takeWrite_unwatched unwatched, settle_forwarded (t := forwardWrite w s) still held rfl rfl]
      rfl
    · intro wf held c hc
      rw [each c hc, frontWrite_waits wf held]
    · intro wf unwatched c hc
      have each (c : Instr) (hc : c ∈ [Instr.frontPortRead m a n, .deliveryTailRead m a n]) : exec c s = frontRead m a n s := by
        simp only [List.mem_cons, List.not_mem_nil, or_false] at hc
        rcases hc with rfl | rfl <;> rfl
      have some_ : n ≠ 0 := by rintro rfl; simp [requestWf] at wf
      rw [each c hc]
      simp only [frontRead, requestFault_of_wf wf, issueRead, some_, if_false]
      unfold unwatchedRead at unwatched
      cases bound : s.bp.layout <;> simp_all [read]
  · have word : ((List.range 8).any fun i => ({ master := m, addr := a, data := bs } : FrontWrite).enables (248 + i)) = true :=
      List.any_eq_true.mpr ⟨i, List.mem_range.mpr within, enabled⟩
    have unstaged : stagingVerdict { master := m, addr := a, data := bs } s = none := by
      simp only [stagingVerdict, unwatched]; split <;> rfl
    have taken : exec (.bindingWordWrite m a bs) s =
        .next (settle (bindingWord (forwardWrite { master := m, addr := a, data := bs } s))) := by
      refine (frontWrite_taken wf held).trans ?_
      simp only [takeWrite, unstaged, recognise, word, if_true]
    refine ⟨fun binding => ?_, fun binding => ?_⟩
    · rw [taken, settle_forwarded still held] <;> simp [bindingWord, forwardWrite, binding, issueRead, writeOf, readOf]
    · rw [taken, settle_forwarded still held] <;> simp [bindingWord, forwardWrite, binding, writeOf]

/-! ### The staging watch -/

theorem ringDist_ahead {z f k : Nat} (some_ : 0 < z) (within : k < z) : ringDist z f ((f + k) % z) = k := by
  unfold ringDist
  rw [if_neg (by omega)]
  have small := Nat.mod_lt f some_
  have split_ := Nat.add_mod f k z
  rw [Nat.mod_eq_of_lt within] at split_
  rw [split_]
  by_cases wraps : f % z + k < z
  · rw [Nat.mod_eq_of_lt wraps, show f % z + k + z - f % z = k + z by omega, Nat.add_mod_right, Nat.mod_eq_of_lt within]
  · have back_ : (f % z + k) % z = f % z + k - z := by rw [Nat.mod_eq_sub_mod (by omega), Nat.mod_eq_of_lt (by omega)]
    rw [back_, show f % z + k - z + z - f % z = k by omega, Nat.mod_eq_of_lt within]

/-- A place `k` round the ring from `f` is met where `f` advances by `k`. -/
theorem ringDist_past {z f k c : Nat} (within : f < z) (short : k < z) (dist : ringDist z f c = k) : ringDist z ((f + k) % z) c = 0 := by
  unfold ringDist at *
  rw [if_neg (by omega), Nat.mod_eq_of_lt within] at dist
  rw [if_neg (by omega), Nat.mod_mod]
  have whole := Nat.div_add_mod (c + z - f) z
  rw [dist] at whole
  by_cases wraps : f + k < z
  · rw [Nat.mod_eq_of_lt wraps, show c + z - (f + k) = z * ((c + z - f) / z) by omega, Nat.mul_mod_right]
  · have back_ : (f + k) % z = f + k - z := by rw [Nat.mod_eq_sub_mod (by omega), Nat.mod_eq_of_lt (by omega)]
    rw [back_, show c + z - (f + k - z) = z * ((c + z - f) / z) + z by omega, Nat.add_mod_right, Nat.mul_mod_right]

/-- The bytes taken in flight, one by one (R90). -/
theorem inFlight_eq (s : State) (a : Nat) (bs : List (Option Byte)) :
    inFlight s a bs = (List.range bs.length).map (fun i => (bs.getD i none).getD (throughByte s.mem s.bp.reqs (a + i))) := by
  induction bs generalizing a with
  | nil => rfl
  | cons b bs ih =>
    rw [List.length_cons, List.range_succ_eq_map, List.map_cons, List.map_map]
    have rest : inFlight s (a + 1) bs = (List.range bs.length).map
        ((fun i => ((b :: bs).getD i none).getD (throughByte s.mem s.bp.reqs (a + i))) ∘ Nat.succ) := by
      rw [ih]
      refine List.map_congr_left fun i _ => ?_
      simp [Nat.add_assoc, Nat.add_comm 1 i]
    cases b <;> simp [inFlight, rest]

/-- A write that stays held leaves nothing to settle (R78). -/
theorem settle_held {s : State} {w : FrontWrite} (deferred : s.ci.deferred = []) (flush : s.wr.flush = none) (close : s.wr.close = false)
    (fetch : fetchDue s = false) (awake : s.ch.transport ≠ .parked) (elsewhere : ¬(s.ch.transport = .active ∧ s.mo.mode = some .waitData))
    (held : s.bp.held = some w) (verdict : stagingVerdict w s = some .hold) : settle s = noteTarget s := by
  have stays : rejudgeHeld s = s := by simp only [rejudgeHeld, held, verdict, if_true]
  simp only [settle, judgeDeferred_none deferred, checkFlush_none flush, checkClose_off close, stays, startFetch_off fetch,
    checkExhaustion_awake awake, checkRestart_elsewhere elsewhere]

theorem offerData_awake {s : State} (awake : s.ch.transport ≠ .parked) : offerData s = s := by
  simp [offerData, awake]

/-- The watch's verdict on a write inside the ring (R76, R77). -/
theorem stagingVerdict_eq {w : FrontWrite} {l : Layout} {s : State} (bound : s.bp.layout = some l) (watch : s.bp.watch = true)
    (inside : insideRegion l.stBase l.z w.addr = true) : stagingVerdict w s = some (judgeStaging l.z s (w.addr - l.stBase) w.data.length) := by
  simp [stagingVerdict, bound, watch, inside]

/-- Nothing is available at a cursor that stands at the frontier (R89). -/
theorem available_frontier {l : Layout} {s : State} (bound : s.bp.layout = some l) (room : s.bp.rl < l.z)
    (cursor : s.ri.cursor = (s.bp.release + s.bp.rl) % l.z) : available s = 0 := by
  have some_ : 0 < l.z := by omega
  simp [available, ringZ, bound, cursor, ringDist_ahead some_ room]

/-- The frontier advances over the run of a write that intake does not take (R76). -/
theorem advanceFrontier_apart {z : Nat} {bs : List Byte} {s : State} (awake : s.ch.transport ≠ .parked)
    (apart_ : takesBytes s = false ∨ 0 < available s) :
    advanceFrontier z bs s = { s with
      bp.rl := min z (s.bp.rl + (absorb bs.length (s.bp.spans.map (spanFrom z (frontier s)))).1),
      bp.spans := toSpans z (frontier s) (absorb bs.length (s.bp.spans.map (spanFrom z (frontier s)))).2 } := by
  have off : (decide (available s = 0) && takesBytes s) = false := by
    rcases apart_ with none_ | some_
    · simp [none_]
    · simp [show available s ≠ 0 by omega]
  simp only [advanceFrontier, off, Bool.false_eq_true, if_false]
  exact offerData_awake awake

/-- The frontier advances by a run that begins at the cursor, with no span ahead (R76, R90). -/
theorem advanceFrontier_cursor {z : Nat} {bs : List Byte} {s : State} (awake : s.ch.transport ≠ .parked) (takes : takesBytes s = true)
    (none_ : available s = 0) (spans : s.bp.spans = []) (room : s.bp.rl + bs.length < z) :
    advanceFrontier z bs s = consume (bs.length + 1) bs { s with bp.rl := s.bp.rl + bs.length } := by
  have full : min z (s.bp.rl + bs.length) = s.bp.rl + bs.length := by omega
  simp only [advanceFrontier, none_, takes, decide_true, Bool.and_self, if_true, spans, List.map_nil, absorb, full, toSpans]
  rw [offerData_awake (by exact awake), ← spans]

theorem consume_nil (fuel : Nat) (s : State) : consume fuel [] s = s := by cases fuel <;> rfl

/-- Header bytes short of a header are kept (R90). -/
theorem consume_header {bs : List Byte} {s : State} (some_ : bs ≠ []) (header : s.ri.st = .header) (padOwed : s.ri.padOwed = 0)
    (short : s.ri.hdr.length + bs.length < 16) :
    consume (bs.length + 1) bs s = advanceCursor bs.length { s with ri.hdr := s.ri.hdr ++ bs } := by
  have taken : min (16 - s.ri.hdr.length) bs.length = bs.length := by omega
  have more : s.ri.hdr.length + bs.length ≠ 16 := by omega
  simp [consume, some_, header, padOwed, taken, consume_nil, advanceCursor, ringZ, more]
  rfl

/-- Chunk bytes short of a chunk are kept (R90). -/
theorem consume_data {bs : List Byte} {c : RecordInProgress} {s : State} (some_ : bs ≠ []) (data : s.ri.st = .data) (cur : s.ri.cur = some c)
    (short : s.ri.raw.length + bs.length < chunkLen c) :
    consume (bs.length + 1) bs s = advanceCursor bs.length { s with ri.raw := s.ri.raw ++ bs } := by
  have taken : min (chunkLen c - s.ri.raw.length) bs.length = bs.length := by omega
  have more : s.ri.raw.length + bs.length ≠ chunkLen c := by omega
  simp [consume, some_, data, cur, taken, consume_nil, advanceCursor, ringZ, more]
  rfl

/-- A run that begins at the cursor and leaves the header short (R76, R90). -/
theorem advanceFrontier_header {l : Layout} {bs : List Byte} {s : State} (bound : s.bp.layout = some l) (awake : s.ch.transport ≠ .parked)
    (some_ : bs ≠ []) (header : s.ri.st = .header) (padOwed : s.ri.padOwed = 0) (none_ : available s = 0) (spans : s.bp.spans = [])
    (room : s.bp.rl + bs.length < l.z) (short : s.ri.hdr.length + bs.length < 16) :
    advanceFrontier l.z bs s = { s with
      bp.rl := s.bp.rl + bs.length, ri.cursor := (s.ri.cursor + bs.length) % l.z, ri.hdr := s.ri.hdr ++ bs } := by
  rw [advanceFrontier_cursor awake (by simp [takesBytes, header]) none_ spans room,
    consume_header (s := { s with bp.rl := s.bp.rl + bs.length }) some_ header padOwed short]
  simp [advanceCursor, ringZ, bound, show l.z ≠ 0 by omega]

/-- A run that begins at the cursor and leaves the chunk short (R76, R90). -/
theorem advanceFrontier_data {l : Layout} {bs : List Byte} {c : RecordInProgress} {s : State} (bound : s.bp.layout = some l)
    (awake : s.ch.transport ≠ .parked) (some_ : bs ≠ []) (data : s.ri.st = .data) (cur : s.ri.cur = some c) (none_ : available s = 0)
    (spans : s.bp.spans = []) (room : s.bp.rl + bs.length < l.z) (short : s.ri.raw.length + bs.length < chunkLen c) :
    advanceFrontier l.z bs s = { s with
      bp.rl := s.bp.rl + bs.length, ri.cursor := (s.ri.cursor + bs.length) % l.z, ri.raw := s.ri.raw ++ bs } := by
  rw [advanceFrontier_cursor awake (by simp [takesBytes, data]) none_ spans room,
    consume_data (s := { s with bp.rl := s.bp.rl + bs.length }) some_ data cur short]
  simp [advanceCursor, ringZ, bound, show l.z ≠ 0 by omega]

/-- The verdict of the watch by the distance of the write from the frontier (R76, R77). -/
theorem judgeStaging_eq (z : Nat) (s : State) (o n : Nat) : judgeStaging z s o n =
    let d := ringDist z (frontier s) o
    let runs := s.bp.spans.map (spanFrom z (frontier s))
    if z - s.bp.rl < d + n then .hold
    else if d = 0 then .advance
    else if (runs.any fun r => decide (r.1 ≤ d + n) && decide (d ≤ r.2)) = false ∧ 8 ≤ s.bp.spans.length then .hold
    else .ahead (toSpans z (frontier s) (mergeRun d (d + n) runs)) := by
  simp only [judgeStaging, List.length_map]

theorem settle_stands {s : State} (still : Calm s) (noted_ : noted s = true) : settle s = s := still.settle_eq.trans (noteTarget_noted noted_)

theorem inFlight_length (s : State) (a : Nat) (bs : List (Option Byte)) : (inFlight s a bs).length = bs.length := by simp [inFlight_eq]

theorem fetchDue_deaf {s : State} (takes : takesBytes s = false) : fetchDue s = false := by simp [fetchDue, takes]

theorem fetchDue_frontier {s : State} (none_ : available s = 0) : fetchDue s = false := by simp [fetchDue, none_]

theorem entryBytes_ne_nil (num : Nat) (fm first last reset inc : Bool) (raw stored : Nat) :
    entryBytes num fm first last reset inc raw stored ≠ [] := by simp [entryBytes]

/-- The held write is let go at the frontier, with none behind it, while intake has bytes to fetch (R76, R78). -/
theorem rejudgeHeld_advance {w : FrontWrite} {l : Layout} {s : State} (bound : s.bp.layout = some l) (held : s.bp.held = some w)
    (behind : s.bp.behind = []) (verdict : stagingVerdict w s = some .advance) (awake : s.ch.transport ≠ .parked) (some_ : 0 < available s) :
    rejudgeHeld s = { s with
      bp.held := none, bp.behind := [], bp.acks := s.bp.acks.add w.master, bp.reqs := s.bp.reqs ++ [writeOf w.addr w.data],
      bp.rl := min l.z (s.bp.rl + (absorb w.data.length (s.bp.spans.map (spanFrom l.z (frontier s)))).1),
      bp.spans := toSpans l.z (frontier s) (absorb w.data.length (s.bp.spans.map (spanFrom l.z (frontier s)))).2 } := by
  have again : stagingVerdict w { s with bp.held := none, bp.behind := [] } = some .advance := verdict
  have apart_ : takesBytes (forwardWrite w { s with bp.held := none, bp.behind := [] }) = false ∨
      0 < available (forwardWrite w { s with bp.held := none, bp.behind := [] }) := .inr some_
  have released : rejudgeHeld s = releaseHeld w s := by simp [rejudgeHeld, held, verdict]
  have ring : (s.bp.layout.map Layout.z).getD 0 = l.z := by rw [bound]; rfl
  rw [released, releaseHeld, behind, takeBehind, takeWrite, again]
  dsimp only
  rw [ring]
  have awake' : (forwardWrite w { s with bp.held := none, bp.behind := [] }).ch.transport ≠ .parked := awake
  generalize forwarded : forwardWrite w { s with bp.held := none, bp.behind := [] } = t at apart_ awake' ⊢
  rw [advanceFrontier_apart awake' apart_, inFlight_length, ← forwarded]
  rfl

/-- Where the held write alone is judged again, nothing but the note follows it. -/
theorem settle_rejudged {s : State} (deferred : s.ci.deferred = []) (flush : s.wr.flush = none) (close : s.wr.close = false)
    (calm : Calm (rejudgeHeld s)) : settle s = noteTarget (rejudgeHeld s) := by
  simp only [settle, judgeDeferred_none deferred, checkFlush_none flush, checkClose_off close, checkFlush_none calm.flush,
    checkClose_off calm.close, startFetch_off calm.fetch, checkExhaustion_awake calm.awake, checkRestart_elsewhere calm.elsewhere]

/-- Settles O32: the verdict of the watch, at the write and when bytes are released. -/
theorem stagingWriteJudged : Obligations.StagingWriteJudged := by
  refine ⟨?_, ?_⟩
  · intro m a bs c l s wf bound watch held inside still d n runs touches sent given atCursor
    obtain ⟨ease, noted_⟩ := (calm_iff s).mp still
    have verdict : stagingVerdict { master := m, addr := a, data := bs } s = some (judgeStaging l.z s (a - l.stBase) n) :=
      stagingVerdict_eq bound watch inside
    rw [judgeStaging_eq] at verdict
    have taken := frontWrite_taken (m := m) wf held
    have some_ : bs ≠ [] := by rintro rfl; simp [requestWf] at wf
    have begins (at_ : atCursor) : available s = 0 ∧ stagingVerdict { master := m, addr := a, data := bs } s = some .advance ∧
        (s.ri.cursor + n) % l.z = (s.bp.release + (s.bp.rl + n)) % l.z := by
      obtain ⟨within, first, -, release, room, cursor⟩ := at_
      have place : s.ri.cursor = (s.bp.release + s.bp.rl) % l.z := by
        rw [cursor, frontier, bound]; exact if_neg (by omega)
      refine ⟨available_frontier bound (by omega) place, verdict.trans (congrArg some ((if_neg (Nat.not_lt.mpr within)).trans (if_pos first))), ?_⟩
      rw [place, Nat.mod_add_mod, Nat.add_assoc]
    refine ⟨?_, ?_, ?_, ?_, ?_⟩
    · intro retained
      have hold : stagingVerdict { master := m, addr := a, data := bs } s = some .hold := by
        refine verdict.trans (congrArg some ?_)
        rcases retained with beyond | ⟨ahead_, apart_, full⟩
        · exact if_pos beyond
        · exact ite_eq_left_iff.mpr fun _ => (if_neg ahead_).trans (if_pos ⟨apart_, full⟩)
      refine taken.trans (congrArg Host.Outcome.next ?_)
      simp only [takeWrite, hold]
      exact (settle_held ease.deferred ease.flush ease.close ease.fetch ease.awake ease.elsewhere
        (s := { s with bp.held := some { master := m, addr := a, data := bs } }) rfl hold).trans (noteTarget_noted noted_)
    · intro within ahead_ room
      have behind_ : stagingVerdict { master := m, addr := a, data := bs } s =
          some (.ahead (toSpans l.z (frontier s) (mergeRun d (d + n) runs))) := by
        refine verdict.trans (congrArg some ((if_neg (Nat.not_lt.mpr within)).trans ((if_neg ahead_).trans (if_neg ?_))))
        rintro ⟨apart_, full⟩
        rcases room with touched | room
        · exact absurd (touched.symm.trans apart_) (by decide)
        · omega
      refine taken.trans (congrArg Host.Outcome.next ?_)
      simp only [takeWrite, behind_]
      exact settle_stands (ease.congr rfl rfl rfl rfl ease.awake ease.elsewhere) noted_
    · intro within first takes reached
      have fits_ : stagingVerdict { master := m, addr := a, data := bs } s = some .advance :=
        verdict.trans (congrArg some ((if_neg (Nat.not_lt.mpr within)).trans (if_pos first)))
      refine taken.trans (congrArg Host.Outcome.next ?_)
      simp only [takeWrite, fits_, bound, Option.map_some, Option.getD_some]
      rw [advanceFrontier_apart (s := forwardWrite _ s) ease.awake (.inl takes), inFlight_length]
      exact settle_stands ⟨ease.deferred, ease.held, ease.flush, ease.close, fetchDue_deaf takes, ease.awake, ease.elsewhere⟩ noted_
    · rintro ⟨within, first, spans, release, room, cursor⟩ header padOwed short
      obtain ⟨none_, fits_, stands⟩ := begins ⟨within, first, spans, release, room, cursor⟩
      refine taken.trans (congrArg Host.Outcome.next ?_)
      simp only [takeWrite, fits_, bound, Option.map_some, Option.getD_some]
      rw [advanceFrontier_header (s := forwardWrite _ s) bound ease.awake (by rw [inFlight_eq]; simp [some_]) header padOwed none_ spans
        (by rw [inFlight_length]; exact room) (by rw [inFlight_length]; exact short), inFlight_length, inFlight_eq]
      exact settle_stands ⟨ease.deferred, held, ease.flush, ease.close, fetchDue_frontier (available_frontier bound room stands), ease.awake,
        ease.elsewhere⟩ noted_
    · rintro ⟨within, first, spans, release, room, cursor⟩ data cur short
      obtain ⟨none_, fits_, stands⟩ := begins ⟨within, first, spans, release, room, cursor⟩
      refine taken.trans (congrArg Host.Outcome.next ?_)
      simp only [takeWrite, fits_, bound, Option.map_some, Option.getD_some]
      rw [advanceFrontier_data (s := forwardWrite _ s) bound ease.awake (by rw [inFlight_eq]; simp [some_]) data cur none_ spans
        (by rw [inFlight_length]; exact room) (by rw [inFlight_length]; exact short), inFlight_length, inFlight_eq]
      exact settle_stands ⟨ease.deferred, held, ease.flush, ease.close, fetchDue_frontier (available_frontier bound room stands), ease.awake,
        ease.elsewhere⟩ noted_
  · intro w k free l s bound watch held behind inside steady_ flush close awake elsewhere session placing item filling fetch free_ apart_ release within
      beyond cursor d n entry placed reached
    obtain ⟨deferred, noted_⟩ := (steady_iff s).mp steady_
    have some_ : 0 < l.z := by omega
    have unfilled : s.sm.slots.any (fun x => isFilling x.st) = false := by
      rw [List.any_eq_false]
      exact fun x hx => by simpa [isFilling] using List.all_eq_true.mp apart_ x hx
    have settled : exec .slotExhaustionEnd s = .next (settle placed) := by
      simp [exec, execSlotExhaustionEnd, intakeWaits, filling, placing, item, free_, tryPlace, takeSlot, unfilled, takeFree, placeFilemark,
        writeEntry, issueWrite_internal, entryBytes_ne_nil, releaseBytes, session, sealWhenIdle, ringZ, bound, show l.z ≠ 0 by omega,
        show min 16 s.bp.rl = 16 by omega, placed, entry, slotBase, entryAt,
        show Config.trailerAt - 16 = 917424 from rfl]
    have front : frontier placed = frontier s := by
      simp only [frontier, placed, bound, show l.z ≠ 0 by omega, if_false, Nat.mod_add_mod]
      rw [show s.bp.release + 16 + (s.bp.rl - 16) = s.bp.release + s.bp.rl by omega]
    have verdict : stagingVerdict w placed = some (judgeStaging l.z placed (w.addr - l.stBase) w.data.length) := stagingVerdict_eq bound watch inside
    rw [judgeStaging_eq, front] at verdict
    have fetch' : fetchDue placed = false := by simp [fetchDue, placed, fetch]
    refine ⟨fun retained => ?_, fun first fits_ => ?_⟩
    · rw [settled, settle_held (s := placed) deferred flush close fetch' awake elsewhere held (verdict.trans (congrArg some (if_pos retained)))]
      exact congrArg Host.Outcome.next (noteTarget_noted noted_)
    · have verdict' : stagingVerdict w placed = some .advance := verdict.trans (congrArg some ((if_neg (by
        show ¬l.z - (s.bp.rl - 16) < d + n
        omega)).trans (if_pos first)))
      have available_ : 0 < available placed := by
        have past : ringDist l.z ((s.bp.release + 16) % l.z) s.ri.cursor = 0 := ringDist_past release (by omega) cursor
        simp only [available, ringZ, placed, bound, Option.map_some, Option.getD_some, past]
        omega
      have released : rejudgeHeld placed = { placed with
          bp.held := none, bp.acks := s.bp.acks.add w.master, bp.reqs := s.bp.reqs ++ [entry, writeOf w.addr w.data],
          bp.rl := min l.z (s.bp.rl - 16 + reached.1), bp.spans := toSpans l.z (frontier s) reached.2 } := by
        have advanced := rejudgeHeld_advance (s := placed) bound held behind verdict' awake available_
        rw [front] at advanced
        rw [advanced]
        simp [placed, entry, reached, n, behind]
      have calm' : Calm (rejudgeHeld placed) := by
        rw [released]
        exact ⟨deferred, rfl, flush, close, by simp [fetchDue, placed, fetch], awake, elsewhere⟩
      rw [settled, settle_rejudged (s := placed) deferred flush close calm', released]
      exact congrArg Host.Outcome.next (noteTarget_noted noted_)

/-! ### Runs ahead of the frontier -/

/-- Runs in order, apart and not empty (R77). -/
def Apart (runs : List (Nat × Nat)) : Prop := List.Pairwise (fun p q => p.2 < q.1) runs ∧ ∀ r ∈ runs, r.1 < r.2

/-- A distance lies in a run. -/
def Covers (runs : List (Nat × Nat)) (x : Nat) : Prop := ∃ r ∈ runs, r.1 ≤ x ∧ x < r.2

theorem covers_cons {p : Nat × Nat} {runs : List (Nat × Nat)} {x : Nat} : Covers (p :: runs) x ↔ (p.1 ≤ x ∧ x < p.2) ∨ Covers runs x := by
  simp [Covers]

theorem apart_cons {p : Nat × Nat} {runs : List (Nat × Nat)} : Apart (p :: runs) ↔ (p.1 < p.2 ∧ ∀ q ∈ runs, p.2 < q.1) ∧ Apart runs := by
  simp [Apart]; tauto

/-- What begins behind `n` in a list of runs and in a run begins behind it where they are merged. -/
theorem mergeRun_behind {n a b : Nat} {runs : List (Nat × Nat)} (first : n < a) (rest : ∀ r ∈ runs, n < r.1) : ∀ r ∈ mergeRun a b runs, n < r.1 := by
  induction runs generalizing a b with
  | nil => simpa [mergeRun] using first
  | cons p runs ih =>
    obtain ⟨c, d⟩ := p
    simp only [List.forall_mem_cons] at rest
    simp only [mergeRun]
    split
    · simpa [first, rest.1] using rest.2
    · split
      · simp only [List.forall_mem_cons]; exact ⟨rest.1, ih first rest.2⟩
      · exact ih (lt_min first rest.1) rest.2

theorem mergeRun_apart {a b : Nat} {runs : List (Nat × Nat)} (some_ : a < b) (apart_ : Apart runs) : Apart (mergeRun a b runs) := by
  induction runs generalizing a b with
  | nil => simpa [mergeRun, Apart] using some_
  | cons p runs ih =>
    obtain ⟨c, d⟩ := p
    obtain ⟨⟨within, behind⟩, rest⟩ := apart_cons.mp apart_
    simp only [mergeRun]
    split
    case isTrue before =>
      refine apart_cons.mpr ⟨⟨some_, ?_⟩, apart_⟩
      simp only [List.forall_mem_cons]
      exact ⟨before, fun q hq => before.trans (within.trans (behind q hq))⟩
    case isFalse =>
      split
      case isTrue after => exact apart_cons.mpr ⟨⟨within, mergeRun_behind after behind⟩, ih some_ rest⟩
      case isFalse => exact ih (lt_of_le_of_lt (min_le_left a c) (lt_of_lt_of_le some_ (le_max_left b d))) rest

theorem mergeRun_covers {a b x : Nat} {runs : List (Nat × Nat)} (some_ : a < b) (apart_ : Apart runs) :
    Covers (mergeRun a b runs) x ↔ (a ≤ x ∧ x < b) ∨ Covers runs x := by
  induction runs generalizing a b with
  | nil => simp [mergeRun, Covers]
  | cons p runs ih =>
    obtain ⟨c, d⟩ := p
    obtain ⟨⟨within, -⟩, rest⟩ := apart_cons.mp apart_
    simp only [mergeRun]
    split
    · rw [covers_cons]
    · split
      · rw [covers_cons, ih some_ rest, covers_cons]; tauto
      · rw [ih (by omega) rest, covers_cons]
        have joined : min a c ≤ x ∧ x < max b d ↔ (a ≤ x ∧ x < b) ∨ (c ≤ x ∧ x < d) := by simp only at within; omega
        rw [joined, or_assoc]

theorem absorb_behind {adv : Nat} {runs : List (Nat × Nat)} (apart_ : Apart runs) : ∀ r ∈ (absorb adv runs).2, (absorb adv runs).1 < r.1 := by
  induction runs generalizing adv with
  | nil => simp [absorb]
  | cons p runs ih =>
    obtain ⟨a, b⟩ := p
    obtain ⟨⟨within, behind⟩, rest⟩ := apart_cons.mp apart_
    simp only [absorb]
    split
    · exact ih rest
    next beyond =>
      simp only [List.forall_mem_cons]
      exact ⟨by omega, fun q hq => by have := behind q hq; simp only at within this; omega⟩

theorem absorb_covers {adv x : Nat} {runs : List (Nat × Nat)} :
    (x < (absorb adv runs).1 ∨ Covers (absorb adv runs).2 x) ↔ x < adv ∨ Covers runs x := by
  induction runs generalizing adv with
  | nil => simp [absorb]
  | cons p runs ih =>
    obtain ⟨a, b⟩ := p
    simp only [absorb]
    split
    · rw [ih, covers_cons]
      have joined : x < max adv b ↔ x < adv ∨ (a ≤ x ∧ x < b) := by omega
      rw [joined, or_assoc]
    · rfl

/-- Settles O33: by induction over the runs. -/
theorem spansStayApart : Obligations.SpansStayApart := fun _ _ _ _ some_ apart_ full =>
  have ⟨order, filled⟩ := mergeRun_apart some_ ⟨apart_, full⟩
  ⟨order, filled, fun _ => mergeRun_covers some_ ⟨apart_, full⟩, absorb_behind ⟨apart_, full⟩, fun _ => absorb_covers⟩

/-! ### The delivery watch -/

theorem releasePieces_eq (ps : List Piece) : releasePieces ps =
    (ps.dropWhile (fun p => decide (p.state = .marked)), ((ps.takeWhile (fun p => decide (p.state = .marked))).map Piece.len).sum) := by
  induction ps with
  | nil => rfl
  | cons p ps ih =>
    by_cases marked : p.state = .marked
    · simp [releasePieces, marked, ih, Nat.add_comm]
    · simp [releasePieces, marked]

/-- Settles O35: the pieces marked at the head of the list leave it. -/
theorem deliveryTailReleasesPieces : Obligations.DeliveryTailReleasesPieces := by
  intro m a n l s wf bound inside off marked
  have some_ : n ≠ 0 := by rintro rfl; simp [requestWf] at wf
  simp [exec, execDeliveryTailRead, frontRead, requestFault_of_wf wf, issueRead, some_, bound, inside, deliveryRead, releasePieces_eq, markPieces, marked, off]

/-! ### The arbiter -/

/-- The head of a class is the first of it (R82). -/
theorem headOf_eq {c : ReqClass} {before : List Req} {rs found rest : List Req} {r : Req} (h : headOf c before rs = some (found, r, rest)) :
    before ++ rs = found ++ r :: rest ∧ r.cls = c ∧ ((∀ q ∈ before, q.cls ≠ c) → ∀ q ∈ found, q.cls ≠ c) := by
  induction rs generalizing before with
  | nil => simp [headOf] at h
  | cons q rs ih =>
    simp only [headOf] at h
    split at h
    next same =>
      simp only [Option.some.injEq, Prod.mk.injEq] at h
      obtain ⟨rfl, rfl, rfl⟩ := h
      exact ⟨rfl, same, id⟩
    next other =>
      obtain ⟨split_, cls, first⟩ := ih h
      refine ⟨by simpa using split_, cls, fun none_ => first ?_⟩
      simpa [or_imp, forall_and, other] using none_

theorem grantable_eq {c : ReqClass} {rs found rest : List Req} {r : Req} (h : grantable c rs = some (found, r, rest)) :
    rs = found ++ r :: rest ∧ r.cls = c ∧ (∀ q ∈ found, q.cls ≠ r.cls ∧ q.touches (lineOf r.addr) = false) := by
  unfold grantable at h
  split at h
  next before q rest' head =>
    split at h
    · simp at h
    next free =>
      simp only [Option.some.injEq, Prod.mk.injEq] at h
      obtain ⟨rfl, rfl, rfl⟩ := h
      obtain ⟨split_, cls, first⟩ := headOf_eq head
      refine ⟨split_, cls, fun p hp => ⟨cls ▸ first (by simp) p hp, ?_⟩⟩
      simpa using mt (fun touched => List.any_eq_true.mpr ⟨p, hp, touched⟩) free
  · simp at h

/-- The oldest transfer of all may be granted (R82). -/
theorem grantable_first (r : Req) (rs : List Req) : grantable r.cls (r :: rs) = some ([], r, rs) := by simp [grantable, headOf]

/-- What the arbiter answers, by its order of the classes (R82). -/
theorem chooseGrant_cases {s : State} {found rest : List Req} {r : Req} (h : chooseGrant s = some (found, r, rest)) :
    (grantable .internal s.bp.reqs = some (found, r, rest) ∧
      (s.bp.starve = 8 ∨ (grantable .tape s.bp.reqs = none ∧ grantable .front s.bp.reqs = none))) ∨
    ((s.bp.starve ≠ 8 ∨ grantable .internal s.bp.reqs = none) ∧
      (grantable .tape s.bp.reqs = some (found, r, rest) ∨
       (grantable .tape s.bp.reqs = none ∧ grantable .front s.bp.reqs = some (found, r, rest)))) := by
  unfold chooseGrant at h
  dsimp only at h
  cases tape : grantable .tape s.bp.reqs <;> cases front : grantable .front s.bp.reqs <;> cases inner : grantable .internal s.bp.reqs <;>
    by_cases turn : s.bp.starve = 8 <;> simp_all

theorem chooseGrant_isSome {s : State} (waits : s.bp.reqs ≠ []) : (chooseGrant s).isSome = true := by
  obtain ⟨r, rs, reqs⟩ := List.exists_cons_of_ne_nil waits
  have first := grantable_first r rs
  rw [← reqs] at first
  unfold chooseGrant
  dsimp only
  cases cls : r.cls <;> rw [cls] at first <;> split_ifs <;> simp_all

/-- A grant in terms of the line it moves (R82). -/
theorem memoryPortGrant_eq {s : State} {before rest : List Req} {r : Req} (chosen : chooseGrant s = some (before, r, rest)) :
    exec .memoryPortGrant s = .next (
      let starve := if r.cls = .internal then 0 else if (grantable .internal s.bp.reqs).isSome then min 8 (s.bp.starve + 1) else s.bp.starve
      let m := moveLine r s.mem
      if m.1.len = 0 then requestDone m.1 { s with mem := m.2, bp.reqs := before ++ rest, bp.starve := starve }
      else { s with mem := m.2, bp.reqs := before ++ m.1 :: rest, bp.starve := starve }) := by
  simp only [exec, execMemoryPortGrant, grantLine, chosen]
  split_ifs <;> rfl

/-- Settles O36: the choice by the order of the classes, and the line it moves. -/
theorem grantMovesChosenLine : Obligations.GrantMovesChosenLine := by
  refine ⟨fun s => ⟨fun before r rest chosen => ?_, chooseGrant_isSome⟩, fun s none_ => ?_, fun before rest r m s chosen some_ => ?_⟩
  · rcases chooseGrant_cases chosen with ⟨inner, turn⟩ | ⟨turn, tape | ⟨none_, front⟩⟩
    · obtain ⟨split_, cls, first⟩ := grantable_eq inner
      exact ⟨split_, first, fun _ => turn, fun other => absurd cls other, fun front => by simp [cls] at front⟩
    · obtain ⟨split_, cls, first⟩ := grantable_eq tape
      exact ⟨split_, first, fun inner => by simp [cls] at inner, fun _ => turn, fun front => by simp [cls] at front⟩
    · obtain ⟨split_, cls, first⟩ := grantable_eq front
      exact ⟨split_, first, fun inner => by simp [cls] at inner, fun _ => turn, fun _ => none_⟩
  · have nothing : chooseGrant s = none := by simp [chooseGrant, none_, grantable, headOf]
    simp [exec, execMemoryPortGrant, grantLine, nothing]
  · intro k starve
    rw [memoryPortGrant_eq chosen]
    have step : r.step = k := rfl
    refine ⟨?_, ?_, ?_, ?_⟩
    · intro more write
      have left : r.len - k ≠ 0 := by omega
      simp [moveLine, write, step, left, starve]
    · intro more read
      have left : r.len - k ≠ 0 := by omega
      simp [moveLine, read, step, left, starve]
    · intro last write what
      simp [moveLine, write, step, last, requestDone, what, starve]
    · intro last read what
      simp [moveLine, read, step, last, requestDone, what, starve]

/-- Intake stopped with OVERRUN at the expiry of the hold timer, and the held write forwarded (R78, R105). -/
def State.overrunBy (w : FrontWrite) (s : State) : State :=
  { s.watchEnded.intakeStopped with
    bp.held := none, bp.acks := s.bp.acks.add w.master,
    bp.reqs := s.bp.reqs.map (Req.forget .chunkFetch) ++ [writeOf w.addr w.data],
    ri.session := .error, ri.err := some .overrun, li.lastErr := .overrun,
    cq.queue := s.cq.queue ++ [noticeRecord .sessionError ([byteOf 4] ++ leBytes 4 s.ri.lastComplete)] }

/-- Settles O34: intake stops, with nothing in hand and no slot to seal, and the watch ends. -/
theorem holdExpiryStops : Obligations.HoldExpiryStops := by
  intro w s held some_ behind cur filling flush close open_ awake watch steady_ elsewhere
  obtain ⟨room, none_⟩ := (cqOpen_iff s).mp open_
  obtain ⟨deferred, noted_⟩ := (steady_iff s).mp steady_
  have stopped : stopSession .overrun (forwardWrite w { s with bp.held := none, bp.behind := [] }) = s.overrunBy w := by
    simp [stopSession, forwardWrite, stopIntake, forgetAll, stopWatch, frontier, postSessionError, noteStatus, postAt, room, none_, cur,
      markRecord, finishStop, sealSlot, filling, freeEmptyFilling, flush, State.overrunBy, State.watchEnded, State.intakeStopped, writeOf,
      Req.forget, behind]
    exact ⟨rfl, by rw [← flush]⟩
  have calm' : Calm (s.overrunBy w) := ⟨deferred, rfl, flush, close, by simp [fetchDue, State.overrunBy, State.watchEnded, State.intakeStopped], awake, elsewhere⟩
  have expired : holdExpiry s = settle (stopSession .overrun (forwardWrite w { s with bp.held := none, bp.behind := [] })) := by
    simp only [holdExpiry, held]
    rw [if_pos watch, behind, takeBehind]
  simp only [exec, execHoldTimerExpiry]
  rw [expired, stopped, calm'.settle_eq, noteTarget_noted (s := s.overrunBy w) noted_]
  simp only [State.overrunBy]

/-- The bytes that a read returns are those of the writes before it, whatever their outcome is awaited for (R82). -/
theorem throughBytes_forget (p : Purpose) (m : List Host.Cell) (before rs : List Req) (a n : Nat) :
    throughBytes m (before.map (Req.forget p) ++ rs) a n = throughBytes m (before ++ rs) a n := by
  have byte (c : Nat) (b : Byte) : overlay c b (before.map (Req.forget p) ++ rs) = overlay c b (before ++ rs) := by
    induction before generalizing b with
    | nil => rfl
    | cons r before ih =>
      have same : (r.forget p).isWrite = r.isWrite ∧ (r.forget p).addr = r.addr ∧ (r.forget p).data = r.data := by
        unfold Req.forget; split <;> exact ⟨rfl, rfl, rfl⟩
      obtain ⟨write, addr, data⟩ := same
      simp only [List.map_cons, List.cons_append, overlay, write, addr, data, ih]
  exact throughBytes_congr fun c _ _ => byte c _

/-- The end of a binding: its status word, and the anchor read of a binding asked for meanwhile (R70, R71). -/
theorem endBinding_eq {bs : List Byte} (some_ : bs ≠ []) (s : State) : endBinding bs s = { s with
    bp.binding := s.bp.rebind, bp.rebind := false, bp.anchor := none,
    bp.reqs := s.bp.reqs ++ [partWrite 240 bs .plain] ++ (if s.bp.rebind then [readOf 0 256 .anchor] else []) } := by
  cases rebind : s.bp.rebind <;> simp [endBinding, issueWrite_internal some_, issueRead_internal, rebind]

theorem resetCause_ne_nil (s : State) : resetCause s ≠ [] := by simp [resetCause, padTo]

/-- Settles O31: the checks in their order, and the adoption change by change. -/
theorem anchorJudged : Obligations.AnchorJudged := by
  intro bs n s anchor l bad again refused marks hist before
  have some_ (w a b : Nat) : statusWord w a b ≠ [] := by simp [statusWord]
  refine ⟨?_, ?_, ?_, ?_⟩
  · intro torn
    simp only [refused, exec, execAnchorReadReturn, anchor, torn, if_true, endBinding_eq (some_ _ _ _)]
    rfl
  · intro whole region
    simp only [refused, exec, execAnchorReadReturn, anchor, whole, Bool.true_eq_false, if_false]
    rw [show firstBadRegion (regionsOf (layoutOf bs)) 0 (regionsOf (layoutOf bs)) = some n from region]
    simp only [endBinding_eq (some_ _ _ _)]
    rfl
  · intro whole good bound busy
    simp only [refused, exec, execAnchorReadReturn, anchor, whole, Bool.true_eq_false, if_false]
    rw [show firstBadRegion (regionsOf (layoutOf bs)) 0 (regionsOf (layoutOf bs)) = none from good]
    simp only [bound, busy, and_self, if_true, endBinding_eq (some_ _ _ _)]
    rfl
  · intro whole good free
    have allowed : ¬(s.bp.layout.isSome = true ∧ adoptionAllowed s = false) := by
      rintro ⟨bound, busy⟩
      rcases free with unbound | allowed <;> simp_all
    have adopted : exec .anchorReadReturn s = .next (endBinding (statusWord 1 l.serial 0) (adoptLayout l s)) := by
      simp only [exec, execAnchorReadReturn, anchor, whole, Bool.true_eq_false, if_false]
      rw [show firstBadRegion (regionsOf (layoutOf bs)) 0 (regionsOf (layoutOf bs)) = none from good]
      dsimp only
      rw [if_neg allowed]
    have read : throughBytes s.mem (before ++ marks) l.histBase 512 = hist := by
      simp only [readThrough_eq, before, hist, throughBytes_forget]
    simp [before, marks, Function.comp_assoc] at read
    rw [adopted, endBinding_eq (some_ _ _ _)]
    by_cases sum : wordSum hist = 0 <;>
      simp [adoptLayout, readHistory, clearMarkers, stopParity, forgetAll, issueWrite_internal, resetCause_ne_nil, consult_internal, histBase,
        readThrough_eq, reclampPolicy, clampNat, sum, read, before, marks, again, Function.comp_assoc]
    all_goals rfl

end Sys2Proof.Machine
end

section
/-! SUPPORT. Proofs about the writer (Sections 6.4 and 9.3). -/

namespace Sys2Proof.Machine

/-! ### A frame sent -/

/-- A frame written leaves the monitor but for its count (R161, R166). -/
theorem event_frameWritten_same {s t : State} (unmon : unmonitored .frameWritten s = true)
    (between : s.he.tallyOpen = true → (min (s.he.tally.frames + 1) 4294967295) % 4096 ≠ 0) (he : t.he = s.he) :
    event .frameWritten t = { t with he.tally := { s.he.tally with frames := min (s.he.tally.frames + 1) 4294967295 } } := by
  rw [event_frameWritten (by rw [unmonitored_eq, he, ← unmonitored_eq]; exact unmon) (by rw [he]; exact between), he]
  rfl

/-- The slot of a frame that is sent is ON_TAPE, or enters it with the first frame 0 of its placement (R108, R114). -/
def Sendable (k i : Nat) (s : State) : Prop :=
  (slotAt s k).st = .onTape ∨
    ((slotAt s k).st = .sealed ∧ i = 0 ∧ (frameAt s k i).st = .unwritten ∧ (s.sm.slots.filter (fun x => isOnTape x.st)).length < 2)

theorem sendFrame_eq {s : State} {k i : Nat} (may : Sendable k i s) (unmon : unmonitored .frameWritten s = true)
    (between : s.he.tallyOpen = true → (min (s.he.tally.frames + 1) 4294967295) % 4096 ≠ 0) : sendFrame k i s = s.frameSent k i := by
  have counted (t : State) (he : t.he = s.he) := event_frameWritten_same unmon between he
  rcases may with onTape | ⟨sealed, rfl, unwritten, room⟩
  · rw [slotAt_eq] at onTape
    simp [sendFrame, setSlot, slotAt_eq, frameAt_eq, onTape, nextSlot, issueRead, slotBase, counted, Config.frameBytes, Config.pitch, isSealed, State.frameSent,
      Bool.decide_and]
  · rw [slotAt_eq] at sealed
    rw [frameAt_eq, List.getD_eq_getElem?_getD] at unwritten
    simp [sendFrame, setSlot, slotAt_eq, frameAt_eq, sealed, nextSlot, issueRead, slotBase, counted, Config.frameBytes, Config.pitch, isSealed, State.frameSent,
      unwritten, room]

/-- A frame slot with no slip: the note follows the writer's answer. -/
theorem frameSlot_answered {s t : State} (due : slotDue s = true) (answer : frameSlot s = t) (calm : Calm t)
    (prompt : t.wr.tx = none ∨ ∃ x, t.wr.tx = some x ∧ gapOf s.mo.count x.start.count ≤ 24) : exec .frameSlot s = .next (noteTarget t) := by
  have timely : slipped s t = false := by
    unfold slipped
    rcases prompt with none_ | ⟨x, tx, near⟩
    · simp [none_]
    · simp [tx, Nat.not_lt.mpr near]
  simp [exec, execFrameSlot, due, answer, timely, calm.settle_eq]

theorem slotDue_tx {s : State} (due : slotDue s = true) : s.wr.tx = none := by
  simp only [slotDue, Bool.and_eq_true, Option.isNone_iff_eq_none] at due
  exact due.1.2

/-- The slot of an UNWRITTEN frame chosen is ON_TAPE (R112). -/
theorem unwrittenFrame_slot {s : State} {k i : Nat} (chosen : unwrittenFrame s = some (k, i)) :
    (slotAt s k).st = .onTape ∧ (frameAt s k i).st = .unwritten := by
  obtain ⟨j, mem, found⟩ := List.exists_of_findSome?_eq_some chosen
  obtain ⟨i', first, pair⟩ := Option.map_eq_some_iff.mp found
  obtain ⟨rfl, rfl⟩ := Prod.mk.inj pair
  refine ⟨by simpa [isOnTape] using ((mem_slotsIn _ _ _).mp mem).2, by simpa using List.find?_some first⟩

theorem insertBySeg_length (s : State) (k : Nat) (ks : List Nat) : (insertBySeg s k ks).length = ks.length + 1 := by
  induction ks with
  | nil => rfl
  | cons j ks ih => simp only [insertBySeg]; split <;> simp [ih]

/-- As many slots satisfy a test as stand in the order of their segments. -/
theorem slotsIn_length (f : SlotState → Bool) (s : State) : (slotsIn f s).length = (s.sm.slots.filter (fun x => f x.st)).length := by
  have sorted (ks : List Nat) : (bySeg s ks).length = ks.length := by
    induction ks with
    | nil => rfl
    | cons k ks ih => simp only [bySeg, List.foldr_cons, insertBySeg_length, List.length_cons] at ih ⊢; rw [ih]
  have slots : s.sm.slots = (List.range s.sm.slots.length).map (slotAt s) := by
    refine List.ext_getElem (by simp) fun k h _ => ?_
    simp [slotAt, List.getD, h]
  rw [slotsIn, sorted]
  conv_rhs => rw [slots, List.filter_map, List.length_map]
  rfl

/-- The slot of a frame 0 chosen behind the placements under way is SEALED, and there is room for it on tape (R112). -/
theorem sealedFrame0_slot {s : State} {k : Nat} (chosen : sealedFrame0 s = some k) :
    (slotAt s k).st = .sealed ∧ (s.sm.slots.filter (fun x => isOnTape x.st)).length < 2 ∧ s.wr.turnWait = false := by
  unfold sealedFrame0 at chosen
  dsimp only at chosen
  split at chosen
  next j rest order =>
    split at chosen
    next may =>
      obtain rfl := Option.some.inj chosen
      simp only [Bool.and_eq_true, Bool.not_eq_true', decide_eq_true_eq] at may
      obtain ⟨⟨⟨⟨turnWait, -⟩, -⟩, room⟩, -⟩ := may
      have mem : j ∈ slotsIn isSealed s := by rw [order]; exact List.mem_cons_self
      exact ⟨by simpa [isSealed] using ((mem_slotsIn _ _ _).mp mem).2, by rw [← slotsIn_length]; exact room, turnWait⟩
    next => simp at chosen
  next => simp at chosen

/-! ### The answer to a frame slot -/

/-- A frame 0 begins a placement of slot k (R112). -/
def Begins (k : Nat) (s : State) : Prop :=
  (unwrittenFrame s = some (k, 0) ∧ s.wr.eot = false ∧ s.wr.turnWait = false) ∨
    (unwrittenFrame s = none ∧ sealedFrame0 s = some k ∧ (frameAt s k 0).st = .unwritten)

/-- A slot is offered to a writer that takes it (R86, R112, R121). -/
structure Offered (s : State) : Prop where
  pendingEnd : s.wr.pendingEnd = .none
  session : s.ri.session ≠ .closed
  countBusy : s.wr.countBusy = false
  room : s.wr.verifyQ.length < 4

theorem Begins.sendable {k : Nat} {s : State} (begins : Begins k s) : Sendable k 0 s := by
  rcases begins with ⟨chosen, -, -⟩ | ⟨-, chosen, unwritten⟩
  · exact .inl (unwrittenFrame_slot chosen).1
  · obtain ⟨sealed, room, -⟩ := sealedFrame0_slot chosen
    exact .inr ⟨sealed, rfl, unwritten, room⟩

theorem Begins.unturned {k : Nat} {s : State} (begins : Begins k s) : s.wr.turnWait = false := by
  rcases begins with ⟨-, -, turnWait⟩ | ⟨-, chosen, -⟩
  · exact turnWait
  · exact (sealedFrame0_slot chosen).2.2

/-- With no frame 0 held and no rewrite, the frame 0 of a placement is chosen (R112, R113). -/
theorem frameSlot_begins {k : Nat} {s : State} (offered : Offered s) (held : s.wr.turnWait = true ∨ s.wr.heldF0 = none)
    (rewrites : s.wr.rewriteQ = []) (begins : Begins k s) : frameSlot s = chooseFrame0 k s := by
  have turnWait := begins.unturned
  have held' : s.wr.heldF0 = none := by simpa [turnWait] using held
  obtain ⟨pendingEnd, session, countBusy, room⟩ := offered
  rcases begins with ⟨chosen, eot, -⟩ | ⟨none_, chosen, -⟩
  · simp [frameSlot, pendingEnd, session, countBusy, Nat.not_le.mpr room, held', rewrites, chosen, eot, turnWait]
  · simp [frameSlot, pendingEnd, session, countBusy, Nat.not_le.mpr room, held', rewrites, none_, chosen, turnWait]

/-- A frame 0 held for its planned start is taken up again there (R52, R136). -/
theorem frameSlot_held {k : Nat} {s : State} (offered : Offered s) (turnWait : s.wr.turnWait = false) (held : s.wr.heldF0 = some k) :
    frameSlot s = heldFrame0 k s := by
  obtain ⟨pendingEnd, session, countBusy, room⟩ := offered
  simp [frameSlot, pendingEnd, session, countBusy, Nat.not_le.mpr room, held, turnWait]

/-- A rewrite taken from the head of the queue lets go what is held or waits for a turn (R52, R112). -/
def State.dequeued (rest : List (Nat × Nat)) (s : State) : State := { s with wr.rewriteQ := rest, wr.turnWait := false, wr.heldF0 := none }

theorem frameSlot_rewrites {k i : Nat} {rest : List (Nat × Nat)} {s : State} (offered : Offered s)
    (held : s.wr.turnWait = true ∨ s.wr.heldF0 = none) (rewrites : s.wr.rewriteQ = (k, i) :: rest) :
    frameSlot s = sendFrame k i (s.dequeued rest) := by
  obtain ⟨pendingEnd, session, countBusy, room⟩ := offered
  rcases held with turnWait | held <;> simp [frameSlot, Nat.not_le.mpr room, State.dequeued, *]

theorem frameSlot_unwritten {k i : Nat} {s : State} (offered : Offered s) (held : s.wr.turnWait = true ∨ s.wr.heldF0 = none)
    (rewrites : s.wr.rewriteQ = []) (chosen : unwrittenFrame s = some (k, i)) (later : i ≠ 0) : frameSlot s = sendFrame k i s := by
  obtain ⟨pendingEnd, session, countBusy, room⟩ := offered
  rcases held with turnWait | held <;> simp [frameSlot, Nat.not_le.mpr room, *]

/-- With no frame to send the slot is declined (R53, R121). -/
theorem frameSlot_nothing {s : State} (offered : Offered s) (held : s.wr.turnWait = true ∨ s.wr.heldF0 = none)
    (rewrites : s.wr.rewriteQ = []) (none_ : unwrittenFrame s = none) (unsealed : sealedFrame0 s = none) : frameSlot s = declineSlot s := by
  obtain ⟨pendingEnd, session, countBusy, room⟩ := offered
  rcases held with turnWait | held <;>
    simp [frameSlot, Nat.not_le.mpr room, *]

theorem chooseFrame0_free {k : Nat} {s : State} (free : ¬(s.he.clean = .required ∧ s.mo.band ≠ 0 ∧ firstOfStream s = true)) :
    chooseFrame0 k s = startFrame0 k s.mo.planned s := by rw [chooseFrame0, if_neg free]

theorem behindSkip_none {s : State} (skip : s.wr.skipStart = none) (c : Nat) : behindSkip c s = c := by simp [behindSkip, skip]

/-- The frame 0 starts at the slot offered (R113). -/
theorem startFrame0_now {k : Nat} {s : State} (band : s.mo.bandTo.getD s.mo.band = s.sp.c) (skip : s.wr.skipStart = none)
    (room : 2304 ≤ roomAfter s.mo.pass s.mo.planned) : startFrame0 k s.mo.planned s = sendFrame k 0 s := by
  simp [startFrame0, band, behindSkip_none skip, Config.segmentRoom, room]

/-- The frame 0 waits behind the gap of a band change (R52). -/
theorem startFrame0_gap {k from_ : Nat} {s : State} (band : s.mo.bandTo.getD s.mo.band ≠ s.sp.c) (skip : s.wr.skipStart = none)
    (room : 2304 ≤ roomAfter s.mo.pass (ahead s.mo.pass from_ 768)) :
    startFrame0 k from_ s = { s with
      wr.heldF0 := some k, mo.planned := ahead s.mo.pass from_ 768, mo.mode := some .ramp, mo.into := some .writeStream,
      mo.bandTo := some s.sp.c, mo.dest := bandSpeed s.sp.c, mo.stopping := false } := by
  simp [startFrame0, band, behindSkip_none skip, Config.segmentRoom, Config.rampGap, room, rampToBand]

/-- The frame 0 waits for the turn (R51, R113). -/
theorem startFrame0_turn {k : Nat} {s : State} (band : s.mo.bandTo.getD s.mo.band = s.sp.c) (skip : s.wr.skipStart = none)
    (full : ¬2304 ≤ roomAfter s.mo.pass s.mo.planned) (lower : s.mo.pass < 47) :
    startFrame0 k s.mo.planned s = declineSlot { s with wr.turnWait := true, wr.heldF0 := some k, mo.bandTo := none } := by
  simp [startFrame0, band, behindSkip_none skip, Config.segmentRoom, full, lower]

/-- The session meets END_OF_TAPE at the frame 0 (R113, R127). -/
theorem startFrame0_end {k : Nat} {s : State} (band : s.mo.bandTo.getD s.mo.band = s.sp.c) (skip : s.wr.skipStart = none)
    (full : ¬2304 ≤ roomAfter s.mo.pass s.mo.planned) (last : 47 ≤ s.mo.pass) :
    startFrame0 k s.mo.planned s = nextSlot (meetEndOfTape s) := by
  simp [startFrame0, band, behindSkip_none skip, Config.segmentRoom, full, Nat.not_lt.mpr last]

/-- The frame 0 waits for the end of a skip's gap (R117). -/
theorem startFrame0_skip {k : Nat} {p : Pos} {s : State} (band : s.mo.bandTo.getD s.mo.band = s.sp.c) (skip : s.wr.skipStart = some p)
    (pass : p.pass = s.mo.pass) (before_ : reached p.pass s.mo.planned p.count = false) (room : 2304 ≤ roomAfter s.mo.pass p.count) :
    startFrame0 k s.mo.planned s = { s with wr.heldF0 := some k, mo.planned := p.count } := by
  have later : p.count ≠ s.mo.planned := by
    rintro at_
    rw [at_] at before_
    simp [reached] at before_
  simp [startFrame0, band, behindSkip, skip, pass, pass ▸ before_, Config.segmentRoom, room, later]

/-- The session ended at the end of the tape, with no slot being filled (R113, R127). -/
def State.tapeEnded (s : State) : State := { s.watchEnded.intakeStopped with
  ri.session := .error, ri.err := some .endOfTape, wr.eot := true, wr.turnWait := false, wr.heldF0 := none, mo.bandTo := none,
  mo.planned := ahead s.mo.pass s.mo.planned 48, li.lastErr := .endOfTape,
  cq.queue := s.cq.queue ++ [noticeRecord .sessionError ([11] ++ leBytes 4 s.ri.lastComplete)] }

theorem nextSlot_meetEndOfTape {s : State} (session : s.ri.session ≠ .closed) (filling : s.ri.filling = none) (open_ : cqOpen s = true) :
    nextSlot (meetEndOfTape s) = s.tapeEnded := by
  obtain ⟨room, none_⟩ := (cqOpen_iff s).mp open_
  simp [nextSlot, meetEndOfTape, sessionError, session, stopWatch, stopIntake, forgetAll, sealSlot, filling, freeEmptyFilling, postSessionError,
    noteStatus, postAt, room, none_, State.tapeEnded, State.watchEnded, State.intakeStopped, frontier, Config.pitch]
  rfl

/-- The segment whose UNWRITTEN frame 0 meets the end of the tape returns to SEALED (R127). -/
def State.sentBack (k : Nat) (s : State) : State := { s with
  wr.abandon := none, wr.verifyQ := s.wr.verifyQ.map (fun v => if v.slot = k then { v with isVoid := true } else v),
  sm.slots := s.sm.slots.set k (freshSlot .sealed (slotAt s k).seg), mo.planned := ahead s.mo.pass s.mo.planned 48 }

theorem frameSlot_eot {k : Nat} {s : State} (offered : Offered s) (held : s.wr.turnWait = true ∨ s.wr.heldF0 = none)
    (rewrites : s.wr.rewriteQ = []) (chosen : unwrittenFrame s = some (k, 0)) (eot : s.wr.eot = true) (alone : followingOf s k = none) :
    frameSlot s = s.sentBack k := by
  have onTape := (unwrittenFrame_slot chosen).1
  rw [slotAt_eq] at onTape
  have sent : frameSlot s = nextSlot (abandonAtEot { slot := k, following := none } s) := by
    obtain ⟨pendingEnd, session, countBusy, room⟩ := offered
    rcases held with turnWait | held <;>
      simp [frameSlot, Nat.not_le.mpr room, *]
  have same (v : VerifyEntry) : k = v.slot ↔ v.slot = k := eq_comm
  rw [sent]
  simp [abandonAtEot, voidFrames, giveUpSlot, offered.session, backToSealed, setSlot, slotAt_eq, onTape, nextSlot, State.sentBack, rewrites, Abandonment.has, freshSlot, Config.pitch, same]

/-- The backhitch behind the last frame end (R53, R54). -/
def State.backhitching (s : State) : State :=
  let p : Pos := { s.mo.lastEnd with count := ahead s.mo.lastEnd.pass s.mo.lastEnd.count 48 }
  { s with
    mo.resume := some p, mo.stands := none, rd.start := none, mo.goal := .waitData, mo.mode := some .backhitch, mo.dest := 0,
    mo.stopping := true, mo.into := none, mo.passWait := false, mo.bandTo := none, pw.dwell := false,
    mo.legs := [stopLeg .backhitch, { mode := .backhitch, pass := some p.pass, target := some (standing p).count, speed := 102 }] }

theorem declineSlot_backhitch {s : State} (due : slotDue s = true) (empty : s.wr.verifyQ = []) (pendingEnd : s.wr.pendingEnd = .none)
    (turnWait : s.wr.turnWait = false) (opened : s.ri.session = .opened) (moving : s.mo.v ≠ 0) :
    declineSlot s = noteTarget s.backhitching := by
  have moving' (t : State) (v : t.mo.v = s.mo.v) : atRest t = false := by simp [atRest, v, moving]
  have active : s.ch.transport = .active := by
    simp only [slotDue, Bool.and_eq_true, decide_eq_true_eq] at due
    exact due.1.1.1
  simp [declineSlot, empty, runoutEnds, pendingEnd, turnWait, opened, beginBackhitch, startPlan, enterActive, active, motionStart, beginLegs,
    stopLeg, moving', moveLeg, State.backhitching, standing, Config.pitch, Config.moveSpeed]

/-- The abandonment that a transmission's end carries out (R117). -/
theorem transmissionComplete_skip {x : Transmission} {a : Abandonment} {s : State} (tx : s.wr.tx = some x)
    (at_ : s.ch.transport = .active ∧ s.mo.pass = x.start.pass ∧ reached x.start.pass s.mo.count (ahead x.start.pass x.start.count 48) = true)
    (owed : s.wr.abandon = some a) (eot : s.wr.eot = false) :
    transmissionComplete s =
      skipInStream a { s with wr.tx := none, mo.lastEnd := { pass := x.start.pass, count := ahead x.start.pass x.start.count 48 } } := by
  simp only [transmissionComplete, tx]
  rw [if_pos at_]
  simp only [owed, eot, Config.pitch]
  rfl

theorem slotOf_set_ne {slots : List Slot} {k j : Nat} (other : j ≠ k) (v : Slot) : slotOf (slots.set k v) j = slotOf slots j := by
  simp [slotOf, List.getD, List.getElem?_set_ne other.symm]

/-- An entry begun again in placement 2 (R117). -/
def anew (slots : List Slot) (k : Nat) : Slot := { freshSlot .onTape (slotOf slots k).seg with placement := 2 }

/-- The slots after a skip of slot k and the following one (R117). -/
def slotsAnew (k : Nat) (following : Option Nat) (slots : List Slot) : List Slot :=
  match following with
  | none => slots.set k (anew slots k)
  | some j => (slots.set k (anew slots k)).set j (anew slots j)

theorem placement_anew {k : Nat} {following : Option Nat} {s : State} (onTape : (slotAt s k).st = .onTape)
    (other : ∀ j ∈ following, j ≠ k ∧ (slotAt s j).st = .onTape) :
    (slotOf (slotsAnew k following s.sm.slots) k).placement = 2 ∧
      ∀ j ∈ following, (slotOf (slotsAnew k following s.sm.slots) j).placement = 2 := by
  have used : (slotOf s.sm.slots k).st ≠ .free := by rw [← slotAt_eq, onTape]; decide
  cases following with
  | none => simp [slotsAnew, slotOf_set used, anew]
  | some j =>
    obtain ⟨apart_, onTape'⟩ := other j rfl
    have used' : (slotOf (s.sm.slots.set k (anew s.sm.slots k)) j).st ≠ .free := by
      rw [slotOf_set_ne apart_, ← slotAt_eq, onTape']; decide
    refine ⟨?_, fun j' mine => ?_⟩
    · rw [slotsAnew, slotOf_set_ne apart_.symm, slotOf_set used]; rfl
    · obtain rfl := Option.some.inj mine
      rw [slotsAnew, slotOf_set used']; rfl

/-- A placement and the following one skipped, but for the gap (R117). -/
def State.placedAnew (k : Nat) (following : Option Nat) (s : State) : State := { s with
  wr.abandon := none, wr.heldF0 := none, wr.turnWait := false, wr.skipStart := none, mo.bandTo := none,
  wr.verifyQ := s.wr.verifyQ.map (fun v => if v.slot = k ∨ following = some v.slot then { v with isVoid := true } else v),
  wr.rewriteQ := s.wr.rewriteQ.filter (fun q => decide (q.1 ≠ k ∧ following ≠ some q.1)),
  sm.slots := slotsAnew k following s.sm.slots, he.tally := tallyEvent .segmentSkip s.he.tally }

theorem skipSlots_eq {k : Nat} {following : Option Nat} {s : State} (onTape : (slotAt s k).st = .onTape)
    (other : ∀ j ∈ following, j ≠ k ∧ (slotAt s j).st = .onTape) (unmon : unmonitored .segmentSkip s = true) :
    skipSlots { slot := k, following := following } s = s.placedAnew k following := by
  have counted (t : State) (he : t.he = s.he) : event .segmentSkip t = { t with he.tally := tallyEvent .segmentSkip s.he.tally } := by
    rw [event_unmonitored (by rw [unmonitored_eq, he, ← unmonitored_eq]; exact unmon) (by decide), he]
  have mine (j : Nat) : ({ slot := k, following := following } : Abandonment).has j = decide (j = k ∨ following = some j) := by
    simp [Abandonment.has, eq_comm]
  rw [slotAt_eq] at onTape
  cases following with
  | none =>
    simp [skipSlots, voidFrames, mine, secondPlacement, slotAt_eq, onTape, setSlot, freshSlot, counted, State.placedAnew, slotsAnew, anew]
  | some j =>
    obtain ⟨apart_, onTape'⟩ := other j rfl
    rw [slotAt_eq] at onTape'
    simp [skipSlots, voidFrames, mine, secondPlacement, slotAt_eq, onTape, onTape', setSlot, freshSlot, counted, State.placedAnew, slotsAnew, anew, slotOf_set_ne apart_]

/-- Settles O37: the writer's answers one by one, and the end of a transmission with and without a skip owed. -/
theorem frameSlotTaken : Obligations.FrameSlotTaken := by
  refine ⟨fun s off => by simp [exec, execFrameSlot, off], fun s none_ still => ?_, ?_, ?_⟩
  · simp [exec, execFrameTransmissionComplete, transmissionComplete, none_, settle_calm still]
  · intro k i rest s still unmon between near due pendingEnd open_ offered noHeld next behindGap room begins required fresh holds bandHeld ramp nothing p
    obtain ⟨ease, noted_⟩ := (calm_iff s).mp still
    have session : s.ri.session ≠ .closed := by simpa [sessionOpen] using open_
    have offered_ (h : offered) : Offered s := ⟨pendingEnd, session, h.1, h.2⟩
    have unsent := slotDue_tx due
    have sentCalm (k i : Nat) : Calm (s.frameSent k i) := ease.congr rfl rfl rfl rfl ease.awake (by simp [State.frameSent])
    refine ⟨?_, ?_, ?_, ?_, ?_, ?_, ?_, ?_, ?_, ?_, ?_, ?_, ?_, ?_⟩
    · intro off held rewrites onTape
      have sent := (frameSlot_rewrites (offered_ off) held rewrites).trans
        (sendFrame_eq (s := s.dequeued rest) (.inl onTape) unmon between)
      refine frameSlot_answered due (sent.trans ?_) ((sentCalm k i).congr rfl rfl rfl rfl ease.awake (by simp [State.frameSent])) (.inr ⟨_, rfl, near⟩)
      simp [State.frameSent, State.dequeued, slotAt_eq, frameAt_eq, slotBase]
    · intro off held rewrites chosen later
      exact frameSlot_answered due ((frameSlot_unwritten (offered_ off) held rewrites chosen later).trans
        (sendFrame_eq (.inl (unwrittenFrame_slot chosen).1) unmon between)) (sentCalm k i) (.inr ⟨_, rfl, near⟩)
    · rintro off held rewrites ⟨first, unrequired, skip⟩ band fits_
      refine frameSlot_answered due ?_ (sentCalm k 0) (.inr ⟨_, rfl, near⟩)
      rw [frameSlot_begins (offered_ off) held rewrites first, ← sendFrame_eq (Begins.sendable first) unmon between, chooseFrame0_free unrequired]
      exact startFrame0_now band skip fits_
    · rintro off held rewrites ⟨first, unrequired, skip⟩ band fits_
      refine frameSlot_answered due ?_ (ease.congr rfl rfl rfl rfl ease.awake (by simp [ramp])) (.inl unsent)
      rw [frameSlot_begins (offered_ off) held rewrites first, chooseFrame0_free unrequired]
      exact startFrame0_gap band skip fits_
    · rintro off held rewrites ⟨first, unrequired, skip⟩ band full lower some_
      refine frameSlot_answered due ?_ (ease.congr rfl rfl rfl rfl ease.awake (by simp)) (.inl unsent)
      rw [frameSlot_begins (offered_ off) held rewrites first, chooseFrame0_free unrequired, startFrame0_turn band skip full lower]
      simp [declineSlot, some_, pendingEnd, nextSlot, next, Config.pitch]
    · rintro off held rewrites ⟨first, unrequired, skip⟩ band full last filling free_
      have answer := frameSlot_begins (offered_ off) held rewrites first
      rw [chooseFrame0_free unrequired, startFrame0_end band skip full last] at answer
      have ended : frameSlot s = s.tapeEnded := answer.trans (nextSlot_meetEndOfTape session filling free_)
      refine (frameSlot_answered due ended ⟨ease.deferred, ease.held, ease.flush, ease.close, by simp [fetchDue, State.tapeEnded, State.watchEnded, State.intakeStopped],
        ease.awake, ease.elsewhere⟩ (.inl unsent)).trans ?_
      exact congrArg Host.Outcome.next (noteTarget_noted (s := s.tapeEnded) noted_)
    · intro off held rewrites chosen eot alone
      refine (frameSlot_answered due (t := s.sentBack k) ?_ (ease.congr rfl rfl rfl rfl ease.awake ease.elsewhere) (.inl unsent)).trans ?_
      · rw [frameSlot_eot (offered_ off) held rewrites chosen eot alone]
      · exact congrArg Host.Outcome.next (noteTarget_noted (s := s.sentBack k) noted_)
    · intro p off held rewrites first unrequired band skip pass before_ fits_
      refine (frameSlot_answered due (t := { s with wr.heldF0 := some k, mo.planned := p.count }) ?_
        (ease.congr rfl rfl rfl rfl ease.awake ease.elsewhere) (.inl unsent)).trans ?_
      · rw [frameSlot_begins (offered_ off) held rewrites first, chooseFrame0_free unrequired]
        exact startFrame0_skip band skip pass before_ fits_
      · exact congrArg Host.Outcome.next (noteTarget_noted (s := { s with wr.heldF0 := some k, mo.planned := p.count }) noted_)
    · intro off held rewrites first required skip bandTo low fits_
      refine frameSlot_answered due ?_ (ease.congr rfl rfl rfl rfl ease.awake (by simp [ramp])) (.inl unsent)
      rw [frameSlot_begins (offered_ off) held rewrites first, chooseFrame0, if_pos required]
      exact startFrame0_gap (by rw [bandTo, low]; exact required.2.1) skip fits_
    · intro off turnWait holds free_ fits_
      have may : Sendable k 0 s := holds.2.imp id fun ⟨sealed, unwritten, room⟩ => ⟨sealed, rfl, unwritten, room⟩
      refine frameSlot_answered due ?_ (sentCalm k 0) (.inr ⟨_, rfl, near⟩)
      rw [frameSlot_held (offered_ off) turnWait holds.1, heldFrame0, if_neg (by rintro ⟨clean, band⟩; exact free_.elim (· clean) band),
        if_pos (by exact fits_), sendFrame_eq may unmon between]
    · intro off turnWait held clean band low skip fits_
      refine frameSlot_answered due ?_ (ease.congr rfl rfl rfl rfl ease.awake (by simp [ramp])) (.inl unsent)
      rw [frameSlot_held (offered_ off) turnWait held, heldFrame0, if_pos ⟨clean, band⟩]
      exact startFrame0_gap (by rw [low]; exact band) skip fits_
    · intro busy
      refine (frameSlot_answered due (t := nextSlot s) ?_ (ease.congr rfl rfl rfl rfl ease.awake ease.elsewhere) (.inl unsent)).trans ?_
      · simp [frameSlot, pendingEnd, session, busy]
      · exact congrArg Host.Outcome.next (noteTarget_noted noted_)
    · rintro off held ⟨rewrites, none_, unsealed⟩ some_
      refine frameSlot_answered due ?_ (ease.congr rfl rfl rfl rfl ease.awake (by simp)) (.inl unsent)
      rw [frameSlot_nothing (offered_ off) held rewrites none_ unsealed]
      simp [declineSlot, some_, pendingEnd, nextSlot, next, Config.pitch]
    · rintro off turnWait held ⟨rewrites, none_, unsealed⟩ empty opened moving
      have answer := (frameSlot_nothing (offered_ off) (.inr held) rewrites none_ unsealed).trans
        (declineSlot_backhitch due empty pendingEnd turnWait opened moving)
      refine (frameSlot_answered due answer ?_ (.inl (by rw [noteTarget_eq]; exact unsent))).trans
        (congrArg Host.Outcome.next (noteTarget_idem _))
      rw [noteTarget_eq]
      exact ease.congr rfl rfl rfl rfl ease.awake (by simp [State.backhitching])
  · intro x k f s tx still unmon again e ended due
    obtain ⟨ease, noted_⟩ := (calm_iff s).mp still
    have completes (skipped : State) (h : transmissionComplete s = skipped) (calm : Calm skipped) (note : noted skipped = true) :
        exec .frameTransmissionComplete s = .next skipped := by
      simp only [exec, execFrameTransmissionComplete, h, settle_stands calm note]
    refine ⟨?_, ?_, ?_, ?_⟩
    · intro at_ none_
      refine completes ended ?_ (ease.congr rfl rfl rfl rfl ease.awake ease.elsewhere) noted_
      simp only [transmissionComplete, tx]
      rw [if_pos at_]
      split
      next a owed => exact absurd (none_.symm.trans owed) (by simp)
      next => rfl
    · intro early
      refine completes s ?_ ease noted_
      simp only [transmissionComplete, tx]
      rw [if_neg early]
    · intro at_ owed eot band onTape following room
      have skipped : transmissionComplete s = { s.placedAnew k f with
          wr.tx := none, mo.lastEnd := e, wr.skipStart := some { pass := e.pass, count := ahead e.pass e.count 3072 },
          mo.planned := ahead e.pass e.count 3072 } := by
        rw [transmissionComplete_skip tx at_ owed eot]
        simp only [skipInStream]
        rw [skipSlots_eq (s := ended) onTape following unmon]
        simp [State.placedAnew, ended, e, Config.skipGap, Config.segmentRoom, Nat.not_lt.mpr room, band]
      refine (completes _ skipped (ease.congr rfl rfl rfl rfl ease.awake ease.elsewhere) noted_).trans ?_
      cases f <;> rfl
    · intro at_ owed eot onTape following full lower
      have skipped : transmissionComplete s = { s.placedAnew k f with
          wr.tx := none, mo.lastEnd := e, wr.skipStart := some { pass := e.pass, count := ahead e.pass e.count 3072 }, wr.turnWait := true } := by
        rw [transmissionComplete_skip tx at_ owed eot]
        simp only [skipInStream]
        rw [skipSlots_eq (s := ended) onTape following unmon]
        simp [State.placedAnew, ended, e, Config.skipGap, Config.segmentRoom, full, lower]
      refine ⟨_, completes _ skipped (ease.congr rfl rfl rfl rfl ease.awake ease.elsewhere) noted_, rfl, rfl, rfl, rfl, rfl, rfl, ?_, ?_, rfl, rfl⟩
      · have placed := placement_anew onTape following
        exact placed.1
      · exact (placement_anew onTape following).2

/-! ### Checkpoints -/

/-- A read changes no byte, whichever class it belongs to. -/
theorem throughBytes_read {r : Req} (read : r.isWrite = false) (m : List Host.Cell) (rs : List Req) (a n : Nat) :
    throughBytes m (rs ++ [r]) a n = throughBytes m rs a n :=
  throughBytes_congr fun i _ _ => by simp [throughByte_append, overlay, read]

/-- A checkpoint has formed its rate and read the record (R166). -/
def State.rated (l : Layout) (rate : Nat) (s : State) : State :=
  { s with he.lastRate := rate, bp.reqs := s.bp.reqs ++ [readOf l.cartBase 16384 .plain] }

/-- How many of the loads before on other cartridges are at the soft limit (R167). -/
def othersAtSoft (s : State) : Nat := atSoft s.he.soft ((othersOf (driveSerial s) s.he.history.reverse).map DriveEntry.rate)

/-- The row of R167 that judges a rate. -/
theorem checkpoint_eq {l : Layout} {s : State} (bound : s.bp.layout = some l) : checkpoint s =
    let rate := loadRate s.he.tally
    let t := s.rated l rate
    if s.he.hard ≤ rate ∧ 2 ≤ othersAtSoft s then (if s.he.clean = .required then t else changeClean .required .checkpointHead t)
    else if s.he.soft ≤ rate ∧ 1 ≤ othersAtSoft s then (if s.he.clean = .ok then changeClean .advised .checkpointHead t else t)
    else if s.he.soft ≤ rate ∧ othersAtSoft s = 0 ∧ 2 ≤ atSoft s.he.soft (s.cart.hist.map TagLoad.rate) then
      (if s.he.mediaPosted then t
       else postNotice .mediaDegraded (s.cart.serial ++ leBytes 2 rate ++ (s.cart.hist.map TagLoad.rate).flatMap (leBytes 2))
         { t with he.mediaPosted := true })
    else t := by
  have cart : (s.rated l (loadRate s.he.tally)).cart = s.cart := by
    rw [cart_eq (s := s.rated l (loadRate s.he.tally)) bound, cart_eq bound, State.rated, throughBytes_readOf]
  have taken : consultCart { s with he.lastRate := loadRate s.he.tally } = s.rated l (loadRate s.he.tally) :=
    consultCart_eq (s := { s with he.lastRate := loadRate s.he.tally }) bound
  have serial : driveSerial (s.rated l (loadRate s.he.tally)) = driveSerial s := by unfold driveSerial; rw [cart]; rfl
  simp only [checkpoint, taken, cart, serial]
  rfl

theorem startAttention_eq (s : State) : startAttention s = { s with
    li.attn := if s.li.attn = .none then .pulseDue else s.li.attn, li.pulses := if s.li.attn = .none then 0 else s.li.pulses } := by
  unfold startAttention
  split <;> rfl

/-- A change of the cleaning state raises the attention (R168, R197). -/
def State.attention (s : State) : State := { s with
  li.attnClean := true, li.attn := if s.li.attn = .none then .pulseDue else s.li.attn, li.pulses := if s.li.attn = .none then 0 else s.li.pulses }

/-- The record of a change of the cleaning state at a checkpoint (R168). -/
def cleanRecord (old new : CleanState) (s : State) : Record :=
  noticeRecord .cleanStateChanged ([byteOf old.code, byteOf new.code, byteOf 1] ++ leBytes 4 s.he.meters ++ leBytes 2 s.he.lastRate)

theorem changeClean_advised {s : State} (open_ : cqOpen s = true) : changeClean .advised .checkpointHead s =
    State.attention { s with
      he.clean := .advised, he.escCount := 0, cq.queue := s.cq.queue ++ [cleanRecord s.he.clean .advised s] } := by
  obtain ⟨room, none_⟩ := (cqOpen_iff s).mp open_
  simp [changeClean, postAt, room, none_, startAttention_eq, cleanRecord, CleanCause.code, State.attention]
  done

theorem changeClean_required {s : State} (open_ : cqOpen s = true) (session : s.ri.session = .opened) (unmon : unmonitored .demotion s = true) :
    changeClean .required .checkpointHead s = State.attention { s with
      he.clean := .required, sp.c := 0, sp.promo := 0, sp.dwellOn := false, sp.dwellCount := 0,
      cq.queue := s.cq.queue ++ [cleanRecord s.he.clean .required s] } := by
  obtain ⟨room, none_⟩ := (cqOpen_iff s).mp open_
  have silent (t : State) (he : t.he.counters = s.he.counters) : offerToCounters .demotion t = t :=
    offerToCounters_unmonitored (by rw [← unmon, unmonitored_eq, he, unmonitored_eq])
  simp [changeClean, forceBand, sessionOpen, session, silent, postAt, room, none_, startAttention_eq, cleanRecord, CleanCause.code, State.attention]
  done

/-- The frame that brings the tally to a multiple of 4,096 makes a checkpoint (R166). -/
theorem sendFrame_checkpoint {s : State} {k i : Nat} (onTape : (slotAt s k).st = .onTape) (unmon : unmonitored .frameWritten s = true)
    (open_ : s.he.tallyOpen = true) (multiple : (min (s.he.tally.frames + 1) 4294967295) % 4096 = 0) :
    sendFrame k i s = checkpoint (s.frameSent k i) := by
  have counted (t : State) (he : t.he = s.he) : event .frameWritten t =
      checkpoint { t with he.tally := { s.he.tally with frames := min (s.he.tally.frames + 1) 4294967295 } } := by
    have offered := offerToCounters_unmonitored (s := { t with he.tally := tallyEvent .frameWritten t.he.tally })
      (by rw [← unmon, unmonitored_eq, unmonitored_eq, he])
    simp only [event, offered]
    rw [if_pos (by rw [he]; exact ⟨trivial, open_, multiple⟩), he]
    rfl
  rw [slotAt_eq] at onTape
  simp [sendFrame, setSlot, slotAt_eq, frameAt_eq, onTape, nextSlot, issueRead, slotBase, counted, Config.frameBytes, Config.pitch, isSealed,
    State.frameSent, Bool.decide_and]

/-- Settles O38: the frame that makes the checkpoint is sent, and the rate is judged by the rows of R167. -/
theorem checkpointJudged : Obligations.CheckpointJudged := by
  intro k i rest l s still unmon demotion near due pendingEnd session countBusy room held rewrites onTape tallyOpen few multiple bound open_ rate differs taken
    others tags tagsAtSoft sent judged raised changed atHard atSoft_ media
  obtain ⟨ease, noted_⟩ := (calm_iff s).mp still
  obtain ⟨free_, none_⟩ := (cqOpen_iff s).mp open_
  have full : min (s.he.tally.frames + 1) 4294967295 = s.he.tally.frames + 1 := by omega
  have answer : frameSlot s = checkpoint sent := by
    refine (frameSlot_rewrites ⟨pendingEnd, by simp [session], countBusy, room⟩ (.inr held) rewrites).trans
      ((sendFrame_checkpoint (s := s.dequeued rest) onTape unmon tallyOpen (by rw [← full] at multiple; exact multiple)).trans (congrArg checkpoint ?_))
    simp [State.frameSent, State.dequeued, slotAt_eq, frameAt_eq, slotBase, sent]
  have cart : sent.cart = s.cart := by
    rw [cart_eq (s := sent) bound, cart_eq bound]
    exact congrArg cartOf (throughBytes_read rfl ..)
  have serial : driveSerial sent = if s.ch.tagUnreadable then none else some s.cart.serial := by unfold driveSerial; rw [cart]; rfl
  have others_ : othersAtSoft sent = others := by
    have differs_ (e : DriveEntry) : (e.unknown || decide (driveSerial sent ≠ some e.serial)) = decide (differs e) := by
      have same : driveSerial sent ≠ some e.serial ↔ s.ch.tagUnreadable = true ∨ e.serial ≠ s.cart.serial := by
        rw [serial]
        by_cases unreadable : s.ch.tagUnreadable = true <;> simp [unreadable, eq_comm]
      rw [Bool.eq_iff_iff, Bool.or_eq_true, decide_eq_true_eq, decide_eq_true_eq, same]
    have each (e : DriveEntry) : (e.after && (e.unknown || decide (driveSerial sent ≠ some e.serial))) = decide (e.after = true ∧ differs e) := by
      rw [differs_, Bool.decide_and, Bool.decide_eq_true]
    simp only [othersAtSoft, atSoft, othersOf, each, List.filter_map, List.length_map]
    rfl
  have rate_ : loadRate sent.he.tally = rate := by
    show loadRate { s.he.tally with frames := min (s.he.tally.frames + 1) 4294967295 } = rate
    rw [full]
    exact if_neg (by simp)
  have judgment := answer.trans (checkpoint_eq (s := sent) bound)
  rw [others_, rate_, cart] at judgment
  dsimp only at judgment
  have judgedCalm : Calm judged := ease.congr rfl rfl rfl rfl ease.awake (by simp [judged, sent, State.frameSent])
  have tx : judged.wr.tx = none ∨ ∃ x, judged.wr.tx = some x ∧ gapOf s.mo.count x.start.count ≤ 24 := .inr ⟨_, rfl, near⟩
  refine ⟨?_, ?_, ?_, ?_, ?_, ?_⟩
  · intro hard fresh
    rw [if_pos (by exact hard), if_neg (by exact fresh), changeClean_required (by exact open_) (by exact session) (by exact demotion)] at judgment
    exact frameSlot_answered due judgment (judgedCalm.congr rfl rfl rfl rfl judgedCalm.awake judgedCalm.elsewhere) tx
  · intro hard stale
    rw [if_pos (by exact hard), if_pos (by exact stale)] at judgment
    exact frameSlot_answered due judgment judgedCalm tx
  · rintro ⟨easy, soft⟩ fresh
    rw [if_neg (by exact easy), if_pos (by exact soft), if_pos (by exact fresh), changeClean_advised (by exact open_)] at judgment
    exact frameSlot_answered due judgment (judgedCalm.congr rfl rfl rfl rfl judgedCalm.awake judgedCalm.elsewhere) tx
  · rintro ⟨easy, soft⟩ stale
    rw [if_neg (by exact easy), if_pos (by exact soft), if_neg (by exact stale)] at judgment
    exact frameSlot_answered due judgment judgedCalm tx
  · rintro ⟨soft, alone, tag⟩ fresh easy
    have unshared : ¬(s.he.soft ≤ rate ∧ 1 ≤ others) := by rintro ⟨-, some_⟩; omega
    rw [if_neg (by exact easy), if_neg (by exact unshared), if_pos (by exact ⟨soft, alone, tag⟩), if_neg (by rw [show sent.he.mediaPosted = false from fresh]; decide)] at judgment
    refine frameSlot_answered due (judgment.trans ?_) (judgedCalm.congr rfl rfl rfl rfl judgedCalm.awake judgedCalm.elsewhere) tx
    simp [postNotice, postAt, judged, sent, State.rated, State.frameSent, free_, none_, tags]
  · rintro easy fine rest_
    have unshared : ¬(s.he.soft ≤ rate ∧ 1 ≤ others) := fun soft => fine ⟨easy, soft⟩
    rw [if_neg (by exact easy), if_neg (by exact unshared)] at judgment
    refine frameSlot_answered due (judgment.trans ?_) judgedCalm tx
    by_cases worn : media
    · have posted_ : s.he.mediaPosted = true := rest_.resolve_left (not_not_intro worn)
      rw [if_pos (by exact worn), if_pos (by exact posted_)]
      rfl
    · rw [if_neg (by exact worn)]
      rfl

end Sys2Proof.Machine
end

section
/-! SUPPORT. Proofs about verify results and the commit (Sections 6.5 and 6.6). -/

namespace Sys2Proof.Machine
/-- A failed frame is queued once more, in the slot's entry and in the queue (R116). -/
theorem queueRewrite_used {s : State} {k i : Nat} (used : (slotAt s k).st ≠ .free) : queueRewrite k i s = { s with
    sm.slots := s.sm.slots.set k { slotAt s k with
      frames := (slotAt s k).frames.set i { frameAt s k i with st := .rewriteQueued }, rewrites := (slotAt s k).rewrites + 1 },
    wr.rewriteQ := s.wr.rewriteQ ++ [(k, i)] } := by
  rw [slotAt_eq] at used
  simp [queueRewrite, setFrame, setSlot, slotAt_eq, slotOf_set used, used, frameAt_eq]

theorem setFrame_used {s : State} {k i : Nat} (used : (slotAt s k).st ≠ .free) (v : FrameEntry) :
    setFrame k i v s = { s with sm.slots := s.sm.slots.set k { slotAt s k with frames := (slotAt s k).frames.set i v } } :=
  setSlot_used used used

/-- The only segment on tape has no other to follow it (R116). -/
theorem followingOf_only {s : State} {k : Nat} (only : slotsIn isOnTape s = [k]) : followingOf s k = none := by
  simp [followingOf, only]

/-- A step that touches one entry alone brings no other segment on tape. -/
theorem onTape_only {s t : State} {j k : Nat} (only : slotsIn isOnTape s = [k]) (others : ∀ j, j ≠ k → slotAt t j = slotAt s j)
    (slots : t.sm.slots.length = s.sm.slots.length) (mem : j ∈ slotsIn isOnTape t) : j = k := by
  obtain ⟨lt, onTape⟩ := (mem_slotsIn _ _ _).mp mem
  by_contra other
  have mem : j ∈ slotsIn isOnTape s := (mem_slotsIn _ _ _).mpr ⟨slots ▸ lt, others j other ▸ onTape⟩
  exact other (by simpa [only] using mem)

/-- Once slot k alone is on tape, nothing but it can be committed (R120). -/
theorem commitReady_not {s t : State} {k : Nat} (only : slotsIn isOnTape s = [k]) (others : ∀ j, j ≠ k → slotAt t j = slotAt s j)
    (slots : t.sm.slots.length = s.sm.slots.length) (left : (slotAt t k).frames.any (fun f => decide (f.st ≠ .good)) = true) (n : Nat) :
    commitReady n t = t := by
  cases n with
  | zero => rfl
  | succ n =>
    unfold commitReady
    split
    next j js first =>
      obtain rfl := onTape_only only others slots (first ▸ List.mem_cons_self : j ∈ slotsIn isOnTape t)
      obtain ⟨f, mem, bad⟩ := List.any_eq_true.mp left
      rw [if_neg]
      intro all
      exact absurd (List.all_eq_true.mp all f mem) (by simpa using bad)
    next => rfl

/-- The machine whose verify queue is `rest` (R115). -/
abbrev State.awaiting (rest : List VerifyEntry) (s : State) : State := { s with wr.verifyQ := rest }

/-- A frame that has been verified (R115). -/
def State.verified (v : VerifyEntry) (rest : List VerifyEntry) (s : State) : State := { s.awaiting rest with
  sm.slots := s.sm.slots.set v.slot { slotAt s v.slot with
    frames := (slotAt s v.slot).frames.set v.idx { frameAt s v.slot v.idx with st := .good } } }

section
variable {v : VerifyEntry} {rest : List VerifyEntry} {s : State}

theorem verifyResult_void (live : s.wr.discard = false) (queue : s.wr.verifyQ = v :: rest) (void : v.isVoid = true) (id : FrameId) (st : FrameStatus) :
    verifyResult id st s = s.awaiting rest := by
  simp [verifyResult, live, queue, void]

/-- The identity that came back is another, or the frame is bad (R115). -/
theorem verifyResult_fails {id : FrameId} {st : FrameStatus} (live : s.wr.discard = false) (queue : s.wr.verifyQ = v :: rest) (valid : v.isVoid = false)
    (bad : v.id ≠ id ∨ st = .uncorrectable) : verifyResult id st s = failFrame v.slot v.idx (s.awaiting rest) := by
  unfold verifyResult
  rw [if_neg (by simp [live]), queue]
  simp only [valid]
  rcases bad with other | rfl
  · simp [other]
  · simp

theorem verifyResult_good (live : s.wr.discard = false) (queue : s.wr.verifyQ = v :: rest) (valid : v.isVoid = false)
    (used : (slotAt s v.slot).st ≠ .free) : verifyResult v.id .good s = commitReady 2 (s.verified v rest) := by
  unfold verifyResult
  rw [if_neg (by simp [live]), queue]
  simp only [valid]
  simp only [Bool.false_eq_true, if_false, ne_eq, not_true_eq_false]
  rw [setFrame_used (by exact used)]
  rfl

theorem verifyResult_corrected (live : s.wr.discard = false) (queue : s.wr.verifyQ = v :: rest) (valid : v.isVoid = false)
    (used : (slotAt s v.slot).st ≠ .free) (n : Nat) :
    verifyResult v.id (.corrected n) s = commitReady 2 (if s.sp.policy.heavy < n then event .frameHeavy (s.verified v rest) else s.verified v rest) := by
  unfold verifyResult
  rw [if_neg (by simp [live]), queue]
  simp only [valid]
  simp only [Bool.false_eq_true, if_false, ne_eq, not_true_eq_false]
  rw [setFrame_used (by exact used)]
  rfl
end

/-- The session ended with WRITE_ERROR, its only segment on tape given back (R118, R127). -/
def State.writeFailed (k : Nat) (s : State) : State := { s.watchEnded.intakeStopped with
  ri.session := .error, ri.err := some .writeError, li.lastErr := .writeError,
  wr.verifyQ := [], wr.rewriteQ := [], wr.tx := none, wr.heldF0 := none, wr.turnWait := false, wr.skipStart := none, wr.abandon := none,
  wr.pendingEnd := .none, mo.bandTo := none, sm.slots := s.sm.slots.set k (freshSlot .sealed (slotAt s k).seg),
  he.tally := tallyEvent .writeError s.he.tally,
  cq.queue := s.cq.queue ++ [noticeRecord .sessionError ([6] ++ leBytes 4 s.ri.lastComplete)] }

theorem meetWriteError_eq {s : State} {k : Nat} (opened : s.ri.session = .opened) (filling : s.ri.filling = none) (open_ : cqOpen s = true)
    (unmon : unmonitored .writeError s = true) (active : s.ch.transport = .active) (mode : s.mo.mode = some .writeStream) (mask : s.mo.mask = false)
    (only : slotsIn isOnTape s = [k]) : meetWriteError s = startPlan [stopLeg .ramp] .toReady (s.writeFailed k) := by
  obtain ⟨room, none_⟩ := (cqOpen_iff s).mp open_
  have counted (t : State) (he : t.he = s.he) : event .writeError t = { t with he.tally := tallyEvent .writeError s.he.tally } := by
    rw [event_unmonitored (by rw [unmonitored_eq, he, ← unmonitored_eq]; exact unmon) (by decide), he]
  have onTape : (slotAt s k).st = .onTape := by
    have mem : k ∈ slotsIn isOnTape s := by simp [only]
    simpa [isOnTape] using ((mem_slotsIn _ _ _).mp mem).2
  have code : byteOf Status.writeError.code = 6#8 := rfl
  rw [slotsIn_eq] at only
  rw [slotAt_eq] at onTape
  simp [meetWriteError, sessionError, opened, dropWriter, stopIntake, forgetAll, stopWatch, sealSlot, filling, freeEmptyFilling, only,
    allBackToSealed, backToSealed, setSlot, slotAt_eq, onTape, freshSlot, postSessionError, stopThen, planMotion, slotsIn_eq, State.writeFailed, State.watchEnded, State.intakeStopped, frontier, noteStatus, postAt, room, none_, counted, active, mode, mask, code]

/-- A tape that is not at rest is ramped to rest, with the goal noted (R44, R45). -/
def State.stopping (g : Goal) (s : State) : State := { s with
  mo.stands := none, rd.start := none, mo.goal := g, mo.passWait := false, mo.bandTo := none, pw.dwell := false,
  mo.mode := some .ramp, mo.legs := [stopLeg .ramp], mo.dest := 0, mo.stopping := true, mo.into := none }

theorem startPlan_stop {s : State} (active : s.ch.transport = .active) (g : Goal) :
    startPlan [stopLeg .ramp] g s = noteTarget (s.stopping g) := by
  simp [startPlan, enterActive, active, motionStart, beginLegs, stopLeg, State.stopping]

/-- What the note leaves alone. -/
theorem noteTarget_frame (s : State) : ∃ re ch, noteTarget s = { s with re := re, ch := ch } := by
  rw [noteTarget_eq]; exact ⟨_, _, rfl⟩

/-- Once the note is taken in a calm part, nothing follows. -/
theorem Calm.settle_noteTarget {s : State} (still : Calm s) : settle (noteTarget s) = noteTarget s := by
  have calm : Calm (noteTarget s) := by
    rw [noteTarget_eq]; exact still.congr rfl rfl rfl rfl still.awake still.elsewhere
  exact calm.settle_eq.trans (noteTarget_idem s)

/-- The verify entries of slot k void (R117). -/
def State.voided (k : Nat) (s : State) : State := { s with
  wr.verifyQ := s.wr.verifyQ.map (fun w => if w.slot = k then { w with isVoid := true } else w) }

theorem abandonPlacement_eq {k : Nat} {s : State} (eot : s.wr.eot = false) :
    abandonPlacement { slot := k, following := none } s =
      if (slotAt s k).placement = 2 then meetWriteError (s.voided k)
      else if s.wr.tx.isSome then { s.voided k with wr.abandon := some { slot := k, following := none } }
      else skipInStream { slot := k, following := none } (s.voided k) := by
  have voids (w : VerifyEntry) : k = w.slot ↔ w.slot = k := eq_comm
  simp only [abandonPlacement, Abandonment.has, reduceCtorEq, decide_false, Bool.or_false, decide_eq_true_eq, voids, secondAlready]
  rw [if_neg (by simp [eot])]
  rfl

/-! ### The EOD of a record that has been written -/

/-- What stands behind the head of an image (12.7). -/
theorem cartImage_split (c : Cart) : ∃ rest, cartImage c = (cartHead c ++ (leBytes 2 c.marks.length ++ [0, 0])) ++ (eodBytes c.eod ++ rest) := by
  unfold cartImage cartBody cartHead
  simp only [List.append_assoc]
  exact ⟨_, rfl⟩

/-- A field of the EOD entry of an image. -/
theorem field_cartImage_eod {off n : Nat} (within : off + n ≤ 16) (c : Cart) : field (cartImage c) (20 + off) n = field (eodBytes c.eod) off n := by
  obtain ⟨rest, split⟩ := cartImage_split c
  have length : (cartHead c ++ (leBytes 2 c.marks.length ++ [0, 0])).length = 20 := by simp [cartHead_length]
  rw [field, split, slice_append_right (by omega), length, slice_append_left (by rw [eodBytes_length]; omega), field]
  simp

theorem eod_cartImage {c : Cart} {e : Eod} (some_ : c.eod = some e) (seg : e.seg < 4294967296) (first : e.firstRec < 4294967296) :
    ∃ p, (cartOf (cartImage c)).eod = some { seg := e.seg, firstRec := e.firstRec, pos := p } := by
  have present : (cartOf (cartImage c)).eod.isSome = true := by rw [eod_isSome_cartImage, some_]; rfl
  rw [show (cartOf (cartImage c)).eod = eodOf (cartImage c) from rfl, eodOf] at present ⊢
  split at present
  case isFalse => simp at present
  case isTrue bit =>
    have segField : field (cartImage c) 20 4 = e.seg := by
      rw [field_cartImage_eod (off := 0) (by decide), some_]
      simp [field, eodBytes, slice, leNat_leBytes, seg]
    have firstField : field (cartImage c) 24 4 = e.firstRec := by
      rw [field_cartImage_eod (off := 4) (by decide), some_]
      simp [field, eodBytes, slice, leNat_leBytes, first]
    rw [if_pos bit, segField, firstField]
    exact ⟨_, rfl⟩

/-! ### Commit (R120) -/

/-- The record with the segment of slot k entered, and the EOD behind it (R14, R120). -/
def State.committedCart (k : Nat) (s : State) : Cart :=
  let entered := enterSegment (slotAt s k).seg (trailerFirst (slotTrailer s k)) ((slotAt s k).f0.getD bot) s.cart
  { entered with
    eod := some { seg := (slotAt s k).seg + 1, firstRec := segmentNextRec s k, pos := s.mo.lastEnd },
    openFlag := s.cart.openFlag || decide (s.wr.openAsked = false ∧ s.ch.tagUnreadable = false) }

/-- The machine with the segment of slot k committed (R120). -/
def State.committed (l : Layout) (k : Nat) (s : State) : State := { s with
  sm.slots := s.sm.slots.set k (freshSlot .free 0), sm.free := s.sm.free ++ [k], mo.lp := some (segmentNextRec s k), rd.start := none,
  bp.reqs := s.bp.reqs ++ [readOf (slotBase s k + 917440) 64 .plain,
    readOf (slotBase s k + entryAt (trailerEntries (slotTrailer s k) - 1)) 16 .plain, readOf l.cartBase 16384 .plain,
    partWrite l.cartBase (cartImage (s.committedCart k)) .plain] }

/-- The tag write of the open flag asked for (R16). -/
def State.openAsked (c : Cart) (s : State) : State := { s with wr.openAsked := true, wr.openBusy := true, ch.tagOut := tagBlock c s.ch.tagRest }

theorem readThrough_readOf {s t : State} {a n : Nat} (mem : t.mem = s.mem) (reqs : t.bp.reqs = s.bp.reqs ++ [readOf a n .plain]) (b m : Nat) :
    readThrough t b m = readThrough s b m := by
  rw [readThrough_eq, readThrough_eq, mem, reqs, throughBytes_readOf]

theorem commitSlot_eq {s : State} {l : Layout} {k : Nat} (bound : s.bp.layout = some l) (used : (slotAt s k).st ≠ .free) :
    commitSlot k s = checkClose (checkFlush
      (if s.wr.openAsked = false ∧ s.ch.tagUnreadable = false then (s.committed l k).openAsked (s.committedCart k) else s.committed l k)) := by
  let read : State := consultSlot k Config.trailerAt 64 s
  have reqs : read = { s with bp.reqs := s.bp.reqs ++ [readOf (slotBase s k + 917440) 64 .plain] } := consult_internal (by decide) _ _
  have trailer : slotTrailer read k = slotTrailer s k := by
    have base : slotBase read k = slotBase s k := by rw [reqs]; rfl
    simp only [slotTrailer, slotRead, base]
    exact readThrough_readOf (by rw [reqs]) (by rw [reqs]) _ _
  have last : consultLast k read = { s with bp.reqs := s.bp.reqs ++ [readOf (slotBase s k + 917440) 64 .plain] ++
      [readOf (slotBase s k + entryAt (trailerEntries (slotTrailer s k) - 1)) 16 .plain] } := by
    rw [consultLast, trailer, reqs]
    exact consult_internal (by decide) _ _
  have cart : (consultLast k read).cart = s.cart := by
    rw [cart_eq (s := consultLast k read) (l := l) (by rw [last]; exact bound), cart_eq bound, last]
    simp only [throughBytes_readOf]
  have wr : (consultLast k read).wr = s.wr := by rw [last]
  have ch : (consultLast k read).ch = s.ch := by rw [last]
  have mo : (consultLast k read).mo = s.mo := by rw [last]
  have put : freeSlot k (putCart (s.committedCart k) { consultLast k read with mo.lp := some (segmentNextRec s k), rd.start := none }) =
      s.committed l k := by
    rw [putCart_eq (l := l) (by rw [last]; exact bound), last]
    simp only [freeSlot, slotAt_eq]
    rw [slotAt_eq] at used
    simp [used, State.committed]
  simp only [commitSlot]
  rw [show consultSlot k Config.trailerAt 64 s = read from rfl, cart, wr, ch, mo]
  have ask : (!s.wr.openAsked && !s.ch.tagUnreadable) = decide (s.wr.openAsked = false ∧ s.ch.tagUnreadable = false) := by
    cases s.wr.openAsked <;> cases s.ch.tagUnreadable <;> rfl
  rw [ask]
  simp only [decide_eq_true_eq]
  split
  · rw [← put]
    rfl
  · rw [← put]
    rfl

theorem commitReady_none {s : State} (none_ : slotsIn isOnTape s = []) (n : Nat) : commitReady n s = s := by
  cases n with
  | zero => rfl
  | succ n => simp [commitReady, none_]

/-- Nothing is left of a kind of which slot k was the only one, once that slot is free (R108). -/
theorem slotsIn_freed {f : SlotState → Bool} {s t : State} {k : Nat} (only : slotsIn f s = [k]) (free : f .free = false)
    (slots : t.sm.slots = s.sm.slots.set k (freshSlot .free 0)) : slotsIn f t = [] := by
  rw [List.eq_nil_iff_forall_not_mem]
  intro j mem
  obtain ⟨lt, is_⟩ := (mem_slotsIn _ _ _).mp mem
  rw [slotAt_eq, slots] at is_
  rw [slots, List.length_set] at lt
  by_cases same : j = k
  · subst same
    rw [slotOf, List.getD_eq_getElem?_getD, List.getElem?_set_self lt] at is_
    exact absurd (free.symm.trans is_) (by decide)
  · rw [slotOf_set_ne same, ← slotAt_eq] at is_
    have mem' : j ∈ slotsIn f s := (mem_slotsIn _ _ _).mpr ⟨lt, is_⟩
    exact same (by simpa [only] using mem')

theorem inc32_lt (n : Nat) : inc32 n < 4294967296 := Nat.mod_lt _ (by decide)

theorem leNat_lt (bs : List Byte) : leNat bs < 256 ^ bs.length := by
  induction bs with
  | nil => simp [leNat]
  | cons b bs ih =>
    have byte := b.isLt
    simp only [leNat, List.length_cons, Nat.pow_succ]
    omega

theorem field_lt (bs : List Byte) (off n : Nat) : field bs off n < 256 ^ n := by
  refine (leNat_lt _).trans_le (Nat.pow_le_pow_right (by decide) ?_)
  simp [slice, List.length_take]

theorem segmentNextRec_lt (s : State) (k : Nat) : segmentNextRec s k < 4294967296 := by
  simp only [segmentNextRec]
  split
  · exact inc32_lt _
  · exact field_lt _ 0 4

/-- The EOD that a commit leaves, as the part next reads it (R120). -/
theorem eod_committed {s : State} {l : Layout} {k : Nat} (bound : s.bp.layout = some l) (seg : (slotAt s k).seg < 4294967295) :
    ∃ p, (s.committed l k).cart.eod = some { seg := (slotAt s k).seg + 1, firstRec := segmentNextRec s k, pos := p } := by
  have area : throughBytes s.mem (s.committed l k).bp.reqs l.cartBase 16384 = cartImage (s.committedCart k) := by
    rw [← cartOf_written s.mem (s.bp.reqs ++ [readOf (slotBase s k + 917440) 64 .plain,
      readOf (slotBase s k + entryAt (trailerEntries (slotTrailer s k) - 1)) 16 .plain, readOf l.cartBase 16384 .plain]) l.cartBase _ .plain]
    simp [State.committed]
  rw [cart_eq (s := s.committed l k) (l := l) bound, show (s.committed l k).mem = s.mem from rfl, area]
  exact eod_cartImage (e := { seg := (slotAt s k).seg + 1, firstRec := segmentNextRec s k, pos := s.mo.lastEnd }) rfl (Nat.succ_lt_succ seg)
    (segmentNextRec_lt s k)


/-! Memory and the requests decide what the part reads. -/
section
variable {s t : State} (mem : t.mem = s.mem) (bp : t.bp = s.bp)
include mem bp

theorem readThrough_congr (a n : Nat) : readThrough t a n = readThrough s a n := by rw [readThrough_eq, readThrough_eq, mem, bp]

theorem slotRead_congr (k off n : Nat) : slotRead t k off n = slotRead s k off n := by
  rw [slotRead, readThrough_congr mem bp, slotRead, slotBase, slotBase, bp]

theorem slotTrailer_congr (k : Nat) : slotTrailer t k = slotTrailer s k := slotRead_congr mem bp k _ 64

theorem segmentNextRec_congr (k : Nat) : segmentNextRec t k = segmentNextRec s k := by
  unfold segmentNextRec slotEntry
  dsimp only
  rw [slotTrailer_congr mem bp, slotRead_congr mem bp]

theorem cart_congr : t.cart = s.cart := by
  unfold State.cart cartArea
  rw [bp]
  split
  · rfl
  · rw [readThrough_congr mem bp]

end

section
variable {v : VerifyEntry} {rest : List VerifyEntry} {l : Layout} {s : State}

theorem slotAt_verified (used : (slotAt s v.slot).st ≠ .free) : slotAt (s.verified v rest) v.slot = { slotAt s v.slot with
    frames := (slotAt s v.slot).frames.set v.idx { frameAt s v.slot v.idx with st := .good } } := slotOf_set used _

theorem committedCart_verified (used : (slotAt s v.slot).st ≠ .free) : (s.verified v rest).committedCart v.slot = s.committedCart v.slot := by
  unfold State.committedCart
  rw [slotAt_verified used, cart_congr (t := s.verified v rest) (s := s) rfl rfl, slotTrailer_congr (t := s.verified v rest) (s := s) rfl rfl,
    segmentNextRec_congr (t := s.verified v rest) (s := s) rfl rfl]
  rfl

theorem committed_verified (used : (slotAt s v.slot).st ≠ .free) :
    (s.verified v rest).committed l v.slot = { s.committed l v.slot with wr.verifyQ := rest } := by
  unfold State.committed
  rw [committedCart_verified used, slotTrailer_congr (t := s.verified v rest) (s := s) rfl rfl,
    segmentNextRec_congr (t := s.verified v rest) (s := s) rfl rfl]
  simp only [State.verified, List.set_set]
  rfl

end

/-- Settles O39: a result that is judged, queued again, abandoned, or that commits its segment. -/
theorem verifyResultJudged : Obligations.VerifyResultJudged := by
  refine ⟨?_, ?_⟩
  · intro v rest id st n s calm_ unmonRw unmonHeavy used x good popped whole head limits requeued left
    obtain ⟨still, noted_⟩ := (calm_iff s).mp calm_
    have still' (t : State) (ci : t.ci = s.ci) (ri : t.ri = s.ri) (bp : t.bp = s.bp) (flush : t.wr.flush = s.wr.flush) (close : t.wr.close = s.wr.close)
        (ch : t.ch = s.ch) (mo : t.mo = s.mo) : Calm t :=
      still.congr (by rw [ci]) ri (by rw [bp]) (by rw [flush, close]) (by rw [ch]; exact still.awake) (by rw [ch, mo]; exact still.elsewhere)
    have counted (e : Ev) (ne : e ≠ .frameWritten) (unmon : unmonitored e s = true) (t : State) (he : t.he = s.he) :
        event e t = { t with he.tally := tallyEvent e s.he.tally } := by
      rw [event_unmonitored (by rw [unmonitored_eq, he, ← unmonitored_eq]; exact unmon) ne, he]
    -- a result is judged and nothing follows
    have judged (h : head) (st : FrameStatus) (t : State) (answer : verifyResult id st s = t) (settles : settle t = t) :
        exec (.verifyResult id st) s = .next t := by
      simp only [exec, execVerifyResult, answer, settles, h.2]
      simp
    have fails (limits_ : limits) : failFrame v.slot v.idx (s.awaiting rest) = requeued := by
      obtain ⟨count, rewrites, room⟩ := limits_
      have may : mayRewrite (s.awaiting rest) v.slot v.idx = true := by simp [mayRewrite]; exact ⟨⟨count, rewrites⟩, room⟩
      rw [failFrame, if_pos may, queueRewrite_used (s := s.awaiting rest) used, counted .frameRewrite (by decide) unmonRw _ (by rfl)]
      rfl
    have gives (limits_ : ¬limits) (only : slotsIn isOnTape s = [v.slot]) :
        failFrame v.slot v.idx (s.awaiting rest) = abandonPlacement { slot := v.slot, following := none } (s.awaiting rest) := by
      have may : mayRewrite (s.awaiting rest) v.slot v.idx = false := by
        simp only [mayRewrite, ← Bool.decide_and, decide_eq_false_iff_not, and_assoc]; exact limits_
      have following : followingOf (s.awaiting rest) v.slot = none := followingOf_only (by rw [slotsIn_eq] at only ⊢; exact only)
      rw [failFrame, if_neg (by simp [may]), following]
    have notYet (t : State) (sm : t.sm = whole.sm) (only : slotsIn isOnTape s = [v.slot]) (left_ : left) : commitReady 2 t = t :=
      commitReady_not only (fun j other => by rw [slotAt_eq, sm, slotAt_eq]; exact slotOf_set_ne other _) (by rw [sm]; exact List.length_set)
        (by rw [slotAt_eq, sm, show whole.sm.slots = s.sm.slots.set v.slot { x with frames := good } from rfl, slotOf_set used]; exact left_) 2
    refine ⟨fun none_ => ?_, fun h void => ?_, fun h valid mine only left_ => ?_, fun h valid mine only left_ light => ?_,
      fun h valid mine only left_ heavy => ?_, fun h valid other limits_ => ?_, fun h valid limits_ => ?_,
      fun h valid limits_ only eot placement tx => ?_,
      fun h valid limits_ only eot placement opened filling open_ unmon active mode mask moving => ?_⟩
    · have same : verifyResult id st s = s := by
        rcases none_ with discard | empty
        · simp [verifyResult, discard]
        · simp [verifyResult, empty]
      simp only [exec, execVerifyResult, same, settle_stands still noted_, ite_self]
    · exact judged h st popped (verifyResult_void h.1 h.2 void id st) (settle_stands (still' _ rfl rfl rfl rfl rfl rfl rfl) noted_)
    · subst mine
      exact judged h .good whole ((verifyResult_good h.1 h.2 valid used).trans (notYet _ rfl only left_))
        (settle_stands (still' _ rfl rfl rfl rfl rfl rfl rfl) noted_)
    · subst mine
      refine judged h _ whole ?_ (settle_stands (still' _ rfl rfl rfl rfl rfl rfl rfl) noted_)
      rw [verifyResult_corrected h.1 h.2 valid used, if_neg (Nat.not_lt.mpr light)]
      exact notYet _ rfl only left_
    · subst mine
      refine judged h _ { whole with he.tally := tallyEvent .frameHeavy s.he.tally } ?_ (settle_stands (still' _ rfl rfl rfl rfl rfl rfl rfl) noted_)
      rw [verifyResult_corrected h.1 h.2 valid used, if_pos heavy, counted .frameHeavy (by decide) unmonHeavy (s.verified v rest) rfl]
      exact notYet _ rfl only left_
    · exact judged h _ _ ((verifyResult_fails h.1 h.2 valid (.inl other)).trans (fails limits_)) (settle_stands (still' _ rfl rfl rfl rfl rfl rfl rfl) noted_)
    · exact judged h _ _ ((verifyResult_fails h.1 h.2 valid (.inr rfl)).trans (fails limits_)) (settle_stands (still' _ rfl rfl rfl rfl rfl rfl rfl) noted_)
    · refine judged h _ _ ((verifyResult_fails h.1 h.2 valid (.inr rfl)).trans ?_) (settle_stands (still' _ rfl rfl rfl rfl rfl rfl rfl) noted_)
      rw [gives limits_ only, abandonPlacement_eq (by exact eot), if_neg (fun second => absurd (second.symm.trans placement) (by decide)), if_pos (by exact tx)]
      rfl
    · have met : verifyResult id .uncorrectable s = noteTarget ((((s.awaiting rest).voided v.slot).writeFailed v.slot).stopping .toReady) := by
        rw [verifyResult_fails h.1 h.2 valid (.inr rfl), gives limits_ only, abandonPlacement_eq (by exact eot), if_pos (by exact placement),
          meetWriteError_eq (s := (s.awaiting rest).voided v.slot) (k := v.slot) opened filling open_ unmon active mode mask (by rw [slotsIn_eq] at only ⊢; exact only)]
        exact startPlan_stop (by exact active) _
      obtain ⟨re, ch, frame⟩ := noteTarget_frame ((((s.awaiting rest).voided v.slot).writeFailed v.slot).stopping .toReady)
      refine ⟨_, judged h _ _ met (Calm.settle_noteTarget ?_), ?_⟩
      · refine ⟨still.deferred, still.held, still.flush, still.close, by simp [fetchDue, State.stopping, State.writeFailed, State.watchEnded, State.intakeStopped], still.awake, ?_⟩
        simp [State.stopping]
      · rw [frame]
        exact ⟨rfl, rfl, rfl, rfl, rfl, rfl, rfl, rfl, rfl, rfl, rfl, rfl, rfl, rfl, rfl, rfl, rfl⟩
  · intro v rest id tag target l s steady_ held fetch active mode bound live queue valid mine only onTape x trailer r ask entered c freed flushing closing waits whole
    subst mine
    obtain ⟨deferred, noted_⟩ := (steady_iff s).mp steady_
    have used : (slotAt s v.slot).st ≠ .free := by rw [onTape]; decide
    have same : slotAt (s.verified v rest) v.slot = { x with frames := x.frames.set v.idx { frameAt s v.slot v.idx with st := .good } } := slotOf_set used _
    have freed_ : (s.verified v rest).committed l v.slot = freed := committed_verified used
    have cart_ : (s.verified v rest).committedCart v.slot = c := committedCart_verified used
    have eod (seg : x.seg < 4294967295) : eodSeg freed = x.seg + 1 ∧ eodRec freed = r := by
      obtain ⟨p, eod⟩ := eod_committed (s := s) (l := l) (k := v.slot) bound seg
      rw [← cart_congr (s := s.committed l v.slot) (t := freed) rfl rfl] at eod
      exact ⟨by rw [eodSeg, eod]; rfl, by rw [eodRec, eod]; rfl⟩
    -- the one segment on tape is committed, and nothing else
    have committed (t : State) (sm : t.sm = freed.sm)
        (then_ : checkClose (checkFlush (if ask then freed.openAsked c else freed)) = t) :
        verifyResult v.id .good s = t := by
      have onTapeThen : v.slot ∈ slotsIn isOnTape (s.verified v rest) := by
        refine (mem_slotsIn _ _ _).mpr ⟨?_, by rw [same]; exact decide_eq_true onTape⟩
        rw [show (s.verified v rest).sm.slots.length = s.sm.slots.length from List.length_set]
        exact slot_lt (by exact used)
      obtain ⟨j, js, first⟩ := List.exists_cons_of_ne_nil (List.ne_nil_of_mem onTapeThen)
      obtain rfl := onTape_only (t := s.verified v rest) only (fun i other => slotOf_set_ne other _) List.length_set (first ▸ List.mem_cons_self : j ∈ _)
      rw [verifyResult_good live queue valid used, commitReady, first]
      simp only
      rw [if_pos (by rw [same]; exact whole), commitSlot_eq (s := s.verified v rest) (l := l) bound (by rw [same]; exact used), freed_, cart_]
      rw [show (if (s.verified v rest).wr.openAsked = false ∧ (s.verified v rest).ch.tagUnreadable = false then freed.openAsked c else freed) =
        if ask then freed.openAsked c else freed from rfl, then_]
      exact commitReady_none (slotsIn_freed only rfl (by rw [sm])) 1
    have judged (t : State) (answer : verifyResult v.id .good s = t) (settles : settle t = t) :
        exec (.verifyResult v.id .good) s = .next t := by
      simp only [exec, execVerifyResult, answer, settles, queue]
      simp
    refine ⟨fun flush close told => ?_, fun flush close told => ?_, fun flushing_ waits_ told reached_ => ?_, fun flushing_ waits_ told short => ?_, fun closing_ waits_ told => ?_⟩
    · refine judged _ (committed freed rfl ?_) (settle_stands ⟨deferred, held, flush, close, fetch, by simp [freed, active], by simp [freed, mode]⟩ noted_)
      rw [if_neg told, checkFlush_none (by exact flush), checkClose_off (by exact close)]
    · refine judged _ (committed (freed.openAsked c) rfl ?_) (settle_stands ⟨deferred, held, flush, close, fetch, by simp [freed, active], by simp [freed, mode]⟩ noted_)
      rw [if_pos told, checkFlush_none (by exact flush), checkClose_off (by exact close)]
    · obtain ⟨close, flush, opened⟩ := flushing_
      obtain ⟨running, open_, cancelled, ready, seg⟩ := waits_
      obtain ⟨eodSeg_, eodRec_⟩ := eod seg
      have done : checkFlush freed = { freed with
          wr.flush := none, ci.write := Job.clear, cq.queue := s.cq.queue ++
            [completionRecord { tag := tag, op := .flush } .ok 0 (.recordNumber ((r + 4294967295) % 4294967296))] } := by
        have posts : complete .write .ok 0 (.recordNumber ((r + max32) % two32)) { freed with wr.flush := none } = _ :=
          complete_posts (c := { tag := tag, op := .flush }) (j := .write) running open_ (by simp [freed, cancelled])
        simp only [checkFlush]
        rw [show freed.wr.flush = some (some target) from flush, show freed.ri.session = .opened from opened]
        simp only [eodSeg_, eodRec_]
        rw [if_pos reached_, posts]
        rfl
      refine judged _ (committed _ rfl ?_) (settle_stands ⟨deferred, held, rfl, close, fetch, by simp [freed, active], by simp [freed, mode]⟩ noted_)
      rw [if_neg told, done, checkClose_off (by exact close)]
    · obtain ⟨close, flush, opened⟩ := flushing_
      obtain ⟨running, open_, cancelled, ready, seg⟩ := waits_
      obtain ⟨eodSeg_, eodRec_⟩ := eod seg
      have waits : checkFlush freed = freed := by
        simp only [checkFlush]
        rw [show freed.wr.flush = some (some target) from flush, show freed.ri.session = .opened from opened]
        simp only [eodSeg_]
        rw [if_neg (Nat.not_le.mpr short)]
      refine judged _ (committed freed rfl ?_) ?_
      · rw [if_neg told, waits, checkClose_off (by exact close)]
      · have noted' : noteTarget freed = freed := noteTarget_noted noted_
        simp only [settle, judgeDeferred_none (s := freed) deferred, waits, checkClose_off (s := freed) close, rejudgeHeld_none (s := freed) held,
          startFetch_off (s := freed) fetch, checkExhaustion_awake (s := freed) (by simp [freed, active]), checkRestart_elsewhere (s := freed) (by simp [freed, mode]), noted']
    · obtain ⟨flush, close, session, intake, filling, busy⟩ := closing_
      obtain ⟨running, open_, cancelled, ready, seg⟩ := waits_
      obtain ⟨eodSeg_, eodRec_⟩ := eod seg
      let closed : State := closeSession freed
      let done : State := { closed with
        wr.pendingEnd := .stop, ci.write := Job.clear, cq.queue := s.cq.queue ++
          [completionRecord { tag := tag, op := .writeClose } .ok 0 (.recordNumber r)] }
      have eodClosed : eodRec closed = r := by
        have same : closed.cart = freed.cart := by
          rw [cart_eq (s := closed) (l := l) bound, cart_eq (s := freed) (l := l) bound]
          have reqs : closed.bp.reqs = freed.bp.reqs.map (Req.forget .chunkFetch) ++ [] := (List.append_nil _).symm
          rw [reqs, throughBytes_forget, List.append_nil]
          rfl
        rw [eodRec, same, ← eodRec, eodRec_]
      have position : closed.mo.lp = some r := by
        rw [← eodClosed, eodRec, cart_congr (t := closed) (s := stopSpeed (stopWatch (stopIntake freed))) rfl rfl]
        rfl
      have ended : checkClose freed = done := by
        have posts : complete .write .ok 0 (.recordNumber r) closed = _ :=
          complete_posts (c := { tag := tag, op := .writeClose }) (j := .write) running open_ (by rw [show closed.pw.cancelled = s.pw.cancelled from rfl, cancelled]; decide)
        have none_ : nothingToWrite freed = true := by
          rw [nothingToWrite, slotsIn_freed (t := freed) busy rfl rfl]; rfl
        have empty : freeEmptyFilling freed = freed := by
          unfold freeEmptyFilling
          rw [show freed.ri.filling = none from filling]
        simp only [checkClose]
        rw [if_pos (by exact close), show freed.ri.session = .closing from session]
        simp only [none_, empty]
        rw [if_pos ⟨intake, trivial, .inl filling⟩, eodClosed, posts]
        unfold endWriter
        rw [if_pos (by exact active), if_neg (by intro waitData; exact absurd (mode.symm.trans waitData) (by decide))]
        rfl
      refine ⟨done, judged _ (committed done rfl ?_) (settle_stands ⟨deferred, held, rfl, rfl, by simp [fetchDue, done, closed, closeSession, stopSpeed, stopWatch],
        by rw [show done.ch.transport = _ from active]; decide, ?_⟩ noted_), ?_⟩
      · rw [if_neg told, checkFlush_none (by exact flush), ended]
      · rintro ⟨-, waitData⟩
        exact absurd (mode.symm.trans waitData) (by decide)
      · exact ⟨rfl, rfl, rfl, position, rfl, rfl, rfl, rfl, rfl, mode, rfl, rfl⟩

end Sys2Proof.Machine
end

section
/-! SUPPORT. Proofs about the frame merge (R146). -/

namespace Sys2Proof.Machine
/-! ### The frame merge (R146) -/

section
variable {k : Nat} {id : FrameId} {st : FrameStatus} {p : Pos} {data : List Byte} {y : Slot} {s : State}

/-- A frame that is ignored, held already or uncorrectable leaves the slot as its stamp leaves it. -/
theorem mergeFrame_kept (used : (slotAt s k).st ≠ .free) (scan : s.rd.scan = none) (stamped : stampSlot id p (slotAt s k) = y)
    (adds : ¬(y.stamp = some id.stamp ∧ y.held.getD id.idx false = false ∧ st ≠ .uncorrectable)) :
    mergeFrame k id st p data s = { s with sm.slots := s.sm.slots.set k y } := by
  have same : ({ s with rd.scan := s.rd.scan.map (followMet id p (slotAt s k).stamp) } : State) = s := by rw [scan, Option.map_none, ← scan]
  subst stamped
  simp only [mergeFrame, same]
  rw [if_neg (fun h => adds ⟨h.1, h.2.1, h.2.2.1⟩), setSlot_used used (by rw [stampSlot_st]; exact used)]

/-- A good frame that is MISSING is written through the tape class and becomes HELD. -/
theorem mergeFrame_held (used : (slotAt s k).st ≠ .free) (scan : s.rd.scan = none) (stamped : stampSlot id p (slotAt s k) = y)
    (stamp : y.stamp = some id.stamp) (missing : y.held.getD id.idx false = false) (good : st ≠ .uncorrectable) (idx : id.idx < 32)
    (whole : data.length = 32768) :
    mergeFrame k id st p data s = { s with
      sm.slots := s.sm.slots.set k { y with held := y.held.set id.idx true },
      bp.reqs := s.bp.reqs ++ [{ cls := .tape, isWrite := true, addr := slotBase s k + id.idx * 32768, len := 32768, data := data.map some,
                                 got := [], what := .plain }] } := by
  have same : ({ s with rd.scan := s.rd.scan.map (followMet id p (slotAt s k).stamp) } : State) = s := by rw [scan, Option.map_none, ← scan]
  have kept : y.st ≠ .free := by rw [← stamped, stampSlot_st]; exact used
  have first := setSlot_used used kept
  have second : setSlot k { y with held := y.held.set id.idx true } { s with sm.slots := s.sm.slots.set k y } =
      { s with sm.slots := s.sm.slots.set k { y with held := y.held.set id.idx true } } := by
    refine (setSlot_used ?_ (by exact kept)).trans ?_
    · rw [slotAt_eq, slotOf_set used]; exact kept
    · simp only [List.set_set]
  have cut : padTo Config.frameBytes data = data := by simp [padTo, whole, Config.frameBytes]
  have some_ : data.isEmpty = false := by
    cases data with
    | nil => simp at whole
    | cons b bs => rfl
  simp only [mergeFrame, same, stamped]
  rw [if_pos ⟨stamp, missing, good, idx⟩, first, second, cut, issueWrite_of_ne some_, whole]
  rfl

end

/-- Settles O48, by the merge stamp that the slot holds and the frame's own entry. -/
theorem framesMerged : Obligations.FramesMerged := by
  intro k id st p data t s used idx scan whole x missing stop kept held met fresh
  have blank : missing.getD id.idx false = false := by
    rw [List.getD_eq_getElem?_getD, List.getElem?_replicate, if_pos idx]
    rfl
  refine ⟨fun stamp lower => ?_, fun stamp higher good => ?_, fun stamp higher bad => ?_, fun stamp have_ => ?_, fun stamp lacks good => ?_,
    fun stamp lacks bad => ?_, fun stamp lacks good => ?_, fun stamp lacks bad => ?_⟩
  · refine mergeFrame_kept used scan ?_ fun h => absurd (Option.some.inj (stamp.symm.trans h.1)) (Nat.ne_of_gt lower)
    have apart_ : ¬t < id.stamp ∧ t ≠ id.stamp := ⟨by omega, by omega⟩
    simp [stampSlot, x, stamp, apart_]
  · exact mergeFrame_held used scan (by simp [stampSlot, stamp, higher, x, fresh, met, missing, stop, frameZero, frameStop]) rfl blank good idx whole
  · exact mergeFrame_kept used scan (by simp [stampSlot, stamp, higher, x, fresh, met, missing, stop, frameZero, frameStop]) fun h => h.2.2 bad
  · exact mergeFrame_kept used scan (by simp [stampSlot, stamp, x, met, stop, frameStop]) fun h => absurd (h.2.1.symm.trans have_) (by decide)
  · exact mergeFrame_held used scan (by simp [stampSlot, stamp, x, met, stop, frameStop]) stamp lacks good idx whole
  · exact mergeFrame_kept used scan (by simp [stampSlot, stamp, x, met, stop, frameStop]) fun h => h.2.2 bad
  · exact mergeFrame_held used scan (by simp [stampSlot, stamp, x, fresh, met, stop, frameZero, frameStop]) rfl lacks good idx whole
  · exact mergeFrame_kept used scan (by simp [stampSlot, stamp, x, fresh, met, stop, frameZero, frameStop]) fun h => h.2.2 bad

end Sys2Proof.Machine
end

section
/-! SUPPORT. Proofs about the parity code (R110, R149). -/

namespace Sys2Proof.Machine
/-! ### The field (R110) -/

theorem gfDouble_eq (a : Byte) : gfDouble a = (a <<< 1) ^^^ (if a.msb then 0x1D else 0) := by
  have sign : a.msb = decide (128 ≤ a.toNat) := BitVec.msb_eq_decide a
  unfold gfDouble
  by_cases low : a.toNat < 128
  · simp [low, sign, Nat.not_le.mpr low]
  · simp [low, sign, Nat.not_lt.mp low]

theorem xor_xor_xor_comm (a b c d : Byte) : (a ^^^ b) ^^^ (c ^^^ d) = (a ^^^ c) ^^^ (b ^^^ d) := by
  rw [BitVec.xor_assoc, BitVec.xor_assoc, ← BitVec.xor_assoc b, BitVec.xor_comm b c, BitVec.xor_assoc c]

theorem gfDouble_xor (a b : Byte) : gfDouble (a ^^^ b) = gfDouble a ^^^ gfDouble b := by
  rw [gfDouble_eq, gfDouble_eq, gfDouble_eq, BitVec.shiftLeft_xor_distrib, BitVec.msb_xor]
  rw [xor_xor_xor_comm]
  congr 1
  cases a.msb <;> cases b.msb <;> decide

@[simp] theorem gfDouble_zero : gfDouble 0#8 = 0#8 := rfl

@[simp] theorem gfMulBits_zero (n : Nat) (b : Byte) : gfMulBits n 0#8 b = 0#8 := by
  induction n generalizing b with
  | zero => rfl
  | succ n ih => simp [gfMulBits, ih]

theorem gfMulBits_xor (n : Nat) (a b c : Byte) : gfMulBits n (a ^^^ b) c = gfMulBits n a c ^^^ gfMulBits n b c := by
  induction n generalizing a b c with
  | zero => simp [gfMulBits]
  | succ n ih =>
    rw [gfMulBits, gfMulBits, gfMulBits, gfDouble_xor, ih, xor_xor_xor_comm]
    split <;> simp

/-- Multiplication commutes with doubling. -/
theorem gfMulBits_gfDouble (n : Nat) (a b : Byte) : gfMulBits n (gfDouble a) b = gfDouble (gfMulBits n a b) := by
  induction n generalizing a b with
  | zero => rfl
  | succ n ih =>
    rw [gfMulBits, gfMulBits, ih, gfDouble_xor]
    split <;> simp

/-- Multiplications commute with each other. -/
theorem gfMulBits_right_comm (n m : Nat) (a b c : Byte) : gfMulBits n (gfMulBits m a c) b = gfMulBits m (gfMulBits n a b) c := by
  induction n generalizing a b with
  | zero => simp [gfMulBits]
  | succ n ih =>
    rw [gfMulBits, gfMulBits, ← gfMulBits_gfDouble, ih, gfMulBits_xor]
    split <;> simp

theorem gfMul_one_left (a : Byte) : gfMul 1 a = a := by
  revert a
  decide

theorem gfMul_right_comm (a b c : Byte) : gfMul (gfMul a b) c = gfMul (gfMul a c) b := gfMulBits_right_comm 8 8 a c b

theorem gfMul_comm (a b : Byte) : gfMul a b = gfMul b a := by
  calc gfMul a b = gfMul (gfMul 1 a) b := by rw [gfMul_one_left]
    _ = gfMul (gfMul 1 b) a := gfMul_right_comm 1 a b
    _ = gfMul b a := by rw [gfMul_one_left]

theorem gfMul_assoc (a b c : Byte) : gfMul (gfMul a b) c = gfMul a (gfMul b c) := by
  rw [gfMul_comm a b, gfMul_right_comm, gfMul_comm]

theorem gfMul_xor_left (a b c : Byte) : gfMul (a ^^^ b) c = gfMul a c ^^^ gfMul b c := gfMulBits_xor 8 a b c

theorem gfMul_xor_right (a b c : Byte) : gfMul a (b ^^^ c) = gfMul a b ^^^ gfMul a c := by
  rw [gfMul_comm, gfMul_xor_left, gfMul_comm b, gfMul_comm c]

@[simp] theorem gfMul_zero_left (a : Byte) : gfMul 0#8 a = 0#8 := gfMulBits_zero 8 a

@[simp] theorem gfMul_zero_right (a : Byte) : gfMul a 0#8 = 0#8 := by rw [gfMul_comm, gfMul_zero_left]

theorem gfMul_one_right (a : Byte) : gfMul a 1 = a := by rw [gfMul_comm, gfMul_one_left]

theorem gfPow_add (a : Byte) (m n : Nat) : gfPow a (m + n) = gfMul (gfPow a m) (gfPow a n) := by
  induction m with
  | zero => rw [Nat.zero_add, gfPow, gfMul_one_left]
  | succ m ih => rw [Nat.succ_add, gfPow, gfPow, ih, gfMul_assoc]

theorem gfPow_double (a : Byte) (n : Nat) : gfPow a (2 * n) = gfMul (gfPow a n) (gfPow a n) := by rw [Nat.two_mul, gfPow_add]

/-- The square of a field element. -/
def gfSquare (a : Byte) : Byte := gfMul a a

theorem gfPow_square (a : Byte) (n : Nat) : gfPow a (2 * n) = gfSquare (gfPow a n) := gfPow_double a n

theorem gfPow_square_succ (a : Byte) (n : Nat) : gfPow a (2 * n + 1) = gfMul a (gfSquare (gfPow a n)) := by rw [gfPow, gfPow_square]

/-- The inverse by squaring. -/
theorem gfInv_eq (a : Byte) : gfInv a = (gfSquare (gfMul a (gfSquare (gfMul a (gfSquare (gfMul a (gfSquare (gfMul a (gfSquare (gfMul a
    (gfSquare (gfMul a (gfSquare a))))))))))))) := by
  rw [gfInv, show 254 = 2 * (2 * (2 * (2 * (2 * (2 * (2 * 1 + 1) + 1) + 1) + 1) + 1) + 1) from rfl]
  simp only [gfPow_square, gfPow_square_succ]
  rw [gfPow, gfPow, gfMul_one_right]

theorem gfMul_gfInv {a : Byte} (some_ : a ≠ 0) : gfMul a (gfInv a) = 1 := by
  rw [gfInv_eq]
  revert a
  decide +kernel

theorem eq_zero_of_gfMul {a b : Byte} (zero : gfMul a b = 0) (some_ : a ≠ 0) : b = 0 := by
  calc b = gfMul (gfMul a (gfInv a)) b := by rw [gfMul_gfInv some_, gfMul_one_left]
    _ = gfMul (gfMul a b) (gfInv a) := gfMul_right_comm _ _ _
    _ = 0 := by rw [zero]; exact gfMul_zero_left _

/-! ### Sums over the frames -/

/-- The sum of `f` over a list of places. -/
def gfSum (l : List Nat) (f : Nat → Byte) : Byte := (l.map f).foldr (· ^^^ ·) 0

@[simp] theorem gfSum_nil (f : Nat → Byte) : gfSum [] f = 0 := rfl

@[simp] theorem gfSum_cons (i : Nat) (l : List Nat) (f : Nat → Byte) : gfSum (i :: l) f = f i ^^^ gfSum l f := rfl

theorem foldl_xor_eq (l : List Nat) (f : Nat → Byte) (a : Byte) : l.foldl (fun a i => a ^^^ f i) a = a ^^^ gfSum l f := by
  induction l generalizing a with
  | nil => simp
  | cons i l ih => rw [List.foldl_cons, ih, gfSum_cons, BitVec.xor_assoc]

theorem gfSum_append (l m : List Nat) (f : Nat → Byte) : gfSum (l ++ m) f = gfSum l f ^^^ gfSum m f := by
  induction l with
  | nil => simp
  | cons i l ih => rw [List.cons_append, gfSum_cons, ih, gfSum_cons, BitVec.xor_assoc]

theorem gfSum_xor (l : List Nat) (f g : Nat → Byte) : gfSum l (fun i => f i ^^^ g i) = gfSum l f ^^^ gfSum l g := by
  induction l with
  | nil => simp
  | cons i l ih => rw [gfSum_cons, ih, gfSum_cons, gfSum_cons, xor_xor_xor_comm]

theorem gfSum_mul (l : List Nat) (f : Nat → Byte) (a : Byte) : gfSum l (fun i => gfMul (f i) a) = gfMul (gfSum l f) a := by
  induction l with
  | nil => exact (gfMul_zero_left a).symm
  | cons i l ih => rw [gfSum_cons, ih, gfSum_cons, gfMul_xor_left]

theorem gfSum_congr {l : List Nat} {f g : Nat → Byte} (same : ∀ i ∈ l, f i = g i) : gfSum l f = gfSum l g := by
  rw [gfSum, gfSum, List.map_congr_left same]

theorem gfSum_zero {l : List Nat} {f : Nat → Byte} (zero : ∀ i ∈ l, f i = 0) : gfSum l f = 0 := by
  induction l with
  | nil => rfl
  | cons i l ih => rw [gfSum_cons, zero i List.mem_cons_self, ih fun j mem => zero j (List.mem_cons_of_mem _ mem)]; rfl

/-- Of the places of which only one counts the sum is that one's. -/
theorem gfSum_single {l : List Nat} {f : Nat → Byte} {w : Nat} (nodup : l.Nodup) (mem : w ∈ l) (others : ∀ i ∈ l, i ≠ w → f i = 0) :
    gfSum l f = f w := by
  induction l with
  | nil => simp at mem
  | cons i l ih =>
    obtain ⟨fresh, nodup⟩ := List.nodup_cons.mp nodup
    by_cases same : i = w
    · subst same
      have rest : gfSum l f = 0 := gfSum_zero fun j mem => others j (List.mem_cons_of_mem _ mem) fun same => fresh (same ▸ mem)
      rw [gfSum_cons, rest]
      simp
    · have mem : w ∈ l := by simpa [Ne.symm same] using mem
      rw [gfSum_cons, ih nodup mem fun j mem other => others j (List.mem_cons_of_mem _ mem) other, others i List.mem_cons_self same]
      simp

/-- A sum is that of the places of a kind and that of the others. -/
theorem gfSum_filter (l : List Nat) (p : Nat → Bool) (f : Nat → Byte) :
    gfSum l f = gfSum (l.filter p) f ^^^ gfSum (l.filter (fun i => !p i)) f := by
  induction l with
  | nil => simp
  | cons i l ih =>
    rw [gfSum_cons, ih]
    cases h : p i
    · simp only [List.filter_cons, h, Bool.not_false, if_true, Bool.false_eq_true, if_false, gfSum_cons]
      rw [← BitVec.xor_assoc, BitVec.xor_comm (f i), BitVec.xor_assoc]
    · simp only [List.filter_cons, h, Bool.not_true, if_true, Bool.false_eq_true, if_false, gfSum_cons]
      rw [BitVec.xor_assoc]

theorem paritySum_eq (l : List Nat) (coeff c : Nat → Byte) : paritySum (l.map coeff) (l.map c) = gfSum l (fun i => gfMul (coeff i) (c i)) := by
  induction l with
  | nil => rfl
  | cons i l ih => rw [List.map_cons, List.map_cons, paritySum, ih, gfSum_cons]

/-! ### The equations, weighted (R110, R149) -/

theorem alpha_succ (i k : Nat) : alpha (i * (k + 1)) = gfMul (alpha i) (alpha (i * k)) := by
  rw [alpha, Nat.mul_succ, Nat.add_comm, gfPow_add]
  rfl

/-- Four equations, weighted by the coefficients of a polynomial of a lower degree that is zero at the places of a list. -/
theorem gfSum_locator {l : List Nat} {c : Nat → Byte} (eqs : ∀ k, k < 4 → gfSum l (fun i => gfMul (c i) (alpha (i * k))) = 0) (ws : List Nat) :
    ∀ k, k + ws.length < 4 → gfSum l (fun i => gfMul (gfMul (c i) (alpha (i * k))) (locator (alpha i) ws)) = 0 := by
  induction ws with
  | nil =>
    intro k low
    rw [← eqs k low]
    exact gfSum_congr fun i _ => gfMul_one_right _
  | cons w ws ih =>
    intro k low
    rw [List.length_cons] at low
    have split (i : Nat) : gfMul (gfMul (c i) (alpha (i * k))) (locator (alpha i) (w :: ws)) =
        gfMul (gfMul (c i) (alpha (i * (k + 1)))) (locator (alpha i) ws) ^^^
          gfMul (gfMul (gfMul (c i) (alpha (i * k))) (locator (alpha i) ws)) (alpha w) := by
      rw [locator, gfMul_xor_left, gfMul_xor_right]
      congr 1
      · rw [alpha_succ, ← gfMul_assoc, gfMul_comm (alpha i), ← gfMul_assoc]
      · rw [gfMul_comm (alpha w), ← gfMul_assoc]
    rw [gfSum_congr fun i _ => split i, gfSum_xor, ih (k + 1) (by omega), gfSum_mul, ih k (by omega)]
    simp

theorem locator_eq_zero {i : Nat} {ws : List Nat} (mem : i ∈ ws) : locator (alpha i) ws = 0 := by
  induction ws with
  | nil => simp at mem
  | cons w ws ih =>
    rw [locator]
    rcases List.mem_cons.mp mem with rfl | mem
    · rw [BitVec.xor_self]; exact gfMul_zero_left _
    · rw [ih mem]; exact gfMul_zero_right _

theorem alpha_inj {i j : Nat} (hi : i < 32) (hj : j < 32) (same : alpha i = alpha j) : i = j := by
  have nodup : ((List.range 32).map alpha).Nodup := by decide +kernel
  exact List.inj_on_of_nodup_map nodup (List.mem_range.mpr hi) (List.mem_range.mpr hj) same

theorem locator_ne_zero {i : Nat} {ws : List Nat} (hi : i < 32) (others : ∀ w ∈ ws, w < 32 ∧ w ≠ i) : locator (alpha i) ws ≠ 0 := by
  induction ws with
  | nil => exact (by decide : (1 : Byte) ≠ 0)
  | cons w ws ih =>
    obtain ⟨hw, other⟩ := others w List.mem_cons_self
    intro zero
    refine ih (fun w mem => others w (List.mem_cons_of_mem _ mem)) (eq_zero_of_gfMul zero fun same => other ?_)
    exact (alpha_inj hi hw (BitVec.xor_eq_zero_iff.mp same)).symm

/-- Settles O54, by the equations weighted with the polynomial that is zero at the other unknown places. -/
theorem rebuildRestoresFrame : Obligations.RebuildRestoresFrame := by
  intro c unknown w four nodup below mem eqs known
  let others := unknown.filter (fun u => decide (u ≠ w))
  let weight := gfInv (locator (alpha w) others)
  have three : others.length = 3 := by
    rw [show others = unknown.erase w by rw [nodup.erase_eq_filter]; exact List.filter_congr fun u _ => decide_not, List.length_erase_of_mem mem, four]
  have some_ : locator (alpha w) others ≠ 0 := locator_ne_zero (below w mem) fun u mem => by
    obtain ⟨mem, other⟩ := List.mem_filter.mp mem
    exact ⟨below u mem, by simpa using other⟩
  have weighted : gfSum (List.range 32) (fun i => gfMul (c i) (locator (alpha i) others)) = 0 := by
    rw [← gfSum_locator (c := c) (l := List.range 32) (fun k low => by have := eqs k low; rw [foldl_xor_eq] at this; simpa using this) others 0 (by omega)]
    exact gfSum_congr fun i _ => congrArg (gfMul · _) (gfMul_one_right (c i)).symm
  have lost : gfSum ((List.range 32).filter (fun i => !!unknown.contains i)) (fun i => gfMul (c i) (locator (alpha i) others)) =
      gfMul (c w) (locator (alpha w) others) := by
    refine gfSum_single (List.nodup_range.filter _) ?_ ?_
    · simpa using ⟨below w mem, mem⟩
    · intro i mem other
      have unknown_ : i ∈ unknown := by simpa using (List.mem_filter.mp mem).2
      rw [locator_eq_zero (List.mem_filter.mpr ⟨unknown_, by simpa using other⟩)]
      exact gfMul_zero_right _
  rw [gfSum_filter _ (fun i => !unknown.contains i), lost] at weighted
  calc solveByte unknown known w (known.map c) = gfMul (gfSum known (fun i => gfMul (c i) (locator (alpha i) others))) weight := by
        rw [solveByte, paritySum_eq, ← gfSum_mul]
        exact gfSum_congr fun i _ => by rw [parityCoeff, gfMul_comm _ (c i), gfMul_assoc]
    _ = gfMul (gfMul (c w) (locator (alpha w) others)) weight := by rw [BitVec.xor_eq_zero_iff.mp weighted]
    _ = c w := by rw [gfMul_assoc, gfMul_gfInv some_, gfMul_one_right]

/-! ### The parity frames (R110) -/

/-- The places of the parity frames. -/
def parityPlaces : List Nat := [28, 29, 30, 31]

/-- 32 bytes: those of 28 data frames, and four more. -/
def withParity (b : Nat → Byte) (q : Fin 4 → Byte) (i : Nat) : Byte := if i < 28 then b i else q (Fin.ofNat 4 (i - 28))

/-- What four parity bytes add to the equations. -/
def paritySyndrome (q : Fin 4 → Byte) (k : Fin 4) : Byte := gfSum parityPlaces (fun i => gfMul (q (Fin.ofNat 4 (i - 28))) (alpha (i * k)))

theorem gfSum_withParity (b : Nat → Byte) (q : Fin 4 → Byte) (k : Fin 4) :
    gfSum (List.range 32) (fun i => gfMul (withParity b q i) (alpha (i * k))) =
      gfSum (List.range 28) (fun i => gfMul (b i) (alpha (i * k))) ^^^ paritySyndrome q k := by
  have data : gfSum (List.range 28) (fun i => gfMul (withParity b q i) (alpha (i * k))) = gfSum (List.range 28) (fun i => gfMul (b i) (alpha (i * k))) :=
    gfSum_congr fun i mem => by rw [withParity, if_pos (List.mem_range.mp mem)]
  rw [show List.range 32 = List.range 28 ++ parityPlaces from by decide, gfSum_append, data]
  rfl

/-- A byte at a parity place is given by the data bytes, where the equations hold (R149). -/
theorem withParity_of_equations {b : Nat → Byte} {q : Fin 4 → Byte}
    (eqs : ∀ k : Fin 4, gfSum (List.range 28) (fun i => gfMul (b i) (alpha (i * k))) = paritySyndrome q k) (w : Nat) (mem : w ∈ parityPlaces) :
    withParity b q w = solveByte parityPlaces (List.range 28) w ((List.range 28).map b) := by
  have hold (k : Nat) (low : k < 4) : (List.range 32).foldl (fun a i => a ^^^ gfMul (withParity b q i) (alpha (i * k))) 0 = 0 := by
    rw [foldl_xor_eq, gfSum_withParity b q ⟨k, low⟩, eqs, BitVec.xor_self]
    rfl
  have solved := rebuildRestoresFrame (withParity b q) parityPlaces w rfl (by decide) (by decide) mem hold
  rw [← solved, show (List.range 32).filter (fun i => !parityPlaces.contains i) = List.range 28 from by decide,
    List.map_congr_left (g := b) fun i mem => by rw [withParity, if_pos (List.mem_range.mp mem)]]

theorem paritySyndrome_xor (p q : Fin 4 → Byte) (k : Fin 4) : paritySyndrome (fun m => p m ^^^ q m) k = paritySyndrome p k ^^^ paritySyndrome q k := by
  rw [paritySyndrome, paritySyndrome, paritySyndrome, ← gfSum_xor]
  exact gfSum_congr fun i _ => gfMul_xor_left _ _ _

/-- Only zeros add nothing. -/
theorem paritySyndrome_injective : Function.Injective paritySyndrome := by
  intro p q same
  let d : Fin 4 → Byte := fun m => p m ^^^ q m
  have nothing (k : Fin 4) : gfSum (List.range 28) (fun i => gfMul ((fun _ => 0) i) (alpha (i * k))) = paritySyndrome d k := by
    rw [paritySyndrome_xor, same, BitVec.xor_self]
    exact gfSum_zero fun i _ => gfMul_zero_left _
  funext m
  have solved := withParity_of_equations nothing (28 + m) (by fin_cases m <;> decide)
  have zero : solveByte parityPlaces (List.range 28) (28 + m) ((List.range 28).map fun _ => 0) = 0 := by
    rw [solveByte, paritySum_eq]
    exact gfSum_zero fun i _ => gfMul_zero_right _
  have place : withParity (fun _ => 0) d (28 + m) = d m := by
    rw [withParity, if_neg (by omega), Nat.add_sub_cancel_left, Fin.ofNat_val_eq_self]
  exact BitVec.xor_eq_zero_iff.mp (place.symm.trans (solved.trans zero))

theorem paritySyndrome_surjective : Function.Surjective paritySyndrome := Finite.surjective_of_injective paritySyndrome_injective

/-- Parity bytes formed from the data bytes satisfy the equations. -/
theorem equations_of_solved (b : Nat → Byte) (k : Nat) (low : k < 4) : (List.range 32).foldl (fun a i => a ^^^ gfMul
    (if i < 28 then b i else solveByte parityPlaces (List.range 28) i ((List.range 28).map b)) (alpha (i * k))) 0 = 0 := by
  obtain ⟨q, eqs⟩ := paritySyndrome_surjective fun k => gfSum (List.range 28) (fun i => gfMul (b i) (alpha (i * k)))
  have same : ∀ i ∈ List.range 32, gfMul (if i < 28 then b i else solveByte parityPlaces (List.range 28) i ((List.range 28).map b)) (alpha (i * k)) =
      gfMul (withParity b q i) (alpha (i * k)) := by
    intro i mem
    congr 1
    split
    case isTrue data => rw [withParity, if_pos data]
    case isFalse data =>
      refine (withParity_of_equations (fun k => (congrFun eqs k).symm) i ?_).symm
      have := List.mem_range.mp mem
      simp only [parityPlaces, List.mem_cons, List.not_mem_nil, or_false]
      omega
  rw [foldl_xor_eq, gfSum_congr same, gfSum_withParity b q ⟨k, low⟩, eqs, BitVec.xor_self]
  rfl

/-- The frames, cut out of the slot's bytes. -/
theorem framesOf_eq (n : Nat) (bs : List Byte) : framesOf n bs = (List.range n).map (fun i => (bs.drop (i * 32768)).take 32768) := by
  induction n generalizing bs with
  | zero => rfl
  | succ n ih =>
    rw [framesOf, ih, List.range_succ_eq_map, List.map_cons, List.map_map, Nat.zero_mul, List.drop_zero]
    refine congrArg₂ List.cons rfl (List.map_congr_left fun i _ => ?_)
    rw [Function.comp_apply, List.drop_drop, Nat.succ_mul, Nat.add_comm]

/-- Known frames added up, each times its coefficient, at one offset. -/
theorem foldl_zipWith_getD {n j : Nat} (inside : j < n) (l : List Nat) (coeff : Nat → Byte) (frame : Nat → List Byte)
    (whole : ∀ i ∈ l, (frame i).length = n) (acc : List Byte) (length : acc.length = n) :
    ((l.map fun i => (coeff i, frame i)).foldl (fun acc p => List.zipWith (fun a b => a ^^^ gfMul p.1 b) acc p.2) acc).getD j 0 =
      acc.getD j 0 ^^^ gfSum l (fun i => gfMul (coeff i) ((frame i).getD j 0)) := by
  induction l generalizing acc with
  | nil => simp
  | cons i l ih =>
    have size := whole i List.mem_cons_self
    rw [List.map_cons, List.foldl_cons, ih (fun i mem => whole i (List.mem_cons_of_mem _ mem)) _ (by simp [length, size]), gfSum_cons, ← BitVec.xor_assoc]
    congr 1
    simp [List.getD_eq_getElem?_getD, length, size, inside]

theorem foldl_zipWith_length {n : Nat} (ps : List (Byte × List Byte)) (whole : ∀ p ∈ ps, p.2.length = n) (acc : List Byte) (length : acc.length = n) :
    (ps.foldl (fun acc p => List.zipWith (fun a b => a ^^^ gfMul p.1 b) acc p.2) acc).length = n := by
  induction ps generalizing acc with
  | nil => exact length
  | cons p ps ih =>
    refine ih (fun p mem => whole p (List.mem_cons_of_mem _ mem)) _ ?_
    rw [List.length_zipWith, length, whole p List.mem_cons_self, Nat.min_self]

/-- Frames of one length that follow each other. -/
theorem flatMap_getD {f : Nat → List Byte} {n : Nat} (size : ∀ w, (f w).length = n) {l : List Nat} {m i j : Nat} (at_ : l[m]? = some i) (inside : j < n) :
    (l.flatMap f).getD (m * n + j) 0 = (f i).getD j 0 := by
  induction l generalizing m with
  | nil => simp at at_
  | cons w l ih =>
    rw [List.flatMap_cons]
    cases m with
    | zero =>
      obtain rfl : w = i := by simpa using at_
      rw [Nat.zero_mul, Nat.zero_add, List.getD_append _ _ _ _ (by rw [size]; exact inside)]
    | succ m =>
      rw [List.getD_append_right _ _ _ _ (by rw [size, Nat.succ_mul]; omega), size, ← ih (by simpa using at_)]
      congr 1
      rw [Nat.succ_mul]
      omega

section
variable {bs : List Byte} (whole : bs.length = 917504)
include whole

theorem frame_length {i : Nat} (mem : i ∈ List.range 28) : ((bs.drop (i * 32768)).take 32768).length = 32768 := by
  have := List.mem_range.mp mem
  rw [List.length_take, List.length_drop, whole]
  omega

theorem solveFrame_length (w : Nat) : (solveFrame parityPlaces (List.range 28) w (framesOf 28 bs)).length = 32768 := by
  rw [solveFrame, framesOf_eq, List.zip_map']
  refine foldl_zipWith_length _ ?_ _ List.length_replicate
  intro p mem
  obtain ⟨i, place, rfl⟩ := List.mem_map.mp mem
  exact frame_length whole place

/-- A byte of a parity frame is formed from the data bytes at the same offset (R110). -/
theorem solveFrame_getD (w : Nat) {j : Nat} (inside : j < 32768) :
    (solveFrame parityPlaces (List.range 28) w (framesOf 28 bs)).getD j 0 =
      solveByte parityPlaces (List.range 28) w ((List.range 28).map fun i => bs.getD (i * 32768 + j) 0) := by
  rw [solveFrame, framesOf_eq, List.zip_map', foldl_zipWith_getD (n := 32768) inside _ _ _ (fun i mem => frame_length whole mem) _ List.length_replicate,
    solveByte, paritySum_eq, List.getD_eq_getElem?_getD, List.getElem?_replicate, if_pos (by exact inside), Option.getD_some]
  refine BitVec.zero_xor.trans (gfSum_congr fun i mem => congrArg (gfMul _) ?_)
  rw [List.getD_eq_getElem?_getD, List.getElem?_take_of_lt inside, List.getElem?_drop, List.getD_eq_getElem?_getD]

theorem parityFrames_getD {i j : Nat} (low : 28 ≤ i) (high : i < 32) (inside : j < 32768) :
    (parityFrames bs).getD ((i - 28) * 32768 + j) 0 = (solveFrame parityPlaces (List.range 28) i (framesOf 28 bs)).getD j 0 := by
  have at_ : parityPlaces[i - 28]? = some i := by
    obtain rfl | rfl | rfl | rfl : i = 28 ∨ i = 29 ∨ i = 30 ∨ i = 31 := by omega
    all_goals rfl
  exact flatMap_getD (solveFrame_length whole) at_ inside

end

/-- Settles O53, since parity bytes that satisfy the equations exist, and the equations determine them. -/
theorem parityEquationsHold : Obligations.ParityEquationsHold := by
  intro bs k j whole low inside c
  have solved := equations_of_solved (fun i => bs.getD (i * 32768 + j) 0) k low
  rw [foldl_xor_eq] at solved ⊢
  refine (congrArg (0 ^^^ ·) (gfSum_congr fun i mem => congrArg (gfMul · _) ?_)).trans solved
  by_cases data : i < 28
  · simp only [c, if_pos data]
  · simp only [c, if_neg data]
    rw [parityFrames_getD whole (Nat.le_of_not_lt data) (List.mem_range.mp mem) inside, solveFrame_getD whole i inside]

end Sys2Proof.Machine
end

section
/-! SUPPORT. Proofs about the compression scheme (R92 to R95, R153). -/

namespace Sys2Proof.Machine
/-! ### The decompressor without its fuel (R153) -/

/-- One step takes at least one byte: with fuel for every byte, more fuel changes nothing. -/
theorem replay_fuel {fuel : Nat} {body have_ : List Byte} (enough : body.length ≤ fuel) : replay fuel body have_ = replay body.length body have_ := by
  induction fuel using Nat.strongRecOn generalizing body have_ with
  | ind fuel ih =>
    cases body with
    | nil => cases fuel <;> rfl
    | cons c rest =>
      cases fuel with
      | zero => simp at enough
      | succ fuel =>
        have enough : rest.length ≤ fuel := by simpa using enough
        -- what is left of the body after one step has fuel in both
        have left (tail h : List Byte) (shorter : tail.length ≤ rest.length) : replay fuel tail h = replay rest.length tail h := by
          rw [ih fuel (Nat.lt_succ_self _) (shorter.trans enough)]
          rcases Nat.lt_or_ge rest.length (fuel + 1) with lt | ge
          · exact (ih rest.length lt shorter).symm
          · omega
        simp only [List.length_cons, replay]
        split
        · split
          · rfl
          · exact left _ _ (by simp)
        · cases rest with
          | nil => rfl
          | cons d rest =>
            dsimp only
            split
            · rfl
            · split
              · rfl
              · exact left _ _ (by simp)

/-- What a body expands to behind what has been expanded, newest byte first. -/
def expandStream (body have_ : List Byte) : Option (List Byte) := replay body.length body have_

theorem expandStream_nil (have_ : List Byte) : expandStream [] have_ = some have_ := rfl

/-- A run of 1 to 128 literal bytes (R94). -/
theorem expandStream_literalRun {run : List Byte} (some_ : run ≠ []) (short : run.length ≤ 128) (tail have_ : List Byte) :
    expandStream (literalRun run ++ tail) have_ = expandStream tail (run.reverse ++ have_) := by
  have pos : 0 < run.length := List.length_pos_iff.mpr some_
  have count : (byteOf (run.length - 1)).toNat = run.length - 1 := by simp [byteOf]; omega
  have k : (byteOf (run.length - 1)).toNat + 1 = run.length := by omega
  rw [expandStream, literalRun, List.cons_append, List.length_cons]
  simp only [replay]
  rw [if_pos (by omega)]
  simp only [k]
  rw [if_neg (by simp), List.drop_left, List.take_left, replay_fuel (by simp)]
  rfl

/-- A match of 3 to 18 bytes from 1 to 2,048 back (R94). -/
theorem expandStream_matchBytes {len dist : Nat} (len_ : 3 ≤ len ∧ len ≤ 18) (dist_ : 1 ≤ dist ∧ dist ≤ 2048) (tail : List Byte) {have_ : List Byte}
    (within : dist ≤ have_.length) :
    expandStream (matchBytes len dist ++ tail) have_ = (copyBack len dist have_).bind (expandStream tail) := by
  have first : (byteOf (128 + (len - 3) * 8 + (dist - 1) / 256)).toNat = 128 + (len - 3) * 8 + (dist - 1) / 256 := by
    simp only [byteOf, BitVec.toNat_ofNat]; omega
  have second : (byteOf ((dist - 1) % 256)).toNat = (dist - 1) % 256 := by simp only [byteOf, BitVec.toNat_ofNat]; omega
  rw [expandStream, matchBytes, List.cons_append, List.cons_append, List.length_cons]
  simp only [replay]
  rw [if_neg (by omega), first, second]
  rw [show (128 + (len - 3) * 8 + (dist - 1) / 256 - 128) / 8 + 3 = len by omega,
    show (128 + (len - 3) * 8 + (dist - 1) / 256 - 128) % 8 * 256 + (dist - 1) % 256 + 1 = dist by omega, if_neg (by omega)]
  cases copyBack len dist have_ with
  | none => rfl
  | some h => exact replay_fuel (by simp)

/-- Literal runs of 128 (R94). -/
theorem expandStream_literalRuns (n : Nat) {run : List Byte} (enough : run.length ≤ n) (tail have_ : List Byte) :
    expandStream (literalRuns n run ++ tail) have_ = expandStream tail (run.reverse ++ have_) := by
  induction n generalizing run have_ with
  | zero =>
    obtain rfl := List.length_eq_zero_iff.mp (Nat.le_zero.mp enough)
    rfl
  | succ n ih =>
    cases run with
    | nil => rfl
    | cons b bs =>
      rw [literalRuns.eq_3 _ _ (by simp), List.append_assoc, expandStream_literalRun (by simp) (by simp), ih (by simp at enough ⊢; omega), ← List.append_assoc,
        ← List.reverse_append, List.take_append_drop]

/-! ### Tokens -/

/-- What the tokens of a parse stand for, behind what has been expanded, newest byte first (R93). -/
def applyTokens : List Token → List Byte → Option (List Byte)
  | [], have_ => some have_
  | .lit b :: ts, have_ => applyTokens ts (b :: have_)
  | .copy l d :: ts, have_ => if have_.length < d then none else (copyBack l d have_).bind (applyTokens ts)

/-- A token that two bytes can say (R94). -/
def Token.sayable : Token → Prop
  | .lit _ => True
  | .copy l d => (3 ≤ l ∧ l ≤ 18) ∧ 1 ≤ d ∧ d ≤ 2048

/-- The stream of a parse says what its tokens stand for. -/
theorem expandStream_tokenStream {ts : List Token} (sayable : ∀ t ∈ ts, t.sayable) {run have_ out : List Byte}
    (applied : applyTokens ts (run.reverse ++ have_) = some out) : expandStream (tokenStream run ts) have_ = some out := by
  induction ts generalizing run have_ with
  | nil =>
    rw [tokenStream, ← List.append_nil (literalRuns _ _), expandStream_literalRuns _ le_rfl, expandStream_nil]
    exact applied
  | cons t ts ih =>
    have sayable' := fun t mem => sayable t (List.mem_cons_of_mem _ mem)
    cases t with
    | lit b => exact ih sayable' (by simpa [applyTokens] using applied)
    | copy l d =>
      obtain ⟨len_, dist_⟩ := sayable _ List.mem_cons_self
      rw [applyTokens] at applied
      split at applied
      case isTrue => simp at applied
      case isFalse within =>
        obtain ⟨h, copied, applied⟩ := Option.bind_eq_some_iff.mp applied
        rw [tokenStream, List.append_assoc, expandStream_literalRuns _ le_rfl, expandStream_matchBytes len_ dist_ _ (Nat.le_of_not_lt within), copied]
        exact ih sayable' (by simpa using applied)

/-! ### The parse (R93) -/

theorem agree_le (n : Nat) (as bs : List Byte) : agree n as bs ≤ n ∧ agree n as bs ≤ bs.length := by
  induction n generalizing as bs with
  | zero => simp [agree]
  | succ n ih =>
    cases as with
    | nil => simp [agree]
    | cons a as =>
      cases bs with
      | nil => simp [agree]
      | cons b bs =>
        rw [agree]
        split
        · have := ih as bs
          rw [List.length_cons]
          omega
        · simp

/-- Bytes that agree with those a distance back are what copying from there gives; the run may overlap the bytes it copies. -/
theorem copyBack_of_agree {d : Nat} (pos : 1 ≤ d) (n : Nat) {l : Nat} {before rest : List Byte} (within : d ≤ before.length)
    (same : l ≤ agree n ((before.take d).reverse ++ rest) rest) : copyBack l d before = some ((rest.take l).reverse ++ before) := by
  induction n generalizing l before rest with
  | zero =>
    obtain rfl : l = 0 := by simpa [agree] using same
    rfl
  | succ n ih =>
    cases l with
    | zero => rfl
    | succ l =>
      obtain ⟨e, rfl⟩ : ∃ e, d = e + 1 := ⟨d - 1, by omega⟩
      have inside : e < before.length := by omega
      cases rest with
      | nil => exact absurd (same.trans (agree_le _ _ _).2) (by simp)
      | cons b rest =>
        rw [List.take_succ_eq_append_getElem inside, List.reverse_append, List.reverse_singleton, List.singleton_append, List.cons_append, agree] at same
        split at same
        case isFalse => omega
        case isTrue first =>
          have window : ((b :: before).take (e + 1)).reverse ++ rest = (before.take e).reverse ++ b :: rest := by simp
          rw [copyBack, Nat.add_sub_cancel, List.getElem?_eq_getElem inside, first]
          dsimp only
          rw [ih (by simp; omega) (by rw [window]; omega)]
          simp

/-- The best match is one, or is none. -/
theorem bestMatch_spec (before rest : List Byte) (n : Nat) : (bestMatch before rest n).1 = 0 ∨
    ((1 ≤ (bestMatch before rest n).2 ∧ (bestMatch before rest n).2 ≤ n) ∧
      (bestMatch before rest n).1 = matchLen before rest (bestMatch before rest n).2) := by
  induction n with
  | zero => exact .inl rfl
  | succ n ih =>
    rw [bestMatch]
    split
    · exact .inr ⟨⟨by simp, le_rfl⟩, rfl⟩
    · exact ih.imp id fun ⟨⟨low, high⟩, len⟩ => ⟨⟨low, high.trans (Nat.le_succ n)⟩, len⟩

/-- The tokens of a parse can be said, and stand for the bytes parsed. -/
theorem parseTokens_spec (fuel : Nat) {before rest : List Byte} (enough : rest.length ≤ fuel) :
    (∀ t ∈ parseTokens fuel before rest, t.sayable) ∧ applyTokens (parseTokens fuel before rest) before = some (rest.reverse ++ before) := by
  induction fuel generalizing before rest with
  | zero =>
    obtain rfl := List.length_eq_zero_iff.mp (Nat.le_zero.mp enough)
    exact ⟨by simp [parseTokens], rfl⟩
  | succ fuel ih =>
    cases rest with
    | nil => exact ⟨by simp [parseTokens], rfl⟩
    | cons b rest =>
      rw [List.length_cons] at enough
      rw [parseTokens]
      have spec := bestMatch_spec before (b :: rest) (min 2048 before.length)
      generalize bestMatch before (b :: rest) (min 2048 before.length) = m at spec ⊢
      obtain ⟨len, dist⟩ := m
      dsimp only at spec ⊢
      split
      case isTrue long =>
        obtain zero | ⟨⟨pos, near⟩, matched⟩ := spec
        · omega
        · have copied := copyBack_of_agree pos 18 (by omega) matched.le
          have bound := agree_le 18 ((before.take dist).reverse ++ b :: rest) (b :: rest)
          rw [← matchLen, ← matched] at bound
          obtain ⟨sayable, applied⟩ := ih (before := ((b :: rest).take len).reverse ++ before) (rest := (b :: rest).drop len) (by simp; omega)
          refine ⟨?_, ?_⟩
          · intro t mem
            rcases List.mem_cons.mp mem with rfl | mem
            · exact ⟨⟨long, bound.1⟩, pos, by omega⟩
            · exact sayable t mem
          · rw [applyTokens, if_neg (by omega), copied, Option.bind_some, applied, ← List.append_assoc, ← List.reverse_append, List.take_append_drop]
      case isFalse =>
        obtain ⟨sayable, applied⟩ := ih (before := b :: before) (rest := rest) (by omega)
        refine ⟨?_, by rw [applyTokens, applied]; simp⟩
        intro t mem
        rcases List.mem_cons.mp mem with rfl | mem
        · trivial
        · exact sayable t mem

/-- A COMPRESSED body expands to the chunk's raw bytes (R153, Law 3). -/
theorem expandChunk_compressed (history raw : List Byte) : expandChunk history (compressChunk history raw) true raw.length = some raw := by
  obtain ⟨sayable, applied⟩ := parseTokens_spec raw.length (before := history.reverse) (rest := raw) le_rfl
  have expanded : replay (compressChunk history raw).length (compressChunk history raw) history.reverse = some (raw.reverse ++ history.reverse) :=
    expandStream_tokenStream (run := []) sayable applied
  simp [expandChunk, expanded, Nat.add_comm]

/-- Settles O55, by the tokens of the parse. -/
theorem compressionRoundTrip : Obligations.CompressionRoundTrip := by
  intro on history raw _ _ _ b
  have stored : expandChunk history raw false raw.length = some raw := by simp [expandChunk]
  by_cases shorter : on = true ∧ (compressChunk history raw).length < raw.length
  · have body : b = (compressChunk history raw, true) := by simp [b, chunkBody, shorter]
    rw [body]
    exact ⟨expandChunk_compressed history raw, shorter.2.le⟩
  · have body : b = (raw, false) := by
      simp only [b, chunkBody]
      split
      · rw [if_neg (fun lt => shorter ⟨‹_›, lt⟩)]
      · rfl
    rw [body]
    exact ⟨stored, le_rfl⟩

end Sys2Proof.Machine
end

section
/-! SUPPORT. Proofs about the monitor's counters and the HEALTH job (Chapter 9). -/

namespace Sys2Proof.Machine
/-! ### Monitor counters (R163) -/

/-- A counter whose count does not reach its limit, or has been posted, or has none. -/
def Silent (c : Counter) : Prop := c.limit = 0 ∨ c.posted = true ∨ c.count < c.limit

/-- Counter `n`. -/
def counterAt (s : State) (n : Nat) : Counter := s.he.counters.getD n .clear

/-- The machine with another counter `n`. -/
abbrev State.withCounter (n : Nat) (c : Counter) (s : State) : State := { s with he.counters := s.he.counters.set n c }

/-- The alarm of counter `n`, standing at `c` (R163). -/
def alarm (n : Nat) (c : Counter) : Record := noticeRecord .monitorAlarm ([byteOf n, byteOf (sourceCode c.source)] ++ leBytes 4 c.count)

/-- A counter that has counted `k` more. -/
def Counter.bumped (k : Nat) (c : Counter) : Counter := { c with count := min (c.count + k) 4294967295 }

theorem counterAt_withCounter {n : Nat} {s : State} (inside : n < s.he.counters.length) (c : Counter) : counterAt (s.withCounter n c) n = c := by
  rw [counterAt, List.getD_eq_getElem?_getD, List.getElem?_set_self inside]; rfl

theorem counterAt_withCounter_ne {n j : Nat} (other : j ≠ n) (c : Counter) (s : State) : counterAt (s.withCounter n c) j = counterAt s j := by
  rw [counterAt, List.getD_eq_getElem?_getD, List.getElem?_set_ne other.symm]; rfl

/-- A counter put back is no change. -/
theorem withCounter_same {n : Nat} {s : State} (c : Counter) (same : counterAt s n = c) : s.withCounter n c = s := by
  have back : s.he.counters.set n c = s.he.counters := by
    subst same
    by_cases inside : n < s.he.counters.length
    · rw [counterAt, List.getD_eq_getElem _ _ inside, List.set_getElem_self]
    · rw [List.set_eq_of_length_le (Nat.le_of_not_lt inside)]
  rw [State.withCounter, back]

theorem alarmCheck_silent {n : Nat} {s : State} (silent : Silent (counterAt s n)) : alarmCheck n s = s := by
  rw [alarmCheck, if_neg]
  rintro ⟨limit, posted, reached_⟩
  rcases silent with none_ | done_ | short
  · exact limit none_
  · exact absurd (posted.symm.trans done_) (by decide)
  · exact absurd reached_ (Nat.not_le.mpr short)

/-- A count that reaches its limit posts MONITOR_ALARM, once. -/
theorem alarmCheck_posts {n : Nat} {s : State} (loud : ¬Silent (counterAt s n)) (open_ : cqOpen s = true) : alarmCheck n s =
    { s.withCounter n { counterAt s n with posted := true } with cq.queue := s.cq.queue ++ [alarm n (counterAt s n)] } := by
  obtain ⟨room, none_⟩ := (cqOpen_iff s).mp open_
  simp only [Silent, not_or, Bool.not_eq_true, Nat.not_lt] at loud
  rw [alarmCheck, if_pos (by exact loud)]
  simp [postAt, room, none_, alarm, counterAt]

section
variable {n k : Nat} {c : Counter} {s : State} (inside : n < s.he.counters.length) (at_ : counterAt s n = c)
include inside at_

theorem bumpCounter_silent (silent : Silent (c.bumped k)) : bumpCounter n k s = s.withCounter n (c.bumped k) := by
  subst at_
  exact alarmCheck_silent (s := s.withCounter n ((counterAt s n).bumped k)) (by rw [counterAt_withCounter inside]; exact silent)

theorem bumpCounter_alarm (loud : ¬Silent (c.bumped k)) (open_ : cqOpen s = true) : bumpCounter n k s =
    { s.withCounter n { c.bumped k with posted := true } with cq.queue := s.cq.queue ++ [alarm n (c.bumped k)] } := by
  subst at_
  refine (alarmCheck_posts (s := s.withCounter n ((counterAt s n).bumped k)) (by rw [counterAt_withCounter inside]; exact loud) open_).trans ?_
  rw [counterAt_withCounter inside]
  simp only [List.set_set]

end

/-- Of the four counters one alone takes the offer. -/
theorem offerAll_only {f : State → Nat → State} {s t : State} {i : Nat} (hi : i < 4) (acts : f s i = t)
    (before_ : ∀ j, j < 4 → j ≠ i → f s j = s) (after_ : ∀ j, j < 4 → j ≠ i → f t j = t) : offerAll f s = t := by
  unfold offerAll
  simp only [List.foldl_cons, List.foldl_nil]
  obtain rfl | rfl | rfl | rfl : i = 0 ∨ i = 1 ∨ i = 2 ∨ i = 3 := by omega
  · rw [acts, after_ 1 (by omega) (by omega), after_ 2 (by omega) (by omega), after_ 3 (by omega) (by omega)]
  · rw [before_ 0 (by omega) (by omega), acts, after_ 2 (by omega) (by omega), after_ 3 (by omega) (by omega)]
  · rw [before_ 0 (by omega) (by omega), before_ 1 (by omega) (by omega), acts, after_ 3 (by omega) (by omega)]
  · rw [before_ 0 (by omega) (by omega), before_ 1 (by omega) (by omega), before_ 2 (by omega) (by omega), acts]

theorem offerAll_none {f : State → Nat → State} {s : State} (none_ : ∀ j, j < 4 → f s j = s) : offerAll f s = s :=
  offerAll_only (i := 0) (by decide) (none_ 0 (by decide)) (fun j hj _ => none_ j hj) (fun j hj _ => none_ j hj)

/-! ### Events (R161, R163) -/

/-- The counter counts the event. -/
def Counts (e : Ev) (c : Counter) : Prop := c.source = .event e.code ∧ c.mode = .count

theorem offerEvent_skips {e : Ev} {s : State} {n : Nat} (skips : ¬Counts e (counterAt s n)) : offerEvent e s n = s := if_neg skips

theorem offerEvent_counts {e : Ev} {s : State} {n : Nat} (counts : Counts e (counterAt s n)) : offerEvent e s n = bumpCounter n 1 s := if_pos counts

/-- A counter after the event `e`. -/
def Counter.after (e : Ev) (c : Counter) : Counter := if c.source = .event e.code ∧ c.mode = .count then c.bumped 1 else c

theorem offerEvent_silent {e : Ev} {s : State} {n : Nat} (inside : n < s.he.counters.length)
    (silent : Counts e (counterAt s n) → Silent ((counterAt s n).bumped 1)) : offerEvent e s n = s.withCounter n ((counterAt s n).after e) := by
  by_cases counts : Counts e (counterAt s n)
  · rw [offerEvent_counts counts, bumpCounter_silent inside rfl (silent counts), show Counter.after e _ = _ from if_pos counts]
  · rw [offerEvent_skips counts, show Counter.after e _ = _ from if_neg counts, withCounter_same _ rfl]

/-- No count reaches its limit: each counter of the event counts it. -/
theorem offerToCounters_silent {e : Ev} {s : State} (four : s.he.counters.length = 4)
    (silent : ∀ c ∈ s.he.counters, Counts e c → Silent (c.bumped 1)) :
    offerToCounters e s = { s with he.counters := s.he.counters.map (Counter.after e) } := by
  obtain ⟨c0, c1, c2, c3, cs⟩ : ∃ c0 c1 c2 c3, s.he.counters = [c0, c1, c2, c3] := by
    match h : s.he.counters, four with
    | [a, b, c, d], _ => exact ⟨a, b, c, d, rfl⟩
  have quiet (c : Counter) (mem : c ∈ [c0, c1, c2, c3]) : Counts e c → Silent (c.bumped 1) := silent c (by rw [cs]; exact mem)
  let at_ (ds : List Counter) : State := { s with he.counters := ds }
  have one (ds : List Counter) (n : Nat) (c : Counter) (inside : n < ds.length) (is_ : ds.getD n .clear = c) (mem : c ∈ [c0, c1, c2, c3]) :
      offerEvent e (at_ ds) n = at_ (ds.set n (c.after e)) := by
    have is_ : counterAt (at_ ds) n = c := is_
    rw [offerEvent_silent inside (by rw [is_]; exact quiet c mem), is_]
  calc offerToCounters e s = offerAll (offerEvent e) (at_ [c0, c1, c2, c3]) := by simp only [at_, ← cs]; rfl
    _ = at_ [c0.after e, c1.after e, c2.after e, c3.after e] := by
      simp only [offerAll, List.foldl_cons, List.foldl_nil]
      rw [one _ 0 c0 (by simp) rfl (by simp), one _ 1 c1 (by simp) rfl (by simp), one _ 2 c2 (by simp) rfl (by simp), one _ 3 c3 (by simp) rfl (by simp)]
      rfl
    _ = _ := by rw [cs]; rfl

/-- An event makes no checkpoint but where the frames written reach a multiple of 4,096 (R166). -/
theorem event_eq {e : Ev} {s : State} (between : e = .frameWritten → s.he.tallyOpen = false ∨ (min (s.he.tally.frames + 1) 4294967295) % 4096 ≠ 0)
    {t : State} (offered : offerToCounters e { s with he.tally := tallyEvent e s.he.tally } = t) (tally : t.he.tally = tallyEvent e s.he.tally)
    (open_ : t.he.tallyOpen = s.he.tallyOpen) : event e s = t := by
  simp only [event, offered]
  rw [if_neg]
  rintro ⟨rfl, isOpen, multiple⟩
  rw [tally] at multiple
  rw [open_] at isOpen
  rcases between rfl with closed | other
  · exact absurd (closed.symm.trans isOpen) (by decide)
  · exact other multiple

/-- What an event does to the counters (R161, R163). -/
theorem event_counts (e : Ev) (i : Nat) (s : State) (four : s.he.counters.length = 4) (hi : i < 4)
    (between : e = .frameWritten → s.he.tallyOpen = false ∨ (min (s.he.tally.frames + 1) 4294967295) % 4096 ≠ 0) :
    ((∀ c ∈ s.he.counters, Counts e c → Silent (c.bumped 1)) → event e s = { s with
      he.tally := tallyEvent e s.he.tally, he.counters := s.he.counters.map (Counter.after e) }) ∧
    (Counts e (counterAt s i) → ¬Silent ((counterAt s i).bumped 1) → cqOpen s = true → (∀ j, j < 4 → j ≠ i → ¬Counts e (counterAt s j)) →
      event e s = { s with
        he.tally := tallyEvent e s.he.tally, he.counters := s.he.counters.set i { (counterAt s i).bumped 1 with posted := true },
        cq.queue := s.cq.queue ++ [alarm i ((counterAt s i).bumped 1)] }) := by
  refine ⟨fun silent => ?_, fun counts loud open_ others => ?_⟩
  · exact event_eq between (offerToCounters_silent (s := { s with he.tally := tallyEvent e s.he.tally }) four silent) rfl rfl
  · refine event_eq between (offerAll_only hi ?_ ?_ ?_) rfl rfl
    · rw [offerEvent_counts (by exact counts)]
      exact bumpCounter_alarm (s := { s with he.tally := tallyEvent e s.he.tally }) (four ▸ hi) rfl loud open_
    · intro j hj other
      exact offerEvent_skips (by exact others j hj other)
    · intro j hj other
      exact offerEvent_skips fun counts => others j hj other (by rw [← counterAt_withCounter_ne other _ s]; exact counts)

/-! ### Levels (R162, R163) -/

theorem offerLevel_skips {value : Nat → Nat} {s : State} {n : Nat} (skips : ∀ m, (counterAt s n).source ≠ .level m) : offerLevel value s n = s := by
  unfold offerLevel
  dsimp only
  split
  next m level => exact absurd level (skips m)
  next => rfl

section
variable {value : Nat → Nat} {s : State} {n m : Nat} {c : Counter} (at_ : counterAt s n = c) (level : c.source = .level m)
include at_ level

theorem offerLevel_level (mode : c.mode = .level) : offerLevel value s n = bumpCounter n (value m) s := by
  subst at_
  unfold offerLevel
  dsimp only
  rw [← counterAt, level]
  dsimp only
  rw [mode]

theorem offerLevel_above (mode : c.mode = .above) : offerLevel value s n = if c.holds (value m) then bumpCounter n 1 s else s := by
  subst at_
  unfold offerLevel
  dsimp only
  rw [← counterAt, level]
  dsimp only
  rw [mode]

theorem offerLevel_enter (mode : c.mode = .enter) : offerLevel value s n =
    if c.holds (value m) && !c.prev then bumpCounter n 1 (s.withCounter n { c with prev := c.holds (value m) })
    else s.withCounter n { c with prev := c.holds (value m) } := by
  subst at_
  unfold offerLevel
  dsimp only
  rw [← counterAt, level]
  dsimp only
  rw [mode]

end

/-! ### The history area (R176) -/

theorem persistentBytes_ne_nil (h : Health) : persistentBytes h ≠ [] := by simp [persistentBytes]

theorem snapshotBytes_ne_nil (s : State) : snapshotBytes s ≠ [] := fun empty => by
  have := congrArg List.length empty
  simp only [snapshotBytes, padTo_length, List.length_nil] at this
  exact absurd this (by decide)

/-! ### The cleaning state (R168) -/

/-- A change of the cleaning state away from a checkpoint, with no session to force (R135, R168). -/
theorem changeClean_cause {new : CleanState} {cause : CleanCause} {s : State} (elsewhere : cause ≠ .checkpointHead) (open_ : cqOpen s = true)
    (forced : new = .required → s.ri.session = .closed) : changeClean new cause s = State.attention { s with
      he.clean := new, he.escCount := if new = .advised then 0 else s.he.escCount,
      cq.queue := s.cq.queue ++ [noticeRecord .cleanStateChanged ([byteOf s.he.clean.code, byteOf new.code, byteOf cause.code] ++
        leBytes 4 s.he.meters ++ ones 2)] } := by
  obtain ⟨room, none_⟩ := (cqOpen_iff s).mp open_
  by_cases required : new = .required
  · subst required
    simp [changeClean, forceBand, sessionOpen, forced rfl, elsewhere, postAt, room, none_, startAttention_eq, State.attention]
  · simp [changeClean, required, elsewhere, postAt, room, none_, startAttention_eq, State.attention]

/-- Settles O56: the counters' offers one by one, and the HEALTH job's commands as they are judged. -/
theorem healthCounts : Obligations.HealthCounts := by
  refine ⟨?_, ?_, ?_, ?_, ?_, ?_, ?_⟩
  · intro e i s four hi between counts more silent c tallied
    obtain ⟨counted, posts⟩ := event_counts e i s four hi between
    refine ⟨counted, fun mine loud open_ others => ?_⟩
    rw [posts mine loud open_ others, alarm, show ((counterAt s i).bumped 1).source = .event e.code from mine.1]
    rfl
  · intro t up
    exact ⟨rfl, rfl, rfl, rfl, rfl, rfl, rfl, rfl, rfl, fun e mem => by fin_cases mem <;> rfl⟩
  · intro s none_
    simp only [exec, execHealthTick]
    congr 1
    rw [ite_eq_right_iff]
    intro tick
    refine offerAll_none fun j hj => offerLevel_skips fun m => ?_
    rcases none_ with off | ⟨four, levels⟩
    · exact absurd (off.symm.trans tick) (by decide)
    · refine levels _ ?_ m
      rw [counterAt, List.getD_eq_getElem _ _ (four ▸ hj)]
      exact List.getElem_mem _
  · intro c i n l s tick four hi at_ others level bound some_ sealed value holds becomes alarms sum one silent
    have value_ : levelValue s n = value := by
      simp only [value]
      obtain rfl | rfl | more : n = 0 ∨ n = 1 ∨ 2 ≤ n := by omega
      · rfl
      · rfl
      · obtain ⟨k, rfl⟩ : ∃ k, n = k + 2 := ⟨n - 2, by omega⟩
        simp [levelValue, deliveryFill, bound, some_]
    have holds_ : c.holds value = decide holds := by
      simp only [Counter.holds, holds]
      split <;> rfl
    have ticks (t : State) (acts : offerLevel (levelValue s) s i = t) (rest : ∀ j, j ≠ i → counterAt t j = counterAt s j) :
        exec .healthTick s = .next t := by
      simp only [exec, execHealthTick, tick, if_true]
      congr 1
      have off (j : Nat) (hj : j < 4) (other : j ≠ i) (m : Nat) : (counterAt s j).source ≠ .level m := by
        rw [show (counterAt s j).source = .off from others j hj other]; simp
      exact offerAll_only hi acts (fun j hj other => offerLevel_skips (off j hj other)) fun j hj other => offerLevel_skips (by rw [rest j other]; exact off j hj other)
    have inside : i < s.he.counters.length := four ▸ hi
    have kept (d : Counter) (j : Nat) (other : j ≠ i) : counterAt (s.withCounter i d) j = counterAt s j := counterAt_withCounter_ne other d s
    -- the bump of a counter that stands at `d`, with the level's code in the alarm
    have alarms_ (t : State) (d : Counter) (k : Nat) (at_ : counterAt t i = d) (source : d.source = c.source) (cs : t.he.counters.length = 4)
        (loud : ¬Silent (d.bumped k)) (open_ : cqOpen t = true) : bumpCounter i k t = { t.withCounter i { d.bumped k with posted := true } with
          cq.queue := t.cq.queue ++ [noticeRecord .monitorAlarm ([byteOf i, byteOf (65 + n)] ++ leBytes 4 (d.bumped k).count)] } := by
      rw [bumpCounter_alarm (cs ▸ hi) at_ loud open_, alarm, show (d.bumped k).source = .level n from source.trans level]
      rfl
    refine ⟨fun mode quiet => ?_, fun mode loud open_ => ?_, fun mode high quiet => ?_, fun mode high loud open_ => ?_, fun mode low => ?_,
      fun mode high prev quiet => ?_, fun mode high prev loud open_ => ?_, fun mode still => ?_⟩
    · refine ticks (s.withCounter i (c.bumped value)) ?_ (kept _)
      rw [offerLevel_level at_ level mode, value_]
      exact bumpCounter_silent inside at_ quiet
    · refine ticks _ ((offerLevel_level at_ level mode).trans ?_) (kept _)
      rw [value_]
      exact alarms_ s c value at_ rfl four loud open_
    · refine ticks (s.withCounter i (c.bumped 1)) ?_ (kept _)
      rw [offerLevel_above at_ level mode, value_, holds_, if_pos (decide_eq_true high)]
      exact bumpCounter_silent inside at_ quiet
    · refine ticks _ ((offerLevel_above at_ level mode).trans ?_) (kept _)
      rw [value_, holds_, if_pos (decide_eq_true high)]
      exact alarms_ s c 1 at_ rfl four loud open_
    · refine ticks (s.withCounter i c) ?_ (kept _)
      rw [offerLevel_above at_ level mode, value_, holds_, if_neg (by simpa using low), withCounter_same c at_]
    · refine ticks (s.withCounter i { c.bumped 1 with prev := true }) ?_ (kept _)
      rw [offerLevel_enter at_ level mode, value_, holds_, decide_eq_true high, prev]
      refine (bumpCounter_silent (s := s.withCounter i { c with prev := true }) (by simpa using inside) (counterAt_withCounter inside _) quiet).trans ?_
      simp only [State.withCounter, List.set_set]
      rfl
    · refine ticks _ ((offerLevel_enter at_ level mode).trans ?_) (kept _)
      rw [value_, holds_, decide_eq_true high, prev]
      refine (alarms_ (s.withCounter i { c with prev := true }) _ 1 (counterAt_withCounter inside _) rfl (by simpa using four) loud open_).trans ?_
      simp only [List.set_set]
      rfl
    · refine ticks (s.withCounter i { c with prev := decide holds }) ?_ (kept _)
      rw [offerLevel_enter at_ level mode, value_, holds_, if_neg]
      rcases still with low | prev
      · simp [low]
      · simp [prev]
  · intro tag m s place still isEvent isLevel good source
    have still := still.symm
    have judged (t : State) (st : Status) (places : placeOpen .health t = placeOpen .health s) (still : quiet t = true ∨ calm t = true)
        (answer : judgeSetMonitor m (s.setJob .health (runningNow { tag := tag, op := .setMonitor m })) =
          completeWith .health st (t.setJob .health (runningNow { tag := tag, op := .setMonitor m }))) :
        exec (.setMonitor tag m) s = .next (posted tag (.setMonitor m) st 0 .none t) :=
      firmware_completes_into (c := { tag := tag, op := .setMonitor m }) still place (places ▸ place) rfl (by simp [waitsForRecovery]) answer
    -- the source code, and whether the mode fits it
    have source_ : (sourceOf m.source = some source ∧ (m.source = 0 ∨ isEvent ∨ isLevel)) ∨ (sourceOf m.source = none ∧ ¬(m.source = 0 ∨ isEvent ∨ isLevel)) := by
      simp only [sourceOf, source, isEvent, isLevel]
      by_cases off : m.source = 0
      · simp [off]
      · by_cases event : m.source ≤ 16
        · simp only [off, event, if_true, if_false]
          exact .inl ⟨trivial, .inr (.inl ⟨by omega, trivial⟩)⟩
        · by_cases level : 65 ≤ m.source ∧ m.source ≤ 67
          · simp [off, event, level]
          · right
            simp only [off, event, if_false, false_or, and_false]
            exact ⟨if_neg level, level⟩
    have fits : m.source = 0 ∨ isEvent ∨ isLevel → (modeFits source (modeOf m.mode) = true ↔
        m.source = 0 ∨ (isEvent ∧ modeOf m.mode = .count) ∨ (isLevel ∧ modeOf m.mode ≠ .count)) := by
      intro known
      by_cases off : m.source = 0
      · simp [source, off, modeFits]
      · by_cases event : m.source ≤ 16
        · have none_ : ¬isLevel := fun level => by omega
          have is_ : isEvent := ⟨by omega, event⟩
          simp only [source, off, event, if_true, if_false, is_, none_, false_or, true_and, false_and, or_false]
          cases modeOf m.mode <;> simp [modeFits]
        · have none_ : ¬isEvent := fun mine => event mine.2
          have is_ : isLevel := by simpa [off, none_] using known
          simp only [source, off, event, if_false, is_, none_, false_or, true_and, false_and]
          cases modeOf m.mode <;> simp [modeFits]
    refine ⟨fun bad => judged s _ rfl still ?_, fun good => judged _ _ rfl still ?_⟩
    · rcases source_ with ⟨some_, known⟩ | ⟨none_, -⟩
      · simp only [judgeSetMonitor, some_]
        rw [if_pos]
        by_contra fit
        simp only [not_or, Nat.not_lt, Bool.not_eq_false] at fit
        exact bad ⟨fit.1, (fits known).mp fit.2⟩
      · simp only [judgeSetMonitor, none_]
    · obtain ⟨low, fit⟩ := good
      have known : m.source = 0 ∨ isEvent ∨ isLevel := fit.imp id (Or.imp And.left And.left)
      rcases source_ with ⟨some_, -⟩ | ⟨-, unknown⟩
      · simp only [judgeSetMonitor, some_]
        rw [if_neg (by simp only [not_or, Nat.not_lt, Bool.not_eq_false]; exact ⟨low, (fits known).mpr fit⟩)]
        rfl
      · exact absurd known unknown
  · intro tag l s bound place still
    have still := still.symm
    refine firmware_completes_into (c := { tag := tag, op := .healthSnapshot }) (t := { s with
      bp.reqs := s.bp.reqs ++ [partWrite l.histBase (persistentBytes s.he) .plain, partWrite (l.histBase + 512) (snapshotBytes s) .plain] })
      (still.imp id id) place place rfl (by simp [waitsForRecovery]) ?_
    rw [judgeHealthSnapshot, writePersistent, if_pos (by exact Option.isSome_iff_exists.mpr ⟨l, bound⟩), issueWrite_internal (persistentBytes_ne_nil _)]
    refine (congrArg (completeWith .health .ok) (issueWrite_internal (snapshotBytes_ne_nil _) _ _ _)).trans ?_
    simp [histBase, bound, completeWith, State.setJob]
    rfl
  · intro tag x s place still soft usage escalation set done
    have still := still.symm
    have judged (t : State) (places : placeOpen .health t = true) (still : quiet t = true ∨ calm t = true)
        (answer : escalationCheck (usageCheck (set.setJob .health (runningNow { tag := tag, op := .setCleanLimits x }))) =
          t.setJob .health (runningNow { tag := tag, op := .setCleanLimits x })) :
        exec (.setCleanLimits tag x) s = .next (done t) := by
      refine firmware_completes_into (c := { tag := tag, op := .setCleanLimits x }) still place places rfl (by simp [waitsForRecovery]) ?_
      exact congrArg (completeWith .health .ok) answer
    obtain ⟨bound, clear, -, none_, cancelled⟩ := (placeOpen_iff _ s).mp place
    let judging : State := set.setJob .health (runningNow { tag := tag, op := .setCleanLimits x })
    have judging_ : cqOpen judging = cqOpen s := by rw [cqOpen_setJob]; rfl
    have open_ : s.cq.queue.length < 7 → cqOpen judging = true := fun room => by rw [judging_, cqOpen_iff]; exact ⟨by omega, none_⟩
    refine ⟨fun nothing => judged set place still ?_, fun ok reached_ room => judged _ ?_ still ?_, fun advised reached_ closed room => judged _ ?_ still ?_⟩
    · have used : ¬(s.he.clean = .ok ∧ usage ≤ s.he.meters) := by
        rintro ⟨ok, reached_⟩
        rw [ok] at nothing
        simp at nothing
        omega
      have escalated : ¬(s.he.clean = .advised ∧ escalation ≤ s.he.escCount) := by
        rintro ⟨advised, reached_⟩
        rw [advised] at nothing
        simp at nothing
        omega
      exact (congrArg escalationCheck (if_neg used)).trans (if_neg escalated)
    · exact (placeOpen_iff _ _).mpr ⟨bound, clear, by simp; omega, none_, cancelled⟩
    · have due : usageCheck judging = _ := (if_pos ⟨ok, reached_⟩).trans (changeClean_cause (by decide) (open_ room) (fun never => by cases never))
      have low : ¬(escalation ≤ 0) := by omega
      refine (congrArg escalationCheck due).trans ((if_neg fun done_ => low done_.2).trans ?_)
      simp only [State.attention, show judging.he.clean = .ok from ok]
      rfl
    · exact (placeOpen_iff _ _).mpr ⟨bound, clear, by simp; omega, none_, cancelled⟩
    · have idle : usageCheck judging = judging := if_neg fun ok => by
        rw [show judging.he.clean = .advised from advised] at ok
        exact absurd ok.1 (by decide)
      refine (congrArg escalationCheck idle).trans ((if_pos ⟨advised, reached_⟩).trans ((changeClean_cause (by decide) (open_ room) (fun _ => closed)).trans ?_))
      simp only [State.attention, show judging.he.clean = .advised from advised]
      rfl

end Sys2Proof.Machine
end

section
/-! SUPPORT. Proofs about the completion queue and its ring (Chapter 10). -/

namespace Sys2Proof.Machine
/-! ### The ring record (12.4) -/

theorem recordBytes_ne_nil (lap : Bool) (r : Record) : recordBytes lap r ≠ [] := by simp [recordBytes]

/-- A record's head, the 12 bytes before its body. -/
def recordHead (lap : Bool) (r : Record) : List Byte :=
  [byteOf ((if r.notice then 2 else 1) + (if lap then 128 else 0)), byteOf r.status, byteOf r.sub, byteOf r.rep] ++ (leBytes 2 r.code ++
    ([byteOf r.present, 0] ++ leBytes 4 r.tag.toNat))

theorem recordBytes_eq {r : Record} (whole : r.body.length = 20) (lap : Bool) : recordBytes lap r = recordHead lap r ++ r.body := by
  have body : padTo 20 r.body = r.body := by simp [padTo, whole]
  simp only [recordBytes, recordHead, body, List.append_assoc]

theorem recordHead_length (lap : Bool) (r : Record) : (recordHead lap r).length = 12 := by simp [recordHead]

theorem field_recordBytes {r : Record} {off n : Nat} (whole : r.body.length = 20) (head : off + n ≤ 12) (lap : Bool) :
    field (recordBytes lap r) off n = field (recordHead lap r) off n := by
  rw [field, recordBytes_eq whole, slice_append_left (by rw [recordHead_length]; exact head), field]

/-- Settles O58: the records that wait, the ring's writes and grants, and the bytes of a record. -/
theorem recordsReachRing : Obligations.RecordsReachRing := by
  refine ⟨?_, ?_, ⟨?_, ?_, ?_⟩, ?_⟩
  · intro k r rest j c n i l s waiting entered
    refine ⟨fun full => ?_, fun job room none_ => ?_, fun job room some_ ready => ?_, fun key room => ?_, fun key posting bound room => ?_⟩
    · simp [exec, execInternalQueueEntry, waiting, Nat.not_lt.mpr full]
    · subst job
      have none_ : (entered.job j).pending = none := none_
      simp only [exec, execInternalQueueEntry, waiting, if_pos room]
      exact congrArg Host.Outcome.next (endRunning_of_none none_)
    · subst job
      have some_ : (entered.job j).pending = some c := some_
      simp only [exec, execInternalQueueEntry, waiting, if_pos room]
      refine congrArg Host.Outcome.next ?_
      have ready : (entered.setJob j { running := some (.cmd c), judged := false, finishing := false, pending := none }).ci.state ≠ .stalled j := by
        cases j <;> exact ready
      show endRunning j entered = _
      simp only [endRunning, some_]
      rw [if_neg ready]
    · rcases key with rfl | rfl | ⟨rfl, elsewhere⟩
      · simp [exec, execInternalQueueEntry, waiting, room, cqPush, entered]
      · simp [exec, execInternalQueueEntry, waiting, room, cqPush, entered]
      · simp [exec, execInternalQueueEntry, waiting, room, cqPush, entered, elsewhere]
    · subst key
      simp [exec, execInternalQueueEntry, waiting, room, cqPush, entered, posting, readSlot, bound, issueRead_internal]
  · intro s none_
    simp [exec, execInternalQueueEntry, none_]
  · intro l r rest s bound queue idle q
    refine ⟨fun room => ?_, fun full => ?_⟩
    · have room : ringCount l.n s.cq.p s.cq.c < l.n - 1 := room
      simp [exec, execRingRecordWrite, bound, queue, idle, room, issueWrite_internal (recordBytes_ne_nil _ _)]
    · have full : ¬ringCount l.n s.cq.p s.cq.c < l.n - 1 := Nat.not_lt.mpr full
      simp [exec, execRingRecordWrite, bound, queue, full]
  · intro s none_
    rcases none_ with empty | writing
    · simp [exec, execRingRecordWrite, empty]
    · simp only [exec, execRingRecordWrite, writing]
      split <;> rfl
  · intro before rest r l s chosen what write cls some_ short bound p
    have step : r.step = r.len := by simp [Req.step, Config.lineBytes]; omega
    rw [memoryPortGrant_eq chosen]
    simp [moveLine, write, step, cls, requestDone, what, recordGranted, bound, setService, ringCount, p]
    rfl
  · intro lap r whole status sub rep code present bs
    have tag : r.tag.toNat < 4294967296 := r.tag.isLt
    refine ⟨by simp only [bs]; rw [recordBytes_eq whole, List.length_append, recordHead_length, whole], ?_, ?_, ?_, ?_, ?_, ?_, ?_, ?_⟩
    · rw [field_recordBytes whole (by decide)]
      cases notice : r.notice <;> cases lap <;> simp [field, recordHead, slice, byteOf, leNat, notice]
    · rw [field_recordBytes whole (by decide)]; simp [field, recordHead, slice, byteOf, leNat, Nat.mod_eq_of_lt status]
    · rw [field_recordBytes whole (by decide)]; simp [field, recordHead, slice, byteOf, leNat, Nat.mod_eq_of_lt sub]
    · rw [field_recordBytes whole (by decide)]; simp [field, recordHead, slice, byteOf, leNat, Nat.mod_eq_of_lt rep]
    · rw [field_recordBytes whole (by decide)]; simp [field, recordHead, slice, leNat_leBytes, Nat.mod_eq_of_lt code]
    · rw [field_recordBytes whole (by decide)]; simp [field, recordHead, slice, byteOf, leNat, Nat.mod_eq_of_lt present]
    · rw [field_recordBytes whole (by decide)]; simp [field, recordHead, slice, List.drop_append,
        List.drop_of_length_le (show (leBytes 2 r.code).length ≤ 4 by simp), List.take_of_length_le (show (leBytes 4 r.tag.toNat).length ≤ 4 by simp), leNat_leBytes, tag]
    · simp only [bs]; rw [recordBytes_eq whole, List.drop_left' (recordHead_length lap r)]

end Sys2Proof.Machine
end

section
/-! SUPPORT. Proofs about the library link (Chapter 11). -/

namespace Sys2Proof.Machine
/-! ### Headers and sums (R191, R192) -/

theorem onesIn_parity (b : Byte) : onesIn 8 b.toNat = ((List.range 8).filter b.toNat.testBit).length := by
  revert b
  decide

theorem foldl_add (bs : List Byte) (x y : Byte) : bs.foldl (· + ·) (x + y) = x + bs.foldl (· + ·) y := by
  induction bs generalizing y with
  | nil => rfl
  | cons b bs ih => rw [List.foldl_cons, BitVec.add_assoc, ih, List.foldl_cons]

theorem foldl_sub (bs : List Byte) (x : Byte) : bs.foldl (· - ·) x = x - bs.foldl (· + ·) 0 := by
  induction bs generalizing x with
  | nil => simp
  | cons b bs ih =>
    rw [List.foldl_cons, ih, List.foldl_cons, BitVec.add_comm, foldl_add]
    bv_omega

/-- The check byte is the one that brings the sum to FFh. -/
theorem eq_checkByte_iff (a c : Byte) (bs : List Byte) : c = checkByte a bs ↔ bs.foldl (· + ·) (c + a) = 255 := by
  rw [checkByte, foldl_sub, ← BitVec.add_zero (c + a), foldl_add]
  generalize bs.foldl (· + ·) 0 = sum
  constructor
  · rintro rfl; bv_omega
  · intro whole; bv_omega

theorem headerGood_iff (h : LinkHeader) (s : State) : headerGood h s = true ↔
    h.rateFraming = false ∧ h.rateLate = false ∧ 2400 * h.fallInterval ≤ 5000000000 ∧ 5000000000 ≤ 57600 * h.fallInterval ∧
    h.addrFraming = false ∧ h.addrLate = false ∧ ((List.range 8).filter h.addr.toNat.testBit).length % 2 = 0 ∧
    h.addr.toNat / 32 = s.li.strap.toNat := by
  simp only [headerGood, rateGood, addrGood, onesIn_parity, Bool.and_eq_true, Bool.not_eq_true', decide_eq_true_eq, and_assoc]
  rfl

theorem payloadGood_iff (h : LinkHeader) (p : LinkPayload) : payloadGood h p = true ↔
    p.framing = false ∧ p.late = false ∧ p.bytes.length = (if queryOf h.addr = 6 then 8 else 2) ∧ p.bytes.foldl (· + ·) (p.check + h.addr) = 255 := by
  simp only [payloadGood, eq_checkByte_iff, Bool.and_eq_true, Bool.not_eq_true', decide_eq_true_eq, and_assoc]
  rfl

/-! ### A good header (R191, R197) -/

/-- A drive attention in progress is satisfied (R197). -/
def State.answeredAttention (s : State) : State := { s with li.attn := if s.li.attn = .window ∨ s.li.attn = .gap then .none else s.li.attn }

theorem satisfyAttention_eq (s : State) : satisfyAttention s = s.answeredAttention := by
  unfold satisfyAttention State.answeredAttention
  split <;> rfl

section
variable {h : LinkHeader} {p : Option LinkPayload} {s : State}

theorem linkHeader_elsewhere (phase : s.li.phase ≠ .awaitHeader) : linkHeader h p s = s := if_pos phase

theorem linkHeader_bad (phase : s.li.phase = .awaitHeader) (bad : headerGood h s = false) : linkHeader h p s = endTransaction s := by
  simp [linkHeader, phase, bad]

/-- What a good header leads to, by its query (R191). -/
def queryHandled (h : LinkHeader) (p : Option LinkPayload) (s : State) (q : Nat) : State :=
  if q = 0 then answer h (statusPayload s) s
  else if q = 1 then answer h (cartIdPayload s) s
  else if q = 2 then answer h (cleanInfoPayload s) s
  else if q = 5 then passOutAnswer h s
  else if q = 3 ∨ q = 4 ∨ q = 6 then
    (p.map fun x => takePayload h x s).getD { s with li.phase := .awaitPayload, li.bitTime := some (h.fallInterval / 5) }
  else endTransaction s

theorem queryHandled_status (s : State) : queryHandled h p s 0 = answer h (statusPayload s) s := rfl
theorem queryHandled_cartId (s : State) : queryHandled h p s 1 = answer h (cartIdPayload s) s := rfl
theorem queryHandled_cleanInfo (s : State) : queryHandled h p s 2 = answer h (cleanInfoPayload s) s := rfl
theorem queryHandled_passOut (s : State) : queryHandled h p s 5 = passOutAnswer h s := rfl

theorem linkHeader_good (phase : s.li.phase = .awaitHeader) (good : headerGood h s = true) :
    linkHeader h p s = queryHandled h p s.answeredAttention (queryOf h.addr) := by
  unfold linkHeader
  rw [if_neg (by simp [phase]), if_pos good, satisfyAttention_eq]
  unfold queryHandled
  dsimp only
  split
  case h_8 n zero one two five three four six =>
    rw [if_neg zero, if_neg one, if_neg two, if_neg five, if_neg (by rintro (is_ | is_ | is_); exacts [three is_, four is_, six is_])]
  case h_5 is_ => rw [is_]; cases p <;> rfl
  case h_6 is_ => rw [is_]; cases p <;> rfl
  case h_7 is_ => rw [is_]; cases p <;> rfl
  all_goals
    next is_ => rw [is_]; rfl

end

theorem serial_length (s : State) : s.cart.serial.length = 8 := by
  simp [State.cart, cartOf, slice]

/-- Settles O59: the headers, the queries that are answered at once, and the payloads. -/
theorem linkQueriesAnswered : Obligations.LinkQueriesAnswered := by
  refine ⟨headerGood_iff, fun a bs => (eq_checkByte_iff a _ bs).mp rfl, ?_, ?_, ?_, ?_⟩
  · intro h p s t cases_
    have same (q : Option LinkPayload) : linkHeader h q s = t := by
      rcases cases_ with ⟨phase, bad, rfl⟩ | ⟨phase, rfl⟩
      · exact linkHeader_bad phase bad
      · exact linkHeader_elsewhere phase
    simp only [exec, execStatus, execCartId, execCleanInfo, execPassOut, execLoadHint, execUnloadReq, execPassIn, execLinkHeaderOther, same, and_self]
  · intro h bs s phase good q attn answered flags uses
    have query (n : Nat) (is_ : q = n) : queryOf h.addr = n := is_
    have cart : s.answeredAttention.cart = s.cart := cart_congr rfl rfl
    refine ⟨fun zero => ?_, fun one => ?_, fun two => ?_, fun five staged => ?_, fun five none_ open_ => ?_⟩
    · have flags_ : busyFlags s.answeredAttention = flags := by
        simp only [busyFlags, transportHeld, sessionOpen, decide_eq_true_eq]
        rfl
      simp only [exec, execStatus, linkHeader_good phase good, query _ zero, queryHandled_status, answer, statusPayload, flags_, lineMoves]
      simp only [zero, answered]
      rfl
    · have payload : cartIdPayload s.answeredAttention = if s.ch.recordHeld then s.cart.serial else List.replicate 8 0 := by
        have whole : padTo 8 s.cart.serial = s.cart.serial := by simp [padTo, serial_length]
        rw [cartIdPayload, cart, whole]
        rfl
      simp only [exec, execCartId, linkHeader_good phase good, query _ one, queryHandled_cartId, answer, payload, lineMoves]
      simp only [one, answered]
      rfl
    · have payload : cleanInfoPayload s.answeredAttention = [byteOf s.he.clean.code] ++ leBytes 2 (min (s.he.meters / 1000) 65535) ++ [uses] := by
        rw [cleanInfoPayload, cart]
        simp only [uses, Bool.and_eq_true]
        rfl
      simp only [exec, execCleanInfo, linkHeader_good phase good, query _ two, queryHandled_cleanInfo, answer, payload, lineMoves]
      simp only [two, answered]
      rfl
    · have reply : passOutAnswer h s.answeredAttention = { answer h bs s.answeredAttention with li.copied := true } := by
        rw [passOutAnswer, show s.answeredAttention.li.staged = some bs from staged]
      simp only [exec, execPassOut, linkHeader_good phase good, query _ five, queryHandled_passOut, reply, answer, lineMoves]
      simp only [five, answered]
      rfl
    · have late_ : passOutAnswer h s.answeredAttention = postNotice .linkLate [byteOf (queryOf h.addr)] (endTransaction s.answeredAttention) := by
        rw [passOutAnswer, show s.answeredAttention.li.staged = none from none_]
      simp only [exec, execPassOut, linkHeader_good phase good, query _ five, queryHandled_passOut, late_]
      rw [postNotice_of_open (s := endTransaction s.answeredAttention) open_]
      rfl
  · intro h p s phase good q ended whole told refused free
    have query (n : Nat) (is_ : q = n) : queryOf h.addr = n := is_
    have whole_ : payloadGood h p = true ↔ whole := payloadGood_iff h p
    have takes (known : q = 3 ∨ q = 4 ∨ q = 6) : linkHeader h (some p) s = takePayload h p s.answeredAttention := by
      rw [linkHeader_good phase good]
      rcases known with is_ | is_ | is_ <;> rw [query _ is_] <;> rfl
    have tells (content : List Byte) (t : State) (open_ : cqOpen t = true) : linkRequest q content t = told content t := postNotice_of_open open_ _ _
    have asks (bad : whole) (four : q = 4) : exec (.unloadReq h p) s = .next (unloadRequest p.bytes ended) := by
      simp only [exec, execUnloadReq]
      rw [takes (.inr (.inl four)), takePayload, if_pos (whole_.mpr bad), if_pos (query _ four)]
      rfl
    have refuses (n : Nat) (mine : whole) (four : q = 4) (open_ : cqOpen s = true) (reason : unloadReqReason ended = some (.code n)) : refused n := by
      have told_ := tells (p.bytes ++ [byteOf n]) { ended with li.unloadRefused := true } open_
      rw [four] at told_
      simp only [refused]
      rw [asks mine four, unloadRequest, reason]
      exact congrArg Host.Outcome.next told_
    have requests (known : q = 3 ∨ q = 6) (mine : whole) (open_ : cqOpen s = true) : linkHeader h (some p) s = told p.bytes ended := by
      rw [takes (known.imp id .inr), takePayload, if_pos (whole_.mpr mine), if_neg (by show q ≠ 4; omega)]
      exact tells _ ended open_
    have idle (clear : free) : (ended.ci.transport.running.isSome || ended.ci.transport.pending.isSome) = false := by
      rw [show ended.ci.transport = Job.clear from clear]; rfl
    refine ⟨fun bad => ?_, fun mine three open_ => ?_, fun mine six open_ => ?_, fun mine four open_ busy => ?_, fun mine four open_ clear session => ?_,
      fun mine four open_ clear session reads => ?_, fun mine four open_ clear session reads ready parked => ?_, ?_, fun seven => ?_, fun known => ?_⟩
    · have ends (known : q = 3 ∨ q = 4 ∨ q = 6) : linkHeader h (some p) s = ended := by
        rw [takes known, takePayload, if_neg (fun mine => bad (whole_.mp mine))]
        rfl
      refine ⟨fun is_ => ?_, fun is_ => ?_, fun is_ => ?_⟩
      · exact congrArg Host.Outcome.next (ends (.inl is_))
      · exact congrArg Host.Outcome.next (ends (.inr (.inl is_)))
      · exact congrArg Host.Outcome.next (ends (.inr (.inr is_)))
    · exact congrArg Host.Outcome.next (requests (.inl three) mine open_)
    · exact congrArg Host.Outcome.next (requests (.inr six) mine open_)
    · refine refuses 1 mine four open_ ?_
      rw [unloadReqReason, if_pos (by simpa using busy)]
    · refine refuses 2 mine four open_ ?_
      rw [unloadReqReason, if_neg (by rw [idle clear]; decide), if_pos (by exact decide_eq_true session)]
    · refine refuses 3 mine four open_ ?_
      rw [unloadReqReason, if_neg (by rw [idle clear]; decide), if_neg (by simpa [sessionOpen] using session), if_pos (by exact reads)]
    · refine refuses 4 mine four open_ ?_
      rw [unloadReqReason, if_neg (by rw [idle clear]; decide), if_neg (by simpa [sessionOpen] using session), if_neg (by rw [show readRunning ended = readRunning s from rfl, reads]; decide), if_pos ⟨ready, parked⟩]
    · intro mine four clear read write calm ready settled brake seat known undistanced first far
      rw [asks mine four]
      obtain ⟨⟨deferred, session, intake, watch, held, flush, close⟩, noted_⟩ := (quiet_iff s).mp calm
      have idleRead : readRunning s = false := by rw [readRunning, read]; rfl
      have accepted : unloadReqReason ended = none := by
        rw [unloadReqReason, if_neg (by rw [idle clear]; decide), if_neg (by simpa [sessionOpen] using session)]
        rw [if_neg (by rw [show readRunning ended = readRunning s from rfl, idleRead]; decide), if_neg (by rw [show ended.ch.transport = .ready from ready]; simp), if_neg (by rw [show ended.pw.settling = false from settled]; simp)]
      rw [unloadRequest, accepted]
      have low : Config.regionLow = 20000 := rfl
      have fast : Config.locateSpeed = 307 := rfl
      have back : ¬s.mo.count < Config.regionLow := by omega
      have reverse : Config.regionLow < s.mo.count := by omega
      have room : ¬(s.mo.count - Config.regionLow) * 256 ≤ Config.locateSpeed * (Config.locateSpeed + 1) := by rw [fast]; omega
      simp [ended, ← low, ← fast, endReadForUnload, runningOp, unloadFrom, beginUnload, startRewind, setTransport, holdIdle, loopsRun, noteTarget_eq, tStar, activity,
        startPlan, enterActive, motionStart, rewindLegs, first, beginLegs, moveLeg, bot, checkStop, remaining, reverse, room, known, undistanced, settled,
        AtEase.settle_eq, atEase_iff, ready, read, write, Job.clear, brake, deferred, session, intake, watch, held, flush, close]
    · simp only [exec, execLinkHeaderOther]
      rw [linkHeader_good phase good, queryHandled, show queryOf h.addr = q from rfl]
      rw [if_neg (by omega), if_neg (by omega), if_neg (by omega), if_neg (by omega), if_neg (by omega)]
      rfl
    · simp only [exec, execLinkHeaderOther]
      rw [linkHeader_good phase good]
      rcases known with is_ | is_ | is_ <;> rw [query _ is_] <;> rfl
  · intro s
    constructor
    · intro phase
      rcases phase with phase | phase <;> simp [exec, execLinkByteTimeout, phase, endTransaction]
    · intro header payload
      simp [exec, execLinkByteTimeout, header, payload]
/-- Settles O60: the line, the answers' ends, the LINK job and the drive attention, row by row. -/
theorem lineAndAttention : Obligations.LineAndAttention := by
  refine ⟨?_, ?_, ?_⟩
  · intro level micros q s moved idle opens header ended
    refine ⟨fun same => ?_, fun other => ?_, fun on => ?_, fun off => ?_, fun open_ silent => ?_, fun open_ idle_ parked w n brake step => ?_,
      fun open_ idle_ n asleep room => ?_, fun closed => ?_, fun phase status copied => ?_, fun phase => ?_, fun phase copied => ?_, fun phase => ?_,
      fun phase => ?_⟩
    · simp [exec, execLineLevelChange, setLine, same]
    · simp [exec, execLineLevelChange, setLine, other, lineMoves, moved]
    · simp [exec, execLinkIdleExpiry, on]
    · simp [exec, execLinkIdleExpiry, off]
    · have answer : exec (.libraryAttention micros) s = .next (if s.li.idleAtFall.getD (!s.li.active) = true then offerLinkWake header else header) := by
        simp only [exec, execLibraryAttention]
        rw [if_pos open_]
        rfl
      rw [answer]
      split
      case isFalse => rfl
      case isTrue is_ =>
        obtain ⟨n, asleep⟩ := silent.resolve_left (not_not.mpr is_)
        have made : (decide (header.ch.transport = .parked) && header.pw.linkW) = false := by
          rcases asleep with elsewhere | off
          · simp [header, moved, elsewhere]
          · simp [header, moved, off]
        have off : header.pw.linkN = false := n
        simp [offerLinkWake, made, off]
    · obtain ⟨phase, long, pulsing⟩ := open_
      simp only [idle] at idle_
      simp [exec, execLibraryAttention, phase, long, pulsing, idle_, offerLinkWake, lineMoves, parked, w, n, wake, setTransport, holdIdle, loopsRun, brake, step, noteTarget_eq,
        tStar, activity, header, moved]
    · obtain ⟨phase, long, pulsing⟩ := open_
      obtain ⟨room, none_⟩ := (cqOpen_iff s).mp room
      simp only [idle] at idle_
      have made : (decide (s.ch.transport = .parked) && s.pw.linkW) = false := by
        rcases asleep with elsewhere | off
        · simp [elsewhere]
        · simp [off]
      simp [exec, execLibraryAttention, phase, long, pulsing, idle_, offerLinkWake, lineMoves, made, n, postWake, postAt, room, none_, header, moved]
      rfl
    · simp only [exec, execLibraryAttention]
      rw [if_neg closed]
    · have none_ : ¬(q = 5 ∧ s.li.copied = true) := by
        rintro ⟨five, on⟩
        rcases copied with other | off
        · exact other five
        · exact absurd (off.symm.trans on) (by decide)
      simp [exec, execAnswerSent, phase, status, none_, lineMoves, endTransaction, ended, moved]
    · simp [exec, execAnswerSent, phase, lineMoves, endTransaction, ended, moved]
    · simp [exec, execAnswerSent, phase, copied, lineMoves, endTransaction, ended, moved]
    · simp [exec, execTransmitMismatch, phase, lineMoves, endTransaction, ended, moved, satAdd32, max32]
    · rcases phase with phase | phase | phase <;> simp [exec, execAnswerSent, execTransmitMismatch, phase]
  · intro tag bs s place still
    have still := still.symm
    refine ⟨fun whole => ?_, ?_⟩
    · refine firmware_completes_into (c := { tag := tag, op := .linkReply bs }) (t := { s with li.staged := some bs, li.copied := false }) still place place rfl
        (by simp [waitsForRecovery]) ?_
      have same : padTo 8 bs = bs := by simp [padTo, whole]
      simp only [judgeLinkReply, same]
      rfl
    · refine firmware_completes_into (c := { tag := tag, op := .linkAttention }) (t := { s with
        li.attnFirmware := true, li.attn := if s.li.attn = .none then .pulseDue else s.li.attn,
        li.pulses := if s.li.attn = .none then 0 else s.li.pulses }) still place place rfl (by simp [waitsForRecovery]) ?_
      simp only [judgeLinkAttention, startAttention_eq]
      rfl
  · intro level s due causes
    refine ⟨fun due_ => ?_, fun not_ => ?_, fun on => ?_, fun off => ?_, fun window more => ?_, fun window last open_ => ?_, fun other => ?_, fun gap => ?_,
      fun other => ?_⟩
    · obtain ⟨attn, pulsing, line, phase⟩ := due_
      simp [exec, execAttentionPulseStart, attn, pulsing, line, phase, setLine, lineMoves]
    · simp only [exec, execAttentionPulseStart]
      rw [if_neg not_]
    · simp [exec, execAttentionPulseEnd, on, lineMoves]
    · simp [exec, execAttentionPulseEnd, off]
    · simp [exec, execAttentionWindowExpiry, window, more]
    · obtain ⟨room, none_⟩ := (cqOpen_iff s).mp open_
      simp [exec, execAttentionWindowExpiry, window, Nat.not_lt.mpr last, postAt, room, none_, causeBits, causes]
    · simp [exec, execAttentionWindowExpiry, other]
    · simp [exec, execAttentionGapExpiry, gap]
    · simp [exec, execAttentionGapExpiry, other]

end Sys2Proof.Machine
end

section
/-! SUPPORT. Proofs about WRITE_OPEN (R85, R86). -/

namespace Sys2Proof.Machine
/-! ### A session opens (R86) -/

/-- The session opened, up to the completion of WRITE_OPEN. -/
theorem openSession_eq {l : Layout} {offset seg rec_ : Nat} {compress : Bool} {resume : Pos} {s : State} (bound : s.bp.layout = some l)
    (none_ : slotsIn isOnTape s = []) :
    openSession offset compress seg rec_ resume s = completeWith .write .ok (s.sessionOpened l offset compress seg rec_ resume) := by
  have kept : dropOnTape s = s := by simp [dropOnTape, none_]
  simp only [openSession, kept, putCart_eq bound]
  refine congrArg (completeWith .write .ok) ?_
  simp [startSpeed, State.sessionOpened, Req.forget, partWrite, max32, two32]

/-- A command of the WRITE job being judged, the dwell cut by it (R39). -/
def State.judgingWrite (c : FwCmd) (s : State) : State := { s with
  pw.dwell := false, pw.cancelled := if s.pw.dwell then some .write else s.pw.cancelled, ci.write := runningNow c }

theorem judging_write {c : FwCmd} (job : fwJob c.op = .write) (s : State) : s.judging c = s.judgingWrite c := by
  unfold State.judging
  rw [job]
  rfl

/-- The command being judged shows in the opening only as such. -/
theorem sessionOpened_judging (l : Layout) (offset seg rec_ : Nat) (compress : Bool) (resume : Pos) (c : FwCmd) (s : State) :
    (s.judgingWrite c).sessionOpened l offset compress seg rec_ resume = (s.sessionOpened l offset compress seg rec_ resume).judgingWrite c := by
  unfold State.sessionOpened
  rw [cart_congr (t := s.judgingWrite c) (s := s) rfl rfl]
  rfl

/-- With no session command outstanding and intake waiting for no slot, only the note follows from a step (R78, R90, R96, R122). -/
theorem settle_unwaiting {s : State} (deferred : s.ci.deferred = []) (held : s.bp.held = none) (flush : s.wr.flush = none) (close : s.wr.close = false)
    (fetch : fetchDue s = false) (waits : intakeWaits s = false)
    (elsewhere : ¬(s.ch.transport = .active ∧ s.mo.mode = some .waitData) ∨ restartCause s = false) : settle s = noteTarget s := by
  have asleep : checkExhaustion s = s := by simp [checkExhaustion, flushCause, waits, flush, close]
  have stays : checkRestart s = s := by
    rcases elsewhere with elsewhere | uncaused
    · exact checkRestart_elsewhere elsewhere
    · simp [checkRestart, uncaused]
  simp only [settle, judgeDeferred_none deferred, checkFlush_none flush, checkClose_off close, rejudgeHeld_none held, startFetch_off fetch, asleep, stays]

/-- A command that cuts the dwell is judged, and what follows from the judgement. -/
theorem firmware_cuts {c : FwCmd} {judge : FwOp → State → State} {s t : State} (dwell : dwellSteady s = true) (place : placeOpen (fwJob c.op) s = true)
    (cuts : keepsDwell c.op = false) (now : (s.mo.mask && waitsForRecovery c.op) = false) (judged : judge c.op (s.judging c) = t) :
    firmware c judge s = .next (settle t) := by
  obtain ⟨bound, clear, -⟩ := (placeOpen_iff _ s).mp place
  rw [firmware_settles bound clear now, startRunning_dwellCut cuts dwell clear, judged]

/-- In READY the transport waits for data, with the dwell armed (R39, R86). -/
theorem enterWaitData_ready {s : State} (opened : s.ri.session ≠ .closed) (pendingEnd : s.wr.pendingEnd = .none) (ready : s.ch.transport = .ready)
    (brake : s.re.brake = false) : enterWaitData s = noteTarget s.waitsForData := by
  simp [enterWaitData, opened, pendingEnd, enterActive, ready, setTransport, holdIdle, loopsRun, brake, noteTarget_eq, tStar, activity, State.waitsForData]

/-- Nothing restarts the writer while fewer slots than the threshold are SEALED and nothing waits for one (R122). -/
theorem restartCause_few {s : State} (flush : s.wr.flush = none) (close : s.wr.close = false) (waits : intakeWaits s = false)
    (soft : softError s = false) (few : sealedCount s < s.sp.policy.restart) : restartCause s = false := by
  simp [restartCause, flushCause, flush, close, waits, soft, Nat.not_le.mpr few]

/-- Once the note is taken, nothing follows where no cause restarts the writer (R54, R122). -/
theorem settle_unrestarted {s : State} (deferred : s.ci.deferred = []) (held : s.bp.held = none) (flush : s.wr.flush = none) (close : s.wr.close = false)
    (fetch : fetchDue s = false) (waits : intakeWaits s = false) (soft : softError s = false) (few : sealedCount s < s.sp.policy.restart) :
    settle (noteTarget s) = noteTarget s := by
  obtain ⟨re, ch, frame⟩ := noteTarget_frame s
  have same : settle (noteTarget s) = noteTarget (noteTarget s) := by
    rw [frame]
    exact settle_unwaiting deferred held flush close fetch waits
      (.inr (restartCause_few (by exact flush) (by exact close) (by exact waits) (by exact soft) (by exact few)))
  rw [same, noteTarget_idem]

/-- A session opens in PARKED with nothing to follow (R86). -/
theorem settle_openedParked {l : Layout} {tag : Word} {op : FwOp} {offset seg r : Nat} {compress : Bool} {resume : Pos} {s : State}
    (deferred : s.ci.deferred = []) (held : s.bp.held = none) (flush : s.wr.flush = none) (close : s.wr.close = false)
    (noted_ : noted s = true) (parked : s.ch.transport = .parked) :
    settle (afterOpen (posted tag op .ok 0 .none (s.sessionOpened l offset compress seg r resume))) =
      posted tag op .ok 0 .none (s.sessionOpened l offset compress seg r resume) := by
  let t := posted tag op .ok 0 .none (s.sessionOpened l offset compress seg r resume)
  have same : afterOpen t = t := if_neg (show ¬s.ch.transport = .ready by rw [parked]; decide)
  have idle : available t = 0 := by simp [available, t, posted, State.sessionOpened]
  have elsewhere : ¬(t.ch.transport = .active ∧ t.mo.mode = some .waitData) := fun both => absurd (parked.symm.trans both.1) (by decide)
  rw [show afterOpen (posted tag op .ok 0 .none (s.sessionOpened l offset compress seg r resume)) = t from same]
  exact (settle_unwaiting (s := t) deferred held flush close (fetchDue_frontier idle) (by simp [intakeWaits, t, posted, State.sessionOpened])
    (.inl elsewhere)).trans (noteTarget_noted noted_)

/-- A session opens in READY into WAIT_DATA (R39, R86). -/
theorem settle_openedReady {l : Layout} {tag : Word} {op : FwOp} {offset seg r : Nat} {compress : Bool} {resume : Pos} {s : State}
    (deferred : s.ci.deferred = []) (held : s.bp.held = none) (flush : s.wr.flush = none) (close : s.wr.close = false)
    (ready : s.ch.transport = .ready) (brake : s.re.brake = false) (few : sealedCount s < s.sp.policy.restart) :
    settle (afterOpen (posted tag op .ok 0 .none (s.sessionOpened l offset compress seg r resume))) =
      posted tag op .ok 0 .none (noteTarget (s.sessionOpened l offset compress seg r resume).waitsForData) := by
  let t := posted tag op .ok 0 .none (s.sessionOpened l offset compress seg r resume)
  have waits : afterOpen t = noteTarget t.waitsForData :=
    (if_pos ready).trans (enterWaitData_ready (s := t) (by simp [t, posted, State.sessionOpened]) rfl ready brake)
  have idle : available t = 0 := by simp [available, t, posted, State.sessionOpened]
  have waiting : intakeWaits t = false := by simp [intakeWaits, t, posted, State.sessionOpened]
  have soft : softError t = false := by simp [softError, t, posted, State.sessionOpened]
  rw [show afterOpen (posted tag op .ok 0 .none (s.sessionOpened l offset compress seg r resume)) = _ from waits,
    settle_unrestarted (s := t.waitsForData) deferred held flush close (fetchDue_frontier idle) waiting soft few]
  rw [show t.waitsForData = posted tag op .ok 0 .none (s.sessionOpened l offset compress seg r resume).waitsForData from rfl]
  simp only [noteTarget_eq]
  rfl

/-- Settles O40: the checks in their order, the two openings, and the ends of the tag writes. -/
theorem writeOpenJudged : Obligations.WriteOpenJudged := by
  refine ⟨?_, ?_⟩
  · intro tag old offset n p compress l e s bound place dwell steady_ held flush close fetch waits elsewhere onTape op refusedIn refused fits still free
      headRead looked fromBot append blank atEnd opens ready
    obtain ⟨deferred, noted_⟩ := (steady_iff s).mp steady_
    let c : FwCmd := { tag := tag, op := .writeOpen offset compress }
    have unmoved (t : State) (ci : t.ci.deferred = s.ci.deferred) (ri : t.ri = s.ri)
        (bp : (t.bp.held, t.bp.watch, t.bp.rl, t.bp.release, t.bp.layout) = (s.bp.held, s.bp.watch, s.bp.rl, s.bp.release, s.bp.layout))
        (wr : (t.wr.flush, t.wr.close) = (s.wr.flush, s.wr.close)) (at_ : (t.ch.transport, t.mo.mode) = (s.ch.transport, s.mo.mode)) (same : noted t = noted s) :
        settle t = t := by
      obtain ⟨held', bp⟩ := Prod.mk.inj bp
      obtain ⟨flush', close'⟩ := Prod.mk.inj wr
      obtain ⟨transport, mode⟩ := Prod.mk.inj at_
      exact (settle_unwaiting (ci.trans deferred) (held'.trans held) (flush'.trans flush) (close'.trans close) ((fetchDue_congr ri bp).trans fetch)
        ((intakeWaits_congr ri).trans waits) (.inl (by rw [transport, mode]; exact elsewhere))).trans (noteTarget_noted (same.trans noted_))
    have judges (t : State) (judged : judgeWriteOpen offset compress (s.judgingWrite c) = t) : exec (.writeOpen tag offset compress) s = .next (settle t) :=
      firmware_cuts (c := c) dwell place rfl (by simp [c, waitsForRecovery]) judged
    -- a completion in the step that judges
    have completes (t : State) (st : Status) (sub : Nat) (dwell' : dwellSteady t = true) (place' : placeOpen .write t = true)
        (settles : settle (posted tag op st sub .none t) = posted tag op st sub .none t)
        (judged : judgeWriteOpen offset compress (s.judgingWrite c) = complete .write st sub .none (t.judgingWrite c)) :
        exec (.writeOpen tag offset compress) s = .next (posted tag op st sub .none t) := by
      rw [judges _ judged, show complete .write st sub .none (t.judgingWrite c) = posted tag op st sub .none t from
        complete_after_dwellCut (c := c) dwell' place', settles]
    have size (t : State) (bp : t.bp = s.bp) : ringZ t = l.z := by rw [ringZ, bp, bound]; rfl
    have judged_ (fit : fits) : judgeWriteOpen offset compress (s.judgingWrite c) =
        if s.ch.transport ≠ .ready ∧ s.ch.transport ≠ .parked then refuse .write (transportSub s.ch.transport) (s.judgingWrite c)
        else if sessionOpen (s.judgingWrite c) then refuse .write .sessionOpen (s.judgingWrite c)
        else if readRunning (s.judgingWrite c) then refuse .write .readActive (s.judgingWrite c)
        else judgeWritable offset compress (consultHead (s.judgingWrite c)) := by
      rw [judgeWriteOpen, if_neg (by rw [size (s.judgingWrite c) rfl]; simp only [fits] at fit; omega)]
      rfl
    have unopened (closed : s.ri.session = .closed) : sessionOpen (s.judgingWrite c) = false := by simp [sessionOpen, State.judgingWrite, closed]
    -- the record as the checks have read it
    have cart : (headRead.judgingWrite c).cart = s.cart := by
      rw [cart_eq (s := headRead.judgingWrite c) (l := l) bound, cart_eq bound]
      exact congrArg cartOf (throughBytes_readOf _ _ _ _ _ _ _)
    have writableSame : writable (headRead.judgingWrite c) = writable s := by
      rw [writable, cart, writable]
      rfl
    have judgesWritable (fit : fits) (still_ : still) (closed : s.ri.session = .closed) (read : s.ci.read = Job.clear) :
        judgeWriteOpen offset compress (s.judgingWrite c) = judgeWritable offset compress (headRead.judgingWrite c) := by
      have idle : readRunning (s.judgingWrite c) = false := by rw [readRunning, show (s.judgingWrite c).ci.read = Job.clear from read]; rfl
      rw [judged_ fit, if_neg (not_and_or.mpr (still_.imp not_not.mpr not_not.mpr)), if_neg (by rw [unopened closed]; decide),
        if_neg (by rw [idle]; decide), consultHead_eq (s := s.judgingWrite c) (l := l) bound]
      rfl
    have lookedCart : (looked.judgingWrite c).cart = s.cart := by
      rw [cart_eq (s := looked.judgingWrite c) (l := l) bound, cart_eq bound,
        show (looked.judgingWrite c).bp.reqs = (s.bp.reqs ++ [readOf l.cartBase 64 .plain]) ++ [readOf l.cartBase 16384 .plain] by simp [looked, State.judgingWrite],
        throughBytes_readOf, throughBytes_readOf]
      rfl
    have judgedAt {r : Nat} (fit : fits) (still_ : still) (free_ : free) (at_ : s.mo.lp = some r) (kind : startKind s.cart r ≠ .splice)
        (settled : s.ch.transport = .ready → s.pw.settling = false) :
        judgeWriteOpen offset compress (s.judgingWrite c) = beginWriteOpen offset compress r (headRead.judgingWrite c) := by
      obtain ⟨closed, read, writable_⟩ := free_
      rw [judgesWritable fit still_ closed read, judgeWritable, if_neg (by rw [writableSame, writable_]; decide),
        show (headRead.judgingWrite c).mo.lp = some r from at_]
      dsimp only
      rw [cart]
      rcases still_ with ready | parked
      · rw [if_neg (fun both => absurd (ready.symm.trans both.1) (by decide)), whenSettled, show (headRead.judgingWrite c).ch.transport = .ready from ready]
        exact if_neg (by rw [show (headRead.judgingWrite c).pw.settling = false from settled ready]; decide)
      · rw [if_pos ⟨parked, kind⟩]
    have begins (seg r : Nat) (resume : Pos) (st : Start) (kind : startKind s.cart r = st)
        (opening : st = .append e ∧ seg = e.seg ∧ resume = eodResume e ∨ st = .fromBot ∧ seg = 0 ∧ r = 0 ∧ resume = bot ∧ s.cart.eod = none ∧ s.cart.marks = [] ∧ s.cart.passes.all Option.isNone = true) :
        beginWriteOpen offset compress r (headRead.judgingWrite c) = afterOpen (posted tag op .ok 0 .none (looked.sessionOpened l offset compress seg r resume)) := by
      have looks : consultCart (headRead.judgingWrite c) = looked.judgingWrite c := by
        rw [consultCart_eq (s := headRead.judgingWrite c) (l := l) bound]
        simp [headRead, looked, State.judgingWrite]
      have completes : openSession offset compress seg r resume (looked.judgingWrite c) =
          posted tag op .ok 0 .none (looked.sessionOpened l offset compress seg r resume) := by
        rw [openSession_eq (s := looked.judgingWrite c) (l := l) bound (by rw [slotsIn_eq] at onTape ⊢; exact onTape), sessionOpened_judging]
        exact complete_after_dwellCut (c := c) dwell place
      rw [beginWriteOpen, looks]
      rw [lookedCart, kind]
      rcases opening with ⟨rfl, rfl, rfl⟩ | ⟨rfl, rfl, rfl, rfl, absent, marks, passes⟩
      · exact congrArg afterOpen completes
      · have blank_ : emptyDirectory (looked.judgingWrite c) = looked.judgingWrite c := by
          rw [emptyDirectory, lookedCart]
          exact if_pos ⟨absent, marks, passes⟩
        dsimp only
        rw [blank_]
        exact congrArg afterOpen completes
    have blankKind (blank_ : blank) : startKind s.cart 0 = .fromBot := by rw [startKind, blank_.2.1]
    have endKind (atEnd_ : atEnd) : startKind s.cart p = .append e := by simp [startKind, atEnd_.2.1, atEnd_.2.2]
    -- PARKED stays PARKED
    have parks {seg r : Nat} {resume : Pos} (fit : fits) (parked : s.ch.transport = .parked) (free_ : free) (at_ : s.mo.lp = some r)
        (kind : startKind s.cart r ≠ .splice)
        (opened : beginWriteOpen offset compress r (headRead.judgingWrite c) = afterOpen (posted tag op .ok 0 .none (looked.sessionOpened l offset compress seg r resume))) :
        opens (looked.sessionOpened l offset compress seg r resume) := by
      refine (judges _ ((judgedAt fit (.inr parked) free_ at_ kind (fun ready => by simp [ready] at parked)).trans opened)).trans
        (congrArg Host.Outcome.next ?_)
      exact settle_openedParked (s := looked) deferred held flush close noted_ parked
    -- READY waits for data
    have waitsThere {seg r : Nat} {resume : Pos} (fit : fits) (ready_ : ready) (free_ : free) (at_ : s.mo.lp = some r)
        (kind : startKind s.cart r ≠ .splice)
        (opened : beginWriteOpen offset compress r (headRead.judgingWrite c) = afterOpen (posted tag op .ok 0 .none (looked.sessionOpened l offset compress seg r resume))) :
        opens (noteTarget (looked.sessionOpened l offset compress seg r resume).waitsForData) := by
      obtain ⟨ready, settled, brake, few⟩ := ready_
      refine (judges _ ((judgedAt fit (.inl ready) free_ at_ kind (fun _ => settled)).trans opened)).trans (congrArg Host.Outcome.next ?_)
      exact settle_openedReady (s := looked) deferred held flush close ready brake few
    refine ⟨fun misfit => ?_, fun fit moving => ?_, fun fit still_ open_ => ?_, fun fit still_ closed reading => ?_, fun fit still_ closed read prot => ?_,
      fun fit still_ free_ lost => ?_, fun fit parked free_ blank_ => ?_, fun fit parked free_ atEnd_ => ?_, fun fit ready_ free_ blank_ => ?_,
      fun fit ready_ free_ atEnd_ => ?_⟩
    · refine completes s _ _ dwell place (unmoved _ rfl rfl rfl rfl rfl rfl) ?_
      rw [judgeWriteOpen, if_pos (by rw [size (s.judgingWrite c) rfl]; simp only [fits] at misfit; omega)]
      rfl
    · refine completes s _ _ dwell place (unmoved _ rfl rfl rfl rfl rfl rfl) ?_
      rw [judged_ fit, if_pos (not_or.mp moving)]
      rfl
    · refine completes s _ _ dwell place (unmoved _ rfl rfl rfl rfl rfl rfl) ?_
      rw [judged_ fit, if_neg (not_and_or.mpr (still_.imp not_not.mpr not_not.mpr)), if_pos (by exact open_)]
      rfl
    · refine completes s _ _ dwell place (unmoved _ rfl rfl rfl rfl rfl rfl) ?_
      rw [judged_ fit, if_neg (not_and_or.mpr (still_.imp not_not.mpr not_not.mpr)), if_neg (by rw [unopened closed]; decide), if_pos (by simp [readRunning, State.judgingWrite, reading])]
      rfl
    · refine completes headRead _ _ dwell place (unmoved _ rfl rfl rfl rfl rfl rfl) ?_
      rw [judgesWritable fit still_ closed read, judgeWritable, if_pos (writableSame.trans prot)]
      rfl
    · obtain ⟨closed, read, writable_⟩ := free_
      refine completes headRead _ _ dwell place (unmoved _ rfl rfl rfl rfl rfl rfl) ?_
      rw [judgesWritable fit still_ closed read, judgeWritable, if_neg (by rw [writableSame, writable_]; decide), show (headRead.judgingWrite c).mo.lp = none from lost]
      rfl
    · exact parks fit parked free_ blank_.1 (by rw [blankKind blank_]; decide) (begins 0 0 bot .fromBot (blankKind blank_) (.inr ⟨rfl, rfl, rfl, rfl, blank_.2⟩))
    · exact parks fit parked free_ atEnd_.1 (by rw [endKind atEnd_]; nofun) (begins e.seg p (eodResume e) (.append e) (endKind atEnd_) (.inl ⟨rfl, rfl, rfl⟩))
    · exact waitsThere fit ready_ free_ blank_.1 (by rw [blankKind blank_]; decide) (begins 0 0 bot .fromBot (blankKind blank_) (.inr ⟨rfl, rfl, rfl, rfl, blank_.2⟩))
    · exact waitsThere fit ready_ free_ atEnd_.1 (by rw [endKind atEnd_]; nofun) (begins e.seg p (eodResume e) (.append e) (endKind atEnd_) (.inl ⟨rfl, rfl, rfl⟩))
  · intro s open_ failed
    obtain ⟨room, none_⟩ := (cqOpen_iff s).mp open_
    refine ⟨fun busy => ?_, fun busy => ?_, fun busy => ?_, fun busy => ?_, fun ok idle => ?_, fun ok idle => ?_⟩
    · simp [exec, execOpenFlagWriteEnd, busy]
    · simp [exec, execOpenFlagWriteEnd, busy, postAt, room, none_, failed]
    · simp [exec, execSessionCountWriteEnd, busy]
    · simp [exec, execSessionCountWriteEnd, busy, postAt, room, none_, failed]
    · simp [exec, execOpenFlagWriteEnd, idle]
    · simp [exec, execSessionCountWriteEnd, idle]

end Sys2Proof.Machine
end

section
/-! SUPPORT. Proofs about the splice (R101, R102). -/

namespace Sys2Proof.Machine
/-! ### Missing frames formed anew (R149) -/

theorem solveFrame_ne_nil {bs : List Byte} (whole : bs.length = 917504) (unknown known : List Nat) (w : Nat) :
    solveFrame unknown known w (framesOf 28 bs) ≠ [] := by
  have length : (solveFrame unknown known w (framesOf 28 bs)).length = 32768 := by
    rw [solveFrame, framesOf_eq]
    refine foldl_zipWith_length _ (fun p mem => ?_) _ List.length_replicate
    obtain ⟨i, place, frame⟩ := List.mem_map.mp (List.of_mem_zip (Prod.mk.eta (p := p) ▸ mem)).2
    rw [← frame]
    exact frame_length whole place
  intro none_
  simp [none_] at length

/-- Writes made through the internal class, one behind another. -/
theorem issueWrite_foldl {α : Type} (at_ : α → Nat) (bytes : α → List Byte) (ws : List α) (some_ : ∀ w ∈ ws, bytes w ≠ []) (s : State) :
    ws.foldl (fun t w => issueWrite .internal (at_ w) (bytes w) .plain t) s =
      { s with bp.reqs := s.bp.reqs ++ ws.map (fun w => partWrite (at_ w) (bytes w) .plain) } := by
  induction ws generalizing s with
  | nil => simp
  | cons w ws ih =>
    rw [List.foldl_cons, issueWrite_internal (some_ w List.mem_cons_self), ih (fun v mem => some_ v (List.mem_cons_of_mem _ mem))]
    simp

/-- The writes of the data frames of slot k that were MISSING, formed from the 28 frames read (R149). -/
def formedWrites (k : Nat) (bs : List Byte) (s : State) : List Req :=
  let missing := missingFrames (slotAt s k)
  let known := knownFrames (slotAt s k)
  (missing.filter (fun w => decide (w < 28))).map (fun w =>
    partWrite (slotBase s k + w * 32768) (solveFrame ((List.range 32).filter (fun i => !known.contains i)) known w (framesOf 28 bs)) .plain)

theorem rebuildFrames_eq {bs : List Byte} (whole : bs.length = 917504) (k : Nat) (s : State) :
    rebuildFrames k bs s = { s with bp.reqs := s.bp.reqs ++ formedWrites k bs s } :=
  issueWrite_foldl (fun w => slotBase s k + w * 32768) _ _ (fun _ _ => solveFrame_ne_nil whole _ _ _) s

/-- Under way, the tape is ramped to rest and then brought to the standing point of p (R44, R45). -/
theorem backhitchTo_moving {s : State} (active : s.ch.transport = .active) (mask : s.mo.mask = false) (moving : s.mo.v ≠ 0) (p : Pos) (g : Goal) :
    backhitchTo p g s = noteTarget { s.stopping g with mo.legs := [stopLeg .ramp, moveLeg .backhitch (standing p) 102] } := by
  have under (t : State) (v : t.mo.v = s.mo.v) : atRest t = false := by simp [atRest, v, moving]
  simp [backhitchTo, planMotion, mask, startPlan, enterActive, active, motionStart, beginLegs, stopLeg, under, State.stopping, Config.moveSpeed]

/-- The rebuilt segment of a splice becomes the filling slot, and the tape goes back to its frame 0 (R101, R149). -/
def State.spliceTaken (k : Nat) (f0 : Pos) (s : State) : State := { s.stopping .spliceStand with
  rd.splice := some k, rd.spliceAt := some f0, rd.state := .ending, rd.start := none,
  sm.slots := s.sm.slots.set k (freshSlot .filling (slotAt s k).seg),
  mo.legs := [stopLeg .ramp, moveLeg .backhitch (standing f0) 102] }

theorem spliceDecoded_only {k : Nat} {f0 : Pos} {s : State} (queue : s.rd.rebuildQ = []) (used : (slotAt s k).st ≠ .free)
    (only : ∀ j, isReadSide (slotAt s j).st = true ∨ isFilling (slotAt s j).st = true → j = k) (f0_ : (slotAt s k).f0 = some f0)
    (active : s.ch.transport = .active) (mask : s.mo.mask = false) (moving : s.mo.v ≠ 0) :
    spliceDecoded k s = noteTarget (s.spliceTaken k f0) := by
  have none_ : (readSlots s ++ slotsIn isFilling s).filter (fun j => decide (j ≠ k)) = [] := by
    refine List.filter_eq_nil_iff.mpr fun j mem => ?_
    rcases List.mem_append.mp mem with mem | mem
    · simp [only j (.inl ((mem_slotsIn _ _ _).mp mem).2)]
    · simp [only j (.inr ((mem_slotsIn _ _ _).mp mem).2)]
  have leaves : leaveRebuild (fun _ => true) s = { s with rd.rebuildQ := [] } := by simp [leaveRebuild, queue]
  rw [spliceDecoded]
  dsimp only
  rw [none_, freeSlots, leaves, setSlot_used (by exact used) (by exact nofun), f0_, Option.getD_some]
  exact (backhitchTo_moving (by exact active) (by exact mask) (by exact moving) f0 .spliceStand).trans (by simp [State.spliceTaken, State.stopping, queue])

/-- Blank detection settles an EOD only for a TAG_UNREADABLE cartridge (R49). -/
theorem settleEod_readable {k : Nat} {s : State} (readable : s.ch.tagUnreadable = false) : settleEod k s = s := by
  unfold settleEod
  split
  · simp [readable]
  · rfl

/-- The frames held are those not MISSING (R149). -/
theorem knownFrames_eq (x : Slot) : ((List.range 32).filter (fun i => !(missingFrames x).contains i)).take 28 = knownFrames x := by
  refine congrArg (List.take 28) (List.filter_congr fun i place => ?_)
  cases held : x.held.getD i false <;> simp_all [missingFrames]

/-- Nothing follows a rebuild for a user other than READ_RECORDS while the data have not ended (R148). -/
theorem afterRebuild_other {s : State} (user : s.rd.user ≠ some .records) (state : s.rd.state ≠ .drainingOnly) : afterRebuild s = s := by
  simp [afterRebuild, user, state]


/-- What a change begins afresh is fresh still where the change is the last of two. -/
theorem unlessChanged_twice {α β : Type} [DecidableEq α] {a c : α} (ne : a ≠ c) (b : α) (x y : β) :
    unlessChanged b c (unlessChanged a b x y) y = y := by
  by_cases same : b = c
  · simp [unlessChanged, same, ne]
  · simp [unlessChanged, same]

/-- From rest beyond it on its pass the tape goes back to the standing point of p at once (R44, R45). -/
theorem beginLegs_behind {s : State} {p : Pos} (active : s.ch.transport = .active) (speed : s.mo.v = 0) (still : stands s = true)
    (pass : s.mo.pass = p.pass) (behind : (standing p).count < s.mo.count) :
    beginLegs [stopLeg .ramp, moveLeg .backhitch (standing p) 102] s = { s with
      mo.mode := some .backhitch, mo.named := p.pass, mo.dest := 102, mo.stopping := false, mo.into := none, mo.dir := .reverse,
      mo.legs := [moveLeg .backhitch (standing p) 102] } := by
  have rest : atRest s = true := by simp [atRest, speed, still]
  have behind' : back p.pass p.count Config.leadIn < s.mo.count := behind
  have far : s.mo.count - back p.pass p.count Config.leadIn ≠ 0 := by omega
  simp [beginLegs, stopLeg, moveLeg, rest, standing, active, pass, behind', checkStop, remaining, far]
  exact fun _ _ => speed

/-- A read user's move from READY, where the tape stands beyond it, to the standing point of p (R44, R45, R101, R144). -/
def State.movesBehind (p : Pos) (g : Goal) (s : State) : State := { s.moved .active with
  mo.stands := none, rd.start := none, mo.goal := g, mo.mode := some .backhitch, mo.named := p.pass, mo.dest := 102, mo.stopping := false,
  mo.into := none, mo.bandTo := none, mo.dir := .reverse, mo.legs := [moveLeg .backhitch (standing p) 102] }

theorem backhitchTo_behind {s : State} {p : Pos} {u : ReadUser} (g : Goal) (ready : s.ch.transport = .ready) (mask : s.mo.mask = false)
    (brake : s.re.brake = false) (noted_ : noted s = true) (closed : s.ri.session = .closed) (user : s.rd.user = some u) (reads : u = .splice ∨ u = .records)
    (speed : s.mo.v = 0) (still : stands s = true) (pass : s.mo.pass = p.pass) (behind : (standing p).count < s.mo.count) :
    backhitchTo p g s = noteTarget (s.movesBehind p g) := by
  obtain ⟨tstar, activityAt⟩ := (noted_iff s).mp noted_
  have entered : setTransport .active s = noteTarget (s.moved .active) := by
    simp [setTransport, holdIdle, loopsRun, brake, ready, State.moved]
  have begins : beginLegs [stopLeg .ramp, moveLeg .backhitch (standing p) 102] { noteTarget (s.moved .active) with
      mo.stands := none, rd.start := none, mo.goal := g, mo.passWait := false, mo.bandTo := none, pw.dwell := false } =
      { noteTarget (s.moved .active) with
        mo.stands := none, rd.start := none, mo.goal := g, mo.passWait := false, mo.bandTo := none, pw.dwell := false,
        mo.mode := some .backhitch, mo.named := p.pass, mo.dest := 102, mo.stopping := false,
        mo.into := none, mo.dir := .reverse, mo.legs := [moveLeg .backhitch (standing p) 102] } := by
    rw [noteTarget_eq]
    exact beginLegs_behind (by rfl) (by exact speed) (by exact still) (by exact pass) (by exact behind)
  simp only [backhitchTo, planMotion, mask, Bool.false_eq_true, if_false, startPlan, enterActive, ready, reduceCtorEq, or_self, entered, motionStart]
  rw [show Config.moveSpeed = 102 from rfl, begins]
  have other : s.ch.activityAt ≠ (.active, some .backhitch) := by rw [activityAt, ready]; exact nofun
  have unlike : s.re.tstar ≠ Config.tStream := by rw [tstar, tStar, ready]; exact (by decide : Config.tHold ≠ Config.tStream)
  by_cases mode : s.mo.mode = some .backhitch
  · rcases reads with rfl | rfl <;>
      simp [noteTarget_eq, tStar, activity, readMotion, sessionOpen, closed, user, mode, State.moved, State.movesBehind, unlessChanged_of_ne other, unlessChanged_of_ne unlike]
  · have entering : ((.active, s.mo.mode) : Transport × Option MotionMode) ≠ (.active, some .backhitch) := fun same => mode (congrArg Prod.snd same)
    rcases reads with rfl | rfl <;>
      simp [noteTarget_eq, tStar, activity, readMotion, sessionOpen, closed, user, State.moved, State.movesBehind, unlessChanged_of_ne other,
        unlessChanged_of_ne entering, unlessChanged_of_ne unlike, unlessChanged_twice unlike]

/-- The record's head read for the checks leaves the record as it stands. -/
theorem cart_readOf {l : Layout} {s : State} (bound : s.bp.layout = some l) (a n : Nat) :
    State.cart { s with bp.reqs := s.bp.reqs ++ [readOf a n .plain] } = s.cart := by
  rw [cart_eq (s := { s with bp.reqs := s.bp.reqs ++ [readOf a n .plain] }) (l := l) bound, cart_eq bound]
  exact congrArg cartOf (throughBytes_readOf _ _ _ _ _ _ _)

/-- In a settled READY that may be written a WRITE_OPEN proceeds, its checks passed (R85). -/
theorem judgeWriteOpen_passes {offset r : Nat} {compress : Bool} {l : Layout} {s : State} (bound : s.bp.layout = some l) (even : offset % 16 = 0)
    (inside : offset < l.z) (ready : s.ch.transport = .ready) (closed : s.ri.session = .closed) (idle : readRunning s = false) (writes : writable s = true)
    (at_ : s.mo.lp = some r) (settled : s.pw.settling = false) :
    judgeWriteOpen offset compress s = beginWriteOpen offset compress r { s with bp.reqs := s.bp.reqs ++ [readOf l.cartBase 64 .plain] } := by
  have size : ringZ s = l.z := by rw [ringZ, bound]; rfl
  have writes' : writable { s with bp.reqs := s.bp.reqs ++ [readOf l.cartBase 64 .plain] } = true := by
    rw [writable, cart_readOf bound, ← writes, writable]
  rw [judgeWriteOpen, if_neg (by omega), if_neg (by rw [ready]; exact fun both => both.1 rfl), if_neg (by simp [sessionOpen, closed]), if_neg (by rw [idle]; decide),
    consultHead_eq bound, judgeWritable, if_neg (by rw [writes']; decide)]
  simp only [at_, ready, whenSettled, settled, reduceCtorEq, false_and, if_false, Bool.false_eq_true]


/-! ### The entries that a splice keeps (R101, R102) -/

/-- Of the entries from j on those below record p are kept, with their stored bytes counted. -/
theorem keptEntries_spec (s : State) (k p fuel j u : Nat) :
    ∃ n, keptEntries s k p fuel j u = (j + n, u + ((List.range n).map (fun i => (slotEntry s k (j + i)).stored)).sum) ∧
      (∀ i, i < n → (slotEntry s k (j + i)).num < p) ∧ (j + n < trailerEntries (slotTrailer s k) → n < fuel → p ≤ (slotEntry s k (j + n)).num) := by
  induction fuel generalizing j u with
  | zero => exact ⟨0, rfl, nofun, nofun⟩
  | succ fuel ih =>
    rw [keptEntries]
    dsimp only
    split
    next more =>
      split
      next past => exact ⟨0, rfl, nofun, fun _ _ => past⟩
      next below =>
        obtain ⟨n, same, kept, stops⟩ := ih (j + 1) (u + (slotEntry s k j).stored)
        refine ⟨n + 1, ?_, ?_, ?_⟩
        · rw [same, List.range_succ_eq_map, List.map_cons, List.map_map, List.sum_cons]
          have shift : (fun i => (slotEntry s k (j + i)).stored) ∘ Nat.succ = fun i => (slotEntry s k (j + 1 + i)).stored :=
            funext fun i => by simp only [Function.comp_apply, Nat.succ_eq_add_one, Nat.add_comm i 1, ← Nat.add_assoc]
          rw [shift]
          simp only [Nat.add_zero]
          ext <;> dsimp only <;> omega
        · intro i small
          rcases i with _ | i
          · exact Nat.lt_of_not_le below
          · have := kept i (by omega)
            rwa [show j + (i + 1) = j + 1 + i by omega]
        · intro less few
          rw [show j + (n + 1) = j + 1 + n by omega] at less ⊢
          exact stops less (by omega)
    next ends => exact ⟨0, rfl, nofun, fun less => absurd less ends⟩

theorem keptEntries_congr {s t : State} (mem : t.mem = s.mem) (bp : t.bp = s.bp) (k p fuel j u : Nat) :
    keptEntries t k p fuel j u = keptEntries s k p fuel j u := by
  induction fuel generalizing j u with
  | zero => rfl
  | succ fuel ih =>
    have entry (j : Nat) : slotEntry t k j = slotEntry s k j := congrArg entryOf (slotRead_congr mem bp k _ 16)
    simp only [keptEntries, slotTrailer_congr mem bp, entry, ih]

/-- The command running on the WRITE job completes, and the dwell that it may have cut is armed again (R39, R183). -/
theorem completeWith_write {c : FwCmd} {s : State} (running : s.ci.write = runningNow c) (open_ : cqOpen s = true) :
    ∃ pw, completeWith .write .ok s = { posted c.tag c.op .ok 0 .none s with pw := pw, ci.write := Job.clear } := by
  obtain ⟨room, none_⟩ := (cqOpen_iff s).mp open_
  by_cases cut : s.pw.cancelled = some .write
  · refine ⟨{ s.pw with cancelled := none, dwell := s.pw.dwell || dwellPlace s }, ?_⟩
    simp [completeWith, complete, State.job, running, runningNow, noteStatus, rearmAfter, cut, postJobEnd, cqOpen, room, none_, cqPush, endRunning, State.setJob, posted, Job.clear]
  · refine ⟨s.pw, ?_⟩
    simp [completeWith, complete, State.job, running, runningNow, noteStatus, rearmAfter, cut, postJobEnd, cqOpen, room, none_, cqPush, endRunning, State.setJob, posted, Job.clear]

/-- In WAIT_DATA an open session waits, with the dwell armed (R39, R54). -/
theorem enterWaitData_active {s : State} (opened : s.ri.session ≠ .closed) (pendingEnd : s.wr.pendingEnd = .none) (active : s.ch.transport = .active) :
    enterWaitData s = noteTarget { s with
      mo.mode := some .waitData, mo.legs := [], mo.goal := .none, mo.into := none, mo.stopping := false, mo.passWait := false, mo.v := 0,
      mo.dest := 0, mo.dir := passDir s.mo.pass, pw.dwell := true } := by
  simp [enterWaitData, opened, pendingEnd, enterActive, active]

/-- The record as a splice at slot k cuts it: the EOD is the splice's segment (R14, R101). -/
def cutRecord (k : Nat) (f0 : Pos) (s : State) : Cart := { truncateDirectory (slotAt s k).seg s.cart with
  eod := some { seg := (slotAt s k).seg, firstRec := trailerFirst (slotTrailer s k), pos := { f0 with count := back f0.pass f0.count 48 } } }

/-- The splice made: its slot read and filling with the entries kept, the record written (R101, R102). -/
def State.spliceCut (l : Layout) (k n used : Nat) (f0 : Pos) (s : State) : State :=
  { readerIdle { s with
      bp.reqs := s.bp.reqs ++ [readOf (slotBase s k) 1048576 .plain] ++ [readOf l.cartBase 16384 .plain, partWrite l.cartBase (cartImage (cutRecord k f0 s)) .plain] } with
    rd.splice := none, rd.spliceAt := none, ri.filling := some k, ri.e := n, ri.u := used, ri.resetOwed := true }

theorem openSplice_eq {l : Layout} {k offset n used : Nat} {compress : Bool} {f0 : Pos} {s : State} (bound : s.bp.layout = some l)
    (splice : s.rd.splice = some k) (running : runningOp .write s = some (.writeOpen offset compress)) (spliceAt : s.rd.spliceAt = some f0)
    (kept : keptEntries s k s.rd.spliceRec 1024 0 0 = (n, used)) (onTape : slotsIn isOnTape s = []) :
    openSplice s = enterWaitData (completeWith .write .ok
      ((s.spliceCut l k n used f0).sessionOpened l offset compress ((slotAt s k).seg + 1) s.rd.spliceRec f0)) := by
  have read : consultSlot k 0 Config.slotBytes s = { s with bp.reqs := s.bp.reqs ++ [readOf (slotBase s k) 1048576 .plain] } := by
    rw [consultSlot, Nat.add_zero]
    exact consult_internal (n := 1048576) (by decide) _ s
  rw [openSplice, splice, running]
  dsimp only
  rw [kept, spliceAt, read, putCart_eq (l := l) (by exact bound)]
  exact congrArg enterWaitData (openSession_eq (s := s.spliceCut l k n used f0) bound (by rw [slotsIn_eq] at onTape ⊢; exact onTape))

/-- The record as the opening of the session finds it behind the cut. -/
theorem cart_spliceCut {l : Layout} {s : State} (bound : s.bp.layout = some l) (k n used : Nat) (f0 : Pos) :
    (s.spliceCut l k n used f0).cart = cartOf (cartImage (cutRecord k f0 s)) := by
  rw [cart_eq (s := s.spliceCut l k n used f0) (l := l) bound]
  exact congrArg cartOf (throughBytes_putCart _ _ _ _ _ _)


/-- Settles O41: the read of the segment found, the segment whole, and the session opened before it. -/
theorem spliceOpens : Obligations.SpliceOpens := by
  refine ⟨?_, ?_, ?_⟩
  · intro tag offset p compress l e at_ s bound place dwell quiet_ waits read even inside ready settled brake writes lp some_ eod other start located mask
      speed still pass behind
    obtain ⟨⟨deferred, session, intake, watch, held, flush, close⟩, noted_⟩ := (quiet_iff s).mp quiet_
    let c : FwCmd := { tag := tag, op := .writeOpen offset compress }
    let j : State := s.judgingWrite c
    have splice : startKind s.cart p = .splice := by simp [startKind, eod, other, some_]
    -- the read from the segment found
    let u : State := { j with
      bp.reqs := s.bp.reqs ++ [readOf l.cartBase 64 .plain, readOf l.cartBase 16384 .plain], rd.spliceRec := p, mo.entry := 0, rd.state := .starting,
      rd.user := some .splice, rd.x := at_.seg, rd.next := at_.seg, rd.scan := none, rd.blank := 0, rd.dataEnd := false, rd.lastEnd := none, rd.lowEnd := none }
    have judged : judgeWriteOpen offset compress j = noteTarget (u.movesBehind at_.pos .readGo) := by
      rw [judgeWriteOpen_passes (s := j) (l := l) bound even inside ready session (by rw [readRunning, show j.ci.read = Job.clear from read]; rfl) (by rw [writable, cart_congr (t := j) (s := s) rfl rfl]; exact writes)
        lp settled, beginWriteOpen, consultCart_eq (l := l) (by exact bound)]
      have cart : State.cart { j with bp.reqs := (j.bp.reqs ++ [readOf l.cartBase 64 .plain]) ++ [readOf l.cartBase 16384 .plain] } = s.cart := by
        rw [cart_eq (l := l) (by exact bound), cart_eq bound, throughBytes_readOf, throughBytes_readOf]
        rfl
      dsimp only
      rw [show State.cart _ = s.cart from cart, splice]
      dsimp only
      rw [beginSplice, show j.rd.start = some at_ from start]
      dsimp only
      rw [if_pos located, beginSpliceRead]
      refine (congrArg (backhitchTo at_.pos .readGo) (a₂ := u) ?_).trans
        (backhitchTo_behind (s := u) .readGo ready mask brake noted_ session rfl (.inl rfl) speed still pass behind)
      rw [List.append_assoc]
      rfl
    have deaf : fetchDue (u.movesBehind at_.pos .readGo) = false := by simp [fetchDue, u, j, State.movesBehind, State.moved, State.judgingWrite, watch]
    have calm : Calm (u.movesBehind at_.pos .readGo) := ⟨deferred, held, flush, close, deaf, nofun, by exact fun both => nomatch both.2⟩
    refine (firmware_cuts (c := c) dwell place rfl (by simp [mask]) judged).trans ?_
    rw [calm.settle_noteTarget]
    refine congrArg (fun t => Host.Outcome.next (noteTarget t)) ?_
    rfl
  · intro k f0 s queue whole user calm_ read filling f0_ readable mask active mode moving missing known others good
    obtain ⟨still, noted_⟩ := (calm_iff s).mp calm_
    have mem : k ∈ slotsIn isReadSide s := by rw [show slotsIn isReadSide s = [k] from read]; simp
    have side := ((mem_slotsIn _ _ _).mp mem).2
    have used : (slotAt s k).st ≠ .free := fun free => by simp [isReadSide, isFetching, free] at side
    -- the slot rebuilt, and its trailer read
    let formed : State := { s with rd.rebuildQ := [], rd.rebuildGot := [], bp.reqs := s.bp.reqs ++ formedWrites k s.rd.rebuildGot s }
    let decoded : State := { formed with
      bp.reqs := formed.bp.reqs ++ [readOf (slotBase s k + 917440) 64 .plain], sm.slots := s.sm.slots.set k { slotAt s k with st := .decoded } }
    have served : serveRebuild { rebuildFrames k s.rd.rebuildGot s with rd.rebuildQ := [], rd.rebuildGot := [] } = formed := by
      rw [rebuildFrames_eq whole]; rfl
    have good_ : trailerGood (slotTrailer formed k) (slotAt formed k).seg = true := by
      rw [slotTrailer_congr (t := formed) (s := rebuildFrames k s.rd.rebuildGot s) (by rw [rebuildFrames_eq whole]) (by rw [rebuildFrames_eq whole])]
      exact good
    have taken : slotDecoded k formed = (spliceDecoded k decoded, false) := by
      rw [slotDecoded, if_pos good_, consultSlot, consult_internal (by decide), takeDecoded]
      dsimp only
      rw [setSlot_used (by exact used) (by exact nofun), settleEod_readable (by exact readable)]
      rw [show formed.rd.user = some .splice from user]
      rfl
    have listed {f : SlotState → Bool} {j : Nat} (holds : f (slotAt s j).st = true) (free : f .free = false) : j ∈ slotsIn f s := by
      refine (mem_slotsIn _ _ _).mpr ⟨slot_lt fun none_ => ?_, holds⟩
      rw [slotAt_eq, none_, free] at holds
      exact absurd holds (by decide)
    have only (j : Nat) (side : isReadSide (slotAt decoded j).st = true ∨ isFilling (slotAt decoded j).st = true) : j = k := by
      by_contra other
      rw [show slotAt decoded j = slotAt s j from slotOf_set_ne other _] at side
      rcases side with side | side
      · have mem := listed side rfl
        rw [show slotsIn isReadSide s = [k] from read, List.mem_singleton] at mem
        exact other mem
      · have mem := listed side rfl
        rw [filling] at mem
        exact nomatch mem
    have slot : slotAt decoded k = { slotAt s k with st := .decoded } := slotOf_set used _
    have found : spliceDecoded k decoded = noteTarget (decoded.spliceTaken k f0) :=
      spliceDecoded_only rfl (by rw [slot]; exact nofun) only (by rw [slot]; exact f0_) active mask moving
    have calm : Calm (decoded.spliceTaken k f0) := still.congr rfl rfl rfl rfl still.awake (by exact fun both => nomatch both.2)
    obtain ⟨re, ch, frame⟩ := noteTarget_frame (decoded.spliceTaken k f0)
    have notRecords : (noteTarget (decoded.spliceTaken k f0)).rd.user ≠ some .records := by rw [frame]; exact fun is_ => nomatch user.symm.trans is_
    have ended : (noteTarget (decoded.spliceTaken k f0)).rd.state ≠ .drainingOnly := by rw [frame]; exact nofun
    have run : exec .rebuildDone s = .next (settle (noteTarget (decoded.spliceTaken k f0))) := by
      show execRebuildDone s = _
      rw [execRebuildDone, queue]
      dsimp only
      rw [if_pos (by exact whole), served, taken, found]
      exact congrArg (fun t => Host.Outcome.next (settle t)) (afterRebuild_other notRecords ended)
    rw [run, calm.settle_noteTarget]
    refine congrArg (fun t => Host.Outcome.next (noteTarget t)) ?_
    have slots : decoded.sm.slots.set k (freshSlot .filling (slotAt decoded k).seg) = s.sm.slots.set k (freshSlot .filling (slotAt s k).seg) := by
      rw [slot]; exact List.set_set _
    have writes : formedWrites k s.rd.rebuildGot s = (missing.filter (fun w => decide (w < 28))).map (fun w =>
        partWrite (slotBase s k + w * 32768) (solveFrame others known w (framesOf 28 s.rd.rebuildGot)) .plain) := by
      simp only [formedWrites, ← knownFrames_eq]; rfl
    simp only [State.spliceTaken, slots, ← writes]
    rfl
  · intro tag offset k p compress l f0 leg s bound quiet_ write open_ uncancelled ready inside active stopping rest legs target goal splice spliceAt few brake onTape
      r seg kept c written counted
    obtain ⟨⟨deferred, session, intake, watch, held, flush, close⟩, noted_⟩ := (quiet_iff s).mp quiet_
    obtain ⟨n, same, below, stops⟩ := keptEntries_spec s k r 1024 0 0
    have keptEq : kept = (n, ((List.range n).map (fun i => (slotEntry s k i).stored)).sum) := by
      rw [show kept = keptEntries s k r 1024 0 0 from rfl, same]
      simp
    simp only [Nat.zero_add] at below stops
    rw [keptEq]
    refine ⟨below, stops, rfl, ?_⟩
    -- the tape stands before the segment
    let u : State := { s with mo.stands := some { pass := s.mo.pass, count := p }, mo.stopping := false, mo.legs := [], mo.goal := .none }
    have arrived : arrive s = settle (openSplice u) := by
      rw [arrive, if_pos ⟨stopping, rest, .inl active⟩]
      obtain ⟨mode, pass, target_, speed⟩ := leg
      obtain rfl : target_ = some p := target
      simp only [legs, goal, List.drop_one, List.tail_cons]
      rfl
    have slotAgain : keptEntries u k u.rd.spliceRec 1024 0 0 = (n, ((List.range n).map (fun i => (slotEntry s k i).stored)).sum) :=
      (keptEntries_congr (t := u) (s := s) rfl rfl _ _ _ _ _).trans keptEq
    have running : runningOp .write u = some (.writeOpen offset compress) := by simp [runningOp, State.job, u, write, runningNow]
    let cut : State := u.spliceCut l k n ((List.range n).map (fun i => (slotEntry s k i).stored)).sum f0
    let w : State := cut.sessionOpened l offset compress (seg + 1) r f0
    have opens : openSplice u = enterWaitData (completeWith .write .ok w) := openSplice_eq bound splice running spliceAt slotAgain (by rw [slotsIn_eq] at onTape ⊢; exact onTape)
    have cutSame : cutRecord k f0 u = c := by
      rw [cutRecord, cart_congr (t := u) (s := s) rfl rfl, slotTrailer_congr (t := u) (s := s) rfl rfl]
      rfl
    have record : cut.cart = written := by rw [cart_spliceCut (s := u) bound, cutSame]
    obtain ⟨pw, completes⟩ := completeWith_write (c := { tag := tag, op := .writeOpen offset compress }) (s := w) write open_
    let v : State := { posted tag (.writeOpen offset compress) .ok 0 .none w with
      mo.mode := some .waitData, mo.legs := [], mo.goal := .none, mo.into := none, mo.stopping := false, mo.passWait := false, mo.v := 0,
      mo.dest := 0, mo.dir := passDir s.mo.pass, pw := { pw with dwell := true }, ci.write := Job.clear }
    have waits : enterWaitData (completeWith .write .ok w) = noteTarget v := by
      rw [completes]
      exact enterWaitData_active (by exact nofun) rfl active
    have idle : available v = 0 := by simp [available, v, w, posted, State.sessionOpened]
    have settles : settle (noteTarget v) = noteTarget v :=
      settle_unrestarted deferred held flush close (fetchDue_frontier idle) (by simp [intakeWaits, v, w, posted, State.sessionOpened])
        (by simp [softError, v, w, posted, State.sessionOpened]) few
    have reqs : cut.bp.reqs = s.bp.reqs ++ [readOf (slotBase s k) 1048576 .plain, readOf l.cartBase 16384 .plain, partWrite l.cartBase (cartImage c) .plain] := by
      rw [← cutSame]
      exact List.append_assoc _ _ _
    refine ⟨noteTarget v, ?_, ?_⟩
    · rw [← settles, ← waits, ← opens, ← arrived]; rfl
    · rw [noteTarget_eq]
      refine ⟨rfl, rfl, rfl, rfl, rfl, rfl, rfl, rfl, rfl, rfl, rfl, rfl, rfl, rfl, rfl, rfl, active, rfl, rfl, rfl, rfl, rfl, rfl, ?_, ?_, rfl, ?_⟩
      · show tagBlock { cut.cart with session := min (cut.cart.session + 1) 4294967295 } s.ch.tagRest = _
        rw [record]
      · show ((cut.bp.reqs ++ [readOf l.cartBase 16384 .plain]).map (Req.forget .stagingFetch) ++
          [partWrite l.cartBase (cartImage { cut.cart with session := min (cut.cart.session + 1) 4294967295 }) .plain]).drop s.bp.reqs.length = _
        rw [record, reqs, List.append_assoc, List.map_append, List.append_assoc, List.drop_left' (List.length_map _)]
        rfl
      · exact congrArg (· ++ [_]) rfl

end Sys2Proof.Machine
end

section
/-! SUPPORT. Proofs about intake, placement, the seal and the restart (5.3 to 5.5, 6.2). -/

namespace Sys2Proof.Machine

/-! ### Distances round the ring -/

/-- The distance from r to c is the one number below z that leads from r to c. -/
theorem ringDist_iff {z r c d : Nat} (some_ : 0 < z) : ringDist z r c = d ↔ d < z ∧ r + d ≡ c [MOD z] := by
  have leads : r + ringDist z r c ≡ c [MOD z] := by
    have small := Nat.mod_lt r some_
    calc r + ringDist z r c ≡ r % z + (c + z - r % z) [MOD z] := by
          rw [ringDist, if_neg (by omega)]
          exact Nat.ModEq.add (Nat.mod_modEq r z).symm (Nat.mod_modEq _ z)
      _ = c + z := by omega
      _ ≡ c [MOD z] := Nat.add_mod_right c z
  have below : ringDist z r c < z := by
    rw [ringDist, if_neg (by omega)]
    exact Nat.mod_lt _ some_
  refine ⟨fun same => same ▸ ⟨below, leads⟩, fun ⟨small, arrives⟩ => ?_⟩
  exact Nat.ModEq.eq_of_lt_of_lt (Nat.ModEq.add_left_cancel' r (leads.trans arrives.symm)) below small

/-- Going on towards c shortens the distance. -/
theorem ringDist_less {z r c k : Nat} (some_ : 0 < z) (within : k ≤ ringDist z r c) : ringDist z ((r + k) % z) c = ringDist z r c - k := by
  obtain ⟨below, leads⟩ := (ringDist_iff (d := ringDist z r c) some_).mp rfl
  refine (ringDist_iff some_).mpr ⟨by omega, ?_⟩
  calc (r + k) % z + (ringDist z r c - k) ≡ r + k + (ringDist z r c - k) [MOD z] := Nat.ModEq.add_right _ (Nat.mod_modEq _ z)
    _ = r + ringDist z r c := by omega
    _ ≡ c [MOD z] := leads

/-- Both ends going on alike keep their distance. -/
theorem ringDist_shift {z : Nat} (some_ : 0 < z) (r c k : Nat) : ringDist z ((r + k) % z) ((c + k) % z) = ringDist z r c := by
  obtain ⟨below, leads⟩ := (ringDist_iff (d := ringDist z r c) some_).mp rfl
  refine (ringDist_iff some_).mpr ⟨below, ?_⟩
  calc (r + k) % z + ringDist z r c ≡ r + k + ringDist z r c [MOD z] := Nat.ModEq.add_right _ (Nat.mod_modEq _ z)
    _ = r + ringDist z r c + k := by omega
    _ ≡ c + k [MOD z] := leads.add_right k
    _ ≡ (c + k) % z [MOD z] := (Nat.mod_modEq _ z).symm

/-! ### Bytes fetched (R90) -/

/-- A ring of 64 retained bytes, all written, of which the last 8 have been fetched for a header: O42 asks of it all but that a byte of the
ring be free, for it takes `rl ≤ z`. -/
def ringFull : State :=
  { State.reset with
    bp.layout := some { layoutOf [] with z := 64 }, bp.watch := true, bp.rl := 64,
    ri.session := .opened, ri.st := .header, ri.cursor := 56, ri.fetch := some 56, ri.fetched := some (List.replicate 8 0) }

/-- The cursor comes round to the release point, from which the whole ring counts as available: a fetch is issued there. -/
theorem stagingFetchReturn_fetches_again : ∃ t, exec .stagingFetchReturn ringFull = .next t ∧ t.ri.fetch = some 0 :=
  ⟨_, rfl, by decide +kernel⟩

/-- Refutes O42: where the retained bytes fill the ring, the bytes consumed to the frontier leave the cursor at the release point, and the step
issues another fetch. -/
theorem not_fetchedBytesConsumed : ¬ Obligations.FetchedBytesConsumed := by
  intro holds
  obtain ⟨t, ran, fetched⟩ := stagingFetchReturn_fetches_again
  obtain ⟨waits, -⟩ := holds.1 (List.replicate 8 0) { layoutOf [] with z := 64 } { num := 0, len := 0, placed := 0 } 0 [] ringFull rfl rfl (by decide) rfl
    (by decide +kernel) (by decide +kernel) (by decide +kernel) (by decide +kernel) rfl rfl (.inl (by decide +kernel))
  have same := waits rfl (by decide +kernel)
  rw [ran] at same
  have none_ := congrArg (fun t : State => t.ri.fetch) (Host.Outcome.next.inj same)
  rw [show t.ri.fetch = _ from fetched] at none_
  exact absurd none_ (by decide)

/-! ### The steps of intake -/

theorem releaseBytes_eq {l : Layout} {s : State} (bound : s.bp.layout = some l) (size : l.z ≠ 0) {n : Nat} (within : n ≤ s.bp.rl) :
    releaseBytes n s = { s with bp.release := (s.bp.release + n) % l.z, bp.rl := s.bp.rl - n } := by
  have ring : ringZ s = l.z := by rw [ringZ, bound]; rfl
  rw [releaseBytes]
  dsimp only
  rw [Nat.min_eq_left within, ring, if_neg size]

theorem advanceCursor_eq {l : Layout} {s : State} (bound : s.bp.layout = some l) (size : l.z ≠ 0) (n : Nat) :
    advanceCursor n s = { s with ri.cursor := (s.ri.cursor + n) % l.z } := by
  have ring : ringZ s = l.z := by rw [ringZ, bound]; rfl
  rw [advanceCursor, ring, if_neg size]

theorem available_eq {l : Layout} {s : State} (bound : s.bp.layout = some l) : available s = s.bp.rl - ringDist l.z s.bp.release s.ri.cursor := by
  rw [available, show ringZ s = l.z by rw [ringZ, bound]; rfl]

/-- The pad that has arrived is passed over and released (R88). -/
theorem takePad_eq {l : Layout} {s : State} (bound : s.bp.layout = some l) (size : l.z ≠ 0) {n : Nat} (arrived : available s ≤ n) :
    takePad n s = { s with
      bp.release := (s.bp.release + available s) % l.z, bp.rl := s.bp.rl - available s, ri.cursor := (s.ri.cursor + available s) % l.z,
      ri.padOwed := n - available s } := by
  rw [takePad]
  dsimp only
  rw [Nat.min_eq_right arrived, advanceCursor_eq (by exact bound) size, releaseBytes_eq (by exact bound) size (by exact Nat.sub_le _ _)]

/-- While the interval timer runs the stored length joins the sum (R129). -/
theorem countPlaced_timed {s : State} (timer : s.sp.timer = true) (n : Nat) :
    countPlaced n s = { s with sp.sum := min (s.sp.sum + n) 4294967295 } := if_pos timer

/-- In a slot that fills, a chunk begins with the history as it stands but for an owed RESET (R92). -/
theorem startChunk_filling {k : Nat} {s : State} (filling : s.ri.filling = some k) :
    startChunk s = { s with ri.st := .data, ri.raw := [], ri.history := if s.ri.resetOwed then [] else s.ri.history } := by
  rw [startChunk, filling]
  rfl

/-- The open fragment of record c with one more chunk in it (R97). -/
def fragmentWith (c : RecordInProgress) (raw stored : Nat) (s : State) : Fragment :=
  let old := s.ri.frag.getD { num := c.num, first := decide (c.placed = 0), reset := s.ri.resetOwed, raw := 0, stored := 0 }
  { old with raw := old.raw + raw, stored := old.stored + stored }

/-- The bytes a placed chunk of raw bytes releases: with the first its header (R97). -/
def freedBy (c : RecordInProgress) (raw : Nat) : Nat := raw + if c.placed = 0 then 16 else 0

/-- A chunk's body stands in slot k, its fragment open and its raw bytes released (R97, R129). -/
def State.bodyPlaced (l : Layout) (k : Nat) (c : RecordInProgress) (raw : Nat) (comp : Bool) (s : State) : State :=
  let body := waitingBody comp s
  { s with
    bp.reqs := s.bp.reqs ++ [partWrite (slotBase s k + s.ri.u) (chunkHeader comp body.length ++ body) .plain],
    bp.release := (s.bp.release + freedBy c raw) % l.z, bp.rl := s.bp.rl - freedBy c raw,
    ri.e := if s.ri.frag.isNone then s.ri.e + 1 else s.ri.e, ri.u := s.ri.u + (4 + body.length), ri.item := none, ri.chunkBuf := [], ri.refetched := [],
    ri.resetOwed := if s.ri.frag.isNone then false else s.ri.resetOwed, sp.sum := min (s.sp.sum + (4 + body.length)) 4294967295,
    ri.frag := some (fragmentWith c raw (4 + body.length) s) }

/-- The record closed behind its last chunk: its entry in slot k, its pad as far as it has arrived (R88, R97). -/
def State.recordClosed (k : Nat) (c : RecordInProgress) (f : Fragment) (s : State) : State :=
  let s := writeEntry k (s.ri.e - 1) (fragmentBytes f true false) s
  let s := takePad (padOf c.len) { s with ri.frag := none, ri.cur := none, ri.lastComplete := c.num, ri.nextRec := inc32 s.ri.nextRec }
  { s with ri.st := if s.ri.session = .closing then .idle else .header }

section
variable {l : Layout} {k raw : Nat} {c : RecordInProgress} {comp : Bool} {s : State} (bound : s.bp.layout = some l) (size : l.z ≠ 0)
  (timer : s.sp.timer = true) (within : freedBy c raw ≤ s.bp.rl)
include bound size timer within

theorem placeChunk_eq : placeChunk k c raw comp s = if c.placed + raw = c.len then
      (s.bodyPlaced l k c raw comp).recordClosed k c (fragmentWith c raw (4 + (waitingBody comp s).length) s)
    else startChunk { s.bodyPlaced l k c raw comp with ri.cur := some { c with placed := c.placed + raw } } := by
  have header : chunkHeader comp (waitingBody comp s).length ++ waitingBody comp s ≠ [] := by simp [chunkHeader]
  rw [placeChunk]
  dsimp only
  rw [issueWrite_internal header, releaseBytes_eq (by exact bound) size (by exact within), countPlaced_timed (by exact timer)]
  rfl
end

theorem recordClosed_eq {l : Layout} {k : Nat} {c : RecordInProgress} {f : Fragment} {s : State} (bound : s.bp.layout = some l) (size : l.z ≠ 0)
    (opened : s.ri.session = .opened) (arrived : available s ≤ padOf c.len) :
    s.recordClosed k c f = { s with
      bp.reqs := s.bp.reqs ++ [partWrite (slotBase s k + entryAt (s.ri.e - 1)) (fragmentBytes f true false) .plain],
      bp.release := (s.bp.release + available s) % l.z, bp.rl := s.bp.rl - available s, ri.cursor := (s.ri.cursor + available s) % l.z,
      ri.padOwed := padOf c.len - available s, ri.frag := none, ri.cur := none, ri.lastComplete := c.num, ri.nextRec := inc32 s.ri.nextRec,
      ri.st := .header } := by
  have entry : writeEntry k (s.ri.e - 1) (fragmentBytes f true false) s =
      { s with bp.reqs := s.bp.reqs ++ [partWrite (slotBase s k + entryAt (s.ri.e - 1)) (fragmentBytes f true false) .plain] } :=
    issueWrite_internal (entryBytes_ne_nil _ _ _ _ _ _ _ _) _ _ _
  rw [State.recordClosed, entry]
  dsimp only
  rw [takePad_eq (l := l) (by exact bound) size (by exact arrived), if_neg (by rw [opened]; exact nofun)]
  rfl

/-- The bytes of a chunk that lie before the end of the ring are fetched by one read (R95, R99). -/
theorem fetchChunk_eq {l : Layout} {raw : Nat} {s : State} (bound : s.bp.layout = some l) (some_ : 0 < raw)
    (inside : raw ≤ l.z - ringDist l.z raw s.ri.cursor) :
    fetchChunk raw s = { s with
      ri.refetched := [], bp.reqs := s.bp.reqs ++ [readOf (l.stBase + ringDist l.z raw s.ri.cursor) raw .chunkFetch] } := by
  have ring : ringZ s = l.z := by rw [ringZ, bound]; rfl
  rw [fetchChunk, ring, readStaging]
  simp only [bound, Nat.min_eq_left inside, Nat.sub_self]
  rw [issueRead_internal (Nat.pos_iff_ne_zero.mp some_)]
  simp only [issueRead, bound]
  rfl

/-- The history in a slot taken: that of a chunk whose body is made, and none otherwise (R96). -/
def slotHistory (s : State) : List Byte :=
  match s.ri.item with
  | some (.chunk _ body _) => if body = 0 then [] else s.ri.history
  | _ => []

/-- With no slot filling and one FREE, that one is taken, with its history (R96). -/
theorem takeSlot_eq {k : Nat} {free : List Nat} {s : State} (none_ : s.sm.slots.all (fun x => decide (x.st ≠ .filling)) = true) (head : s.sm.free = k :: free) :
    takeSlot s = some { s with
      sm.free := free, sm.slots := s.sm.slots.set k (freshSlot .filling s.ri.nextSeg), ri.filling := some k, ri.u := 0, ri.e := 0, ri.frag := none,
      ri.nextSeg := inc32 s.ri.nextSeg, ri.history := slotHistory s } := by
  have unfilled : (s.sm.slots.any (fun x => isFilling x.st)) = false := by
    rw [List.any_eq_false]
    intro x mem
    have := List.all_eq_true.mp none_ x mem
    simpa [isFilling] using this
  rw [takeSlot, unfilled]
  simp only [Bool.false_eq_true, if_false, takeFree, head]
  rfl

theorem noted_congr {s t : State} (re : t.re = s.re) (ch : t.ch = s.ch) (mo : t.mo = s.mo) : noted t = noted s := by
  have target : tStar t = tStar s := by unfold tStar; rw [ch, mo]
  rw [noted, target, re, ch, mo, noted]

/-- A chunk that fits the filling slot is placed there (R97). -/
theorem tryPlace_fits {k raw body : Nat} {comp : Bool} {s : State} (item : s.ri.item = some (.chunk raw body comp)) (filling : s.ri.filling = some k)
    (fits : chunkFits s.ri.u s.ri.e (4 + body) s.ri.frag.isNone = true) : tryPlace s = startPlacement raw comp s := by
  rw [tryPlace, item]
  dsimp only
  rw [filling]
  exact if_pos fits

/-- What waits in PLACING is judged at the end of slot exhaustion (R96). -/
theorem slotExhaustionEnd_places {p : PendingItem} {k : Nat} {free : List Nat} {s t : State} (st : s.ri.st = .placing) (item : s.ri.item = some p)
    (filling : s.ri.filling = none) (head : s.sm.free = k :: free) (places : tryPlace s = t) (opened : t.ri.session = .opened) :
    exec .slotExhaustionEnd s = .next (settle t) := by
  have waits : intakeWaits s = true := by simp [intakeWaits, st, item, filling]
  show execSlotExhaustionEnd s = _
  rw [execSlotExhaustionEnd, if_pos ⟨waits, by rw [head]; rfl⟩, st]
  dsimp only
  rw [places, sealWhenIdle, if_neg (by rw [opened]; exact fun both => nomatch both.1)]

/-- A filemark's entry in slot k, its header released (R98). -/
theorem placeFilemark_eq {k : Nat} {l : Layout} {s : State} (bound : s.bp.layout = some l) (size : l.z ≠ 0) (opened : s.ri.session = .opened)
    (arrived : 16 ≤ s.bp.rl) : placeFilemark k s = { s with
      bp.reqs := s.bp.reqs ++ [partWrite (slotBase s k + entryAt s.ri.e) (entryBytes s.ri.nextRec true true true s.ri.resetOwed false 0 0) .plain],
      bp.release := (s.bp.release + 16) % l.z, bp.rl := s.bp.rl - 16, ri.e := s.ri.e + 1, ri.resetOwed := false, ri.history := [], ri.item := none,
      ri.hdr := [], ri.lastComplete := s.ri.nextRec, ri.nextRec := inc32 s.ri.nextRec, ri.st := .header } := by
  rw [placeFilemark]
  dsimp only
  rw [writeEntry, issueWrite_internal (entryBytes_ne_nil _ _ _ _ _ _ _ _), releaseBytes_eq (l := l) (by exact bound) size (by exact arrived),
    if_neg (by exact fun is_ => nomatch opened.symm.trans is_)]

/-! ### The seal (R100, R110) -/

theorem trailerBytes_ne_nil (seg first entries used marks : Nat) : trailerBytes seg first entries used marks ≠ [] := by simp [trailerBytes]

/-- Zeros written where there is room for them. -/
theorem issueWrite_zeros (a n : Nat) (s : State) : issueWrite .internal a (List.replicate n 0) .plain s =
    { s with bp.reqs := s.bp.reqs ++ if n = 0 then [] else [partWrite a (List.replicate n 0) .plain] } := by
  rcases n with _ | n
  · simp
  · rw [issueWrite_internal (by simp [List.replicate_succ]), if_neg (Nat.succ_ne_zero n)]

/-- The write that closes the open fragment in slot k (R99, R100). -/
def closeWrite (k : Nat) (s : State) : List Req :=
  match s.ri.frag with
  | none => []
  | some f => [partWrite (slotBase s k + entryAt (s.ri.e - 1)) (fragmentBytes f false false) .plain]

theorem closeFragment_eq (k : Nat) (s : State) :
    closeFragment k s = { s with ri.frag := none, bp.reqs := s.bp.reqs ++ closeWrite k s } := by
  rcases frag : s.ri.frag with _ | f
  · rw [closeFragment, closeWrite, frag]
    dsimp only
    rw [List.append_nil, ← frag]
  · rw [closeFragment, closeWrite, frag]
    dsimp only
    rw [writeEntry, fragmentBytes, issueWrite_internal (entryBytes_ne_nil _ _ _ _ _ _ _ _)]
    rfl

theorem filemarksIn_congr {s t : State} (mem : t.mem = s.mem) (bp : t.bp = s.bp) (k n : Nat) : filemarksIn t k n = filemarksIn s k n := by
  have entry (j : Nat) : slotEntry t k j = slotEntry s k j := congrArg entryOf (slotRead_congr mem bp k _ 16)
  simp only [filemarksIn, entry]

/-- A slot in use that joins the parity work is SEALING (R100, R110). -/
theorem joinParity_eq {k : Nat} {s : State} (used : (slotAt s k).st ≠ .free) : joinParity k s = { s with
    sm.slots := s.sm.slots.set k { slotAt s k with st := .sealing }, sm.parity := s.sm.parity ++ [k],
    sm.parityGot := if s.sm.parity = [] then none else s.sm.parityGot,
    bp.reqs := s.bp.reqs ++ if s.sm.parity = [] then [readOf (slotBase s k) 917504 .parityRead] else [] } := by
  rw [joinParity]
  dsimp only
  rw [setSlot_used used (by exact nofun)]
  by_cases empty : s.sm.parity = []
  · rw [if_pos (by simp [empty]), serveParity]
    simp only [empty, List.nil_append]
    rw [if_pos trivial, if_pos trivial]
    exact issueRead_internal (n := 917504) (by decide) _ _ _
  · rw [if_neg (by simpa using empty), if_neg empty, if_neg empty]
    simp

/-- The trailer written, for which the entries are read, the slot joins the parity work (R100). -/
theorem sealed_joins {k e a : Nat} {bs : List Byte} {s : State} (some_ : 0 < e) (trailer : bs ≠ []) (used : (slotAt s k).st ≠ .free) :
    joinParity k { issueWrite .internal a bs .plain (consultSlot k (entryAt (e - 1)) (16 * e) s) with
      ri.filling := none, ri.u := 0, ri.e := 0, ri.frag := none } = { s with
      sm.slots := s.sm.slots.set k { slotAt s k with st := .sealing }, sm.parity := s.sm.parity ++ [k],
      sm.parityGot := if s.sm.parity = [] then none else s.sm.parityGot,
      bp.reqs := s.bp.reqs ++ [readOf (slotBase s k + entryAt (e - 1)) (16 * e) .plain, partWrite a bs .plain] ++
        (if s.sm.parity = [] then [readOf (slotBase s k) 917504 .parityRead] else []),
      ri.filling := none, ri.u := 0, ri.e := 0, ri.frag := none } := by
  rw [consultSlot, consult_internal (by omega), issueWrite_internal trailer, joinParity_eq (by exact used)]
  simp only [List.append_assoc, List.cons_append, List.nil_append]
  rfl

/-- The zeros that fill slot k up to its entries, and the close of its open fragment (R100). -/
def closingWrites (k : Nat) (s : State) : List Req :=
  (if 917440 - 16 * s.ri.e - s.ri.u = 0 then [] else [partWrite (slotBase s k + s.ri.u) (List.replicate (917440 - 16 * s.ri.e - s.ri.u) 0) .plain]) ++ closeWrite k s

/-- Slot k up to its entries, its fragment closed (R100). -/
def State.padded (k : Nat) (s : State) : State := { s with ri.frag := none, bp.reqs := s.bp.reqs ++ closingWrites k s }

theorem closeFragment_padded (k : Nat) (s : State) :
    closeFragment k (issueWrite .internal (slotBase s k + s.ri.u) (List.replicate (Config.trailerAt - 16 * s.ri.e - s.ri.u) 0) .plain s) = s.padded k := by
  rw [issueWrite_zeros, closeFragment_eq, State.padded, closingWrites]
  simp only [List.append_assoc]
  rfl

theorem sealWrites_eq (k : Nat) (s : State) : sealWrites k s = closingWrites k s ++
    [readOf (slotBase s k + entryAt (s.ri.e - 1)) (16 * s.ri.e) .plain, partWrite (slotBase s k + 917440)
      (trailerBytes (slotAt s k).seg (slotEntry (s.padded k) k 0).num s.ri.e s.ri.u (filemarksIn (s.padded k) k s.ri.e)) .plain] := by
  let ahead_ : State := { s with bp.reqs := s.bp.reqs ++ closingWrites k s }
  have first : slotEntry (s.padded k) k 0 = slotEntry ahead_ k 0 := congrArg entryOf (slotRead_congr (t := s.padded k) (s := ahead_) rfl rfl k _ 16)
  have marks : filemarksIn (s.padded k) k s.ri.e = filemarksIn ahead_ k s.ri.e := filemarksIn_congr (t := s.padded k) (s := ahead_) rfl rfl k _
  rw [first, marks]
  rfl

/-- The seal of a filling slot that holds entries (R100, R110). -/
theorem sealSlot_eq {k : Nat} {s : State} (filling : s.ri.filling = some k) (some_ : 0 < s.ri.e) (used : (slotAt s k).st ≠ .free) :
    sealSlot s = s.slotSealed k := by
  rw [sealSlot, filling]
  dsimp only
  rw [if_neg (by omega), closeFragment_padded, sealed_joins some_ (trailerBytes_ne_nil _ _ _ _ _) (by exact used), State.slotSealed, sealWrites_eq]
  have base : slotBase (consultSlot k (entryAt (s.ri.e - 1)) (16 * s.ri.e) (s.padded k)) k = slotBase s k := by
    rw [consultSlot, consult_internal (by omega)]
    rfl
  rw [base, show (s.padded k).bp.reqs = s.bp.reqs ++ closingWrites k s from rfl]
  simp only [List.append_assoc]
  rfl

theorem sealWrites_congr {s t : State} {k : Nat} (mem : t.mem = s.mem) (bp : t.bp = s.bp) (sm : t.sm = s.sm) (u : t.ri.u = s.ri.u) (e : t.ri.e = s.ri.e)
    (frag : t.ri.frag = s.ri.frag) : sealWrites k t = sealWrites k s := by
  have base : slotBase t k = slotBase s k := by unfold slotBase; rw [bp]
  have slot : slotAt t k = slotAt s k := by unfold slotAt; rw [sm]
  have closing : closingWrites k t = closingWrites k s := by simp only [closingWrites, closeWrite, base, u, e, frag]
  have padded : (t.padded k).bp = (s.padded k).bp := by simp only [State.padded, closing, bp]
  have first : slotEntry (t.padded k) k 0 = slotEntry (s.padded k) k 0 := congrArg entryOf (slotRead_congr (by exact mem) padded k _ 16)
  rw [sealWrites_eq, sealWrites_eq, filemarksIn_congr (s := s.padded k) (by exact mem) padded, first, closing, base, slot, u, e]

/-- The last bytes of a chunk compress it (R90, R95). -/
theorem consume_chunk {bs : List Byte} {c : RecordInProgress} {s : State} (some_ : bs ≠ []) (data : s.ri.st = .data) (cur : s.ri.cur = some c)
    (full : s.ri.raw.length + bs.length = chunkLen c) :
    consume (bs.length + 1) bs s = finishChunk (advanceCursor bs.length { s with ri.raw := s.ri.raw ++ bs }) := by
  have taken : min (chunkLen c - s.ri.raw.length) bs.length = bs.length := by omega
  have all_ : (advanceCursor bs.length { s with ri.raw := s.ri.raw ++ bs }).ri.raw.length = chunkLen c := by
    rw [advanceCursor, ← full]
    exact List.length_append
  rw [consume, if_neg (by simpa using some_), data]
  dsimp only
  rw [cur]
  dsimp only
  rw [taken, List.take_length, ← cur, if_pos all_]

theorem takeSlot_none {s : State} (empty : s.sm.free = []) : takeSlot s = none := by
  rw [takeSlot, takeFree, empty]
  split <;> simp_all

/-- With no slot FREE a chunk that does not fit waits to be compressed again, its slot sealed (R99). -/
theorem tryPlace_misfit {k raw body : Nat} {comp : Bool} {s : State} (item : s.ri.item = some (.chunk raw body comp)) (filling : s.ri.filling = some k)
    (misfit : chunkFits s.ri.u s.ri.e (4 + body) s.ri.frag.isNone = false) (some_ : 0 < s.ri.e) (used : (slotAt s k).st ≠ .free) (empty : s.sm.free = []) :
    tryPlace s = State.slotSealed k { s with
      ri.item := some (.chunk raw 0 comp), ri.sealReq := false, ri.frag := none, bp.reqs := s.bp.reqs ++ closeWrite k s } := by
  have closes : sealSlot (closeFragment k { s with ri.item := some (.chunk raw 0 comp), ri.sealReq := false }) = State.slotSealed k { s with
      ri.item := some (.chunk raw 0 comp), ri.sealReq := false, ri.frag := none, bp.reqs := s.bp.reqs ++ closeWrite k s } := by
    rw [closeFragment_eq]
    exact sealSlot_eq (by exact filling) (by exact some_) (by exact used)
  rw [tryPlace, item]
  dsimp only
  rw [filling]
  dsimp only
  rw [if_neg (by rw [misfit]; decide), ← filling, closes, takeSlot_none (by exact empty)]

/-- Of intake the seal reads the lengths and the fragment alone. -/
theorem slotSealed_ri {k : Nat} {s : State} (r : RecordIntake) (u : r.u = s.ri.u) (e : r.e = s.ri.e) (frag : r.frag = s.ri.frag) :
    State.slotSealed k { s with ri := r } = { s.slotSealed k with ri := { r with filling := none, u := 0, e := 0, frag := none } } := by
  rw [State.slotSealed, sealWrites_congr (s := s) (t := { s with ri := r }) rfl rfl rfl u e frag]
  rfl


/-! ### The restart of the writer (R54, R122) -/

/-- With a restart cause in WAIT_DATA the writer restarts, and nothing else follows (R122). -/
theorem settle_restarts {s : State} (deferred : s.ci.deferred = []) (held : s.bp.held = none) (flush : s.wr.flush = none) (close : s.wr.close = false)
    (fetch : fetchDue s = false) (active : s.ch.transport = .active) (mode : s.mo.mode = some .waitData) (cause : restartCause s = true) :
    settle s = noteTarget (restart s) := by
  simp only [settle, judgeDeferred_none deferred, checkFlush_none flush, checkClose_off close, rejudgeHeld_none held, startFetch_off fetch,
    checkExhaustion_awake (show s.ch.transport ≠ .parked by rw [active]; decide), checkRestart]
  rw [if_pos ⟨active, mode, cause⟩]

/-- The sealed slots have reached the restart threshold of an open session (R122). -/
theorem restartCause_full {s : State} (opened : s.ri.session = .opened) (full : s.sp.policy.restart ≤ sealedCount s) : restartCause s = true := by
  simp [restartCause, writerLive, opened, full]

/-- The dwell that runs is cut by the restart, and counted by no counter (R39). -/
theorem cancelDwellByRestart_eq {s : State} (unmon : s.pw.dwell = true → unmonitored .parkRejected s = true) :
    cancelDwellByRestart s = { s with pw.dwell := false } := by
  unfold cancelDwellByRestart
  split
  next on => rw [event_unmonitored (by exact unmon on) (by decide)]; rfl
  next off => rw [← Bool.eq_false_iff.mpr off]

/-- From the standing point of its resume point the writer ramps at once (R54, R122, R136). -/
theorem restart_stands {s : State} {p : Pos} (unmon : s.pw.dwell = true → unmonitored .parkRejected s = true) (resume : s.mo.resume = some p)
    (at_ : s.mo.stands = some (standing p)) (active : s.ch.transport = .active) : restart s = noteTarget (s.leadsIn p) := by
  rw [restart, resume]
  dsimp only
  rw [cancelDwellByRestart_eq unmon, if_pos (by exact at_), rampWrite, rampInto, enterActive, if_pos (.inl (by exact active))]
  rfl

/-- From elsewhere on its pass, where the tape stands beyond it, the tape goes to that point first (R54, R122). -/
theorem restart_behind {s : State} {p : Pos} (unmon : s.pw.dwell = true → unmonitored .parkRejected s = true) (resume : s.mo.resume = some p)
    (elsewhere : s.mo.stands ≠ some (standing p)) (active : s.ch.transport = .active) (mask : s.mo.mask = false) (speed : s.mo.v = 0) (still : stands s = true)
    (pass : s.mo.pass = p.pass) (behind : (standing p).count < s.mo.count) :
    restart s = noteTarget { s with
      pw.dwell := false, mo.band := s.sp.c, mo.stands := none, rd.start := none, mo.mode := some .backhitch, mo.goal := .writeGo,
      mo.named := p.pass, mo.dest := 102, mo.dir := .reverse, mo.stopping := false, mo.into := none, mo.passWait := false,
      mo.bandTo := none, mo.legs := [moveLeg .backhitch (standing p) 102] } := by
  rw [restart, resume]
  dsimp only
  rw [cancelDwellByRestart_eq unmon, if_neg (by exact elsewhere), backhitchTo, planMotion, if_neg (by rw [mask]; decide), startPlan, enterActive,
    if_pos (.inl (by exact active)), motionStart]
  exact congrArg noteTarget (beginLegs_behind (by exact active) (by exact speed) (by exact still) (by exact pass) (by exact behind))

/-- One more slot SEALED (R110). -/
theorem sealedCount_set {k : Nat} {v : Slot} {s : State} (used : (slotAt s k).st ≠ .free) (before : (slotAt s k).st ≠ .sealed) (after : v.st = .sealed) :
    sealedCount { s with sm.slots := s.sm.slots.set k v } = sealedCount s + 1 := by
  have inside : k < s.sm.slots.length := slot_lt used
  have same : s.sm.slots[k] = slotAt s k := by simp [slotAt, List.getD, inside]
  simp [sealedCount, ← List.countP_eq_length_filter, List.countP_set, inside, after, same, before]

/-- Parity done in slot k of the session (R110). -/
theorem parityEnds_seals {k : Nat} {s : State} (kept : s.sm.orphans.contains k = false) (used : (slotAt s k).st ≠ .free) :
    parityEnds k s = { s with sm.slots := s.sm.slots.set k { slotAt s k with st := .sealed } } := by
  rw [parityEnds, if_neg (by rw [kept]; decide), setSlot_used used (by exact nofun)]

/-- Parity done in a slot left over (R125). -/
theorem parityEnds_frees {k : Nat} {s : State} (orphan : s.sm.orphans.contains k = true) (used : (slotAt s k).st ≠ .free) :
    parityEnds k s = { s with
      sm.orphans := s.sm.orphans.filter (fun j => decide (j ≠ k)), sm.slots := s.sm.slots.set k (freshSlot .free 0), sm.free := s.sm.free ++ [k] } := by
  have inUse : decide ((slotAt { s with sm.orphans := s.sm.orphans.filter (fun j => decide (j ≠ k)) } k).st = .free) = false := decide_eq_false used
  rw [parityEnds, if_pos orphan, freeSlot]
  dsimp only
  rw [inUse]
  rfl

/-- The reads of parity for the slot it serves next (R110). -/
def parityReads (s : State) : List Req :=
  match s.sm.parity with
  | [] => []
  | k :: _ => [readOf (slotBase s k) 917504 .parityRead]

theorem serveParity_eq {s : State} (got : s.sm.parityGot = none) : serveParity s = { s with bp.reqs := s.bp.reqs ++ parityReads s } := by
  unfold serveParity parityReads
  rcases parity : s.sm.parity with _ | ⟨k, rest⟩
  · simp
  · dsimp only
    rw [issueRead_internal (n := 28 * Config.frameBytes) (by decide), ← got]
    rfl

theorem parityFrames_ne_nil {bs : List Byte} (whole : bs.length = 917504) : parityFrames bs ≠ [] := by
  simp [parityFrames, solveFrame_ne_nil whole]

/-- Slot k read for parity, its parity frames written (R110). -/
def State.parityMade (k : Nat) (rest : List Nat) (bs : List Byte) (s : State) : State := { s with
  sm.parity := rest, sm.parityGot := none, bp.reqs := s.bp.reqs ++ [partWrite (slotBase s k + 917504) (parityFrames bs) .plain] }

theorem parityDone_ends {k : Nat} {rest : List Nat} {bs : List Byte} {s t : State} (parity : s.sm.parity = k :: rest) (got : s.sm.parityGot = some bs)
    (whole : bs.length = 917504) (ends : parityEnds k (s.parityMade k rest bs) = t) (got_ : t.sm.parityGot = none) :
    exec .parityDone s = .next (settle { t with bp.reqs := t.bp.reqs ++ parityReads t }) := by
  have written : issueWrite .internal (slotBase s k + 28 * Config.frameBytes) (parityFrames bs) .plain s =
      { s with bp.reqs := s.bp.reqs ++ [partWrite (slotBase s k + 28 * Config.frameBytes) (parityFrames bs) .plain] } :=
    issueWrite_internal (parityFrames_ne_nil whole) _ _ _
  show execParityDone s = _
  rw [execParityDone, parity, got]
  dsimp only
  rw [written]
  exact congrArg (fun t => Host.Outcome.next (settle t)) ((congrArg serveParity ends).trans (serveParity_eq got_))


/-- Settles O43: chunks placed and compressed again, misfits and filemarks, slots taken, parity done and the writer restarted. -/
theorem chunksPlacedAndSealed : Obligations.ChunksPlacedAndSealed := by
  refine ⟨?_, ?_, ?_, ?_, ?_, ?_, ?_, ?_, ?_⟩
  · intro raw body comp s item other
    show execChunkPlaced s = _
    refine congrArg Host.Outcome.next ?_
    rw [item]
    have apart_ : ¬(0 < body ∧ (waitingBody comp s).length = body ∧ chunkFits s.ri.u s.ri.e (4 + body) s.ri.frag.isNone = true) :=
      fun ⟨_, same, _⟩ => other same
    split
    next same _ _ => cases same; exact if_neg apart_
    next => rfl
  · intro raw comp c k l s body st item filling cur some_ fits opened sealReq bound size calm_ timer stored first freed behind a old frag e write placed short whole
    obtain ⟨still, noted_⟩ := (calm_iff s).mp calm_
    have room : 0 < l.z := Nat.pos_of_ne_zero size
    have away : a = s.bp.rl - behind := available_eq bound
    have steps := placeChunk_eq (k := k) (c := c) (comp := comp) bound size timer (show freedBy c raw ≤ s.bp.rl by exact (by omega : freed ≤ s.bp.rl))
    have row (t : State) (made : placeChunk k c raw comp s = t) (sealless : t.ri.sealReq = false) (open_ : t.ri.session = .opened) : exec .chunkPlaced s = .next (settle t) := by
      show execChunkPlaced s = _
      rw [execChunkPlaced, st, item, filling, cur]
      dsimp only
      rw [if_pos ⟨by exact List.length_pos_of_ne_nil some_, rfl, fits⟩, made, answerSeal, if_neg (by rw [sealless]; decide), sealWhenIdle,
        if_neg (by rw [open_]; exact fun both => nomatch both.1)]
    let t : State := s.bodyPlaced l k c raw comp
    have shorter : ringDist l.z t.bp.release t.ri.cursor = behind - freed := ringDist_less room short
    have left : available t = a := by
      rw [available_eq (s := t) (l := l) bound, shorter]
      exact (by omega : s.bp.rl - freed - (behind - freed) = a)
    refine ⟨fun more none_ => ?_, fun ends pad => ?_⟩
    · rw [if_neg more, startChunk_filling (by exact filling)] at steps
      refine (row _ steps sealReq opened).trans (congrArg Host.Outcome.next
        (settle_stands ⟨still.deferred, still.held, still.flush, still.close, fetchDue_frontier (left.trans none_), still.awake, still.elsewhere⟩ noted_))
    · rw [if_pos ends, recordClosed_eq (s := t) bound size opened (by rw [left]; exact pad), left] at steps
      let v : State := { t with
        bp.reqs := t.bp.reqs ++ [partWrite (slotBase t k + entryAt (t.ri.e - 1)) (fragmentBytes frag true false) .plain],
        bp.release := (t.bp.release + a) % l.z, bp.rl := t.bp.rl - a, ri.cursor := (t.ri.cursor + a) % l.z,
        ri.padOwed := padOf c.len - a, ri.frag := none, ri.cur := none, ri.lastComplete := c.num, ri.nextRec := inc32 t.ri.nextRec,
        ri.st := .header }
      have made : placeChunk k c raw comp s = v := steps
      have past : available v = 0 := by
        rw [available_eq (s := v) (l := l) bound, show ringDist l.z v.bp.release v.ri.cursor = behind - freed from (ringDist_shift room _ _ _).trans shorter]
        exact (by omega : s.bp.rl - freed - a - (behind - freed) = 0)
      have calm : Calm v := ⟨still.deferred, still.held, still.flush, still.close, fetchDue_frontier past, still.awake, still.elsewhere⟩
      refine (row v made sealReq opened).trans (congrArg Host.Outcome.next ((settle_stands calm noted_).trans ?_))
      have reqs : v.bp.reqs = s.bp.reqs ++ [write, partWrite (slotBase s k + entryAt (e - 1)) (fragmentBytes frag true false) .plain] :=
        List.append_assoc _ _ _
      have release : v.bp.release = (s.bp.release + freed + a) % l.z := Nat.mod_add_mod _ _ _
      rw [show v = { v with bp.reqs := v.bp.reqs, bp.release := v.bp.release } from rfl, reqs, release]
      rfl
  · intro raw body comp c k free l s item calm_ bound got afresh slotTaken from_ fetched whole waits made
    obtain ⟨still, noted_⟩ := (calm_iff s).mp calm_
    -- intake that stands elsewhere than at a header or in data asks for no bytes
    have deaf (t : State) (ci : t.ci = s.ci) (held : t.bp.held = s.bp.held) (wr : t.wr = s.wr) (ch : t.ch = s.ch) (mo : t.mo = s.mo) (re : t.re = s.re)
        (fetch : fetchDue t = false) : settle t = t := by
      refine settle_stands ⟨by rw [ci]; exact still.deferred, held.trans still.held, by rw [wr]; exact still.flush, by rw [wr]; exact still.close, fetch,
        by rw [ch]; exact still.awake, by rw [ch, mo]; exact still.elsewhere⟩ ?_
      exact (noted_congr re ch mo).trans noted_
    refine ⟨?_, ?_, ?_, ?_, ?_, ?_⟩
    · rintro ⟨st, all_, cur⟩ full filling some_ inside fits
      have judged : recompressed s.ri.refetched s = startPlacement raw afresh.2 made := by
        have full_ : s.ri.cur.any (fun c => decide (got.length < chunkLen c)) = false := by
          rw [cur, Option.any_some, show chunkLen c = got.length from full.symm]
          simp
        rw [recompressed]
        dsimp only
        rw [if_neg (by rw [full_]; decide), all_]
        exact tryPlace_fits (s := made) rfl filling fits
      have places : startPlacement raw afresh.2 made = if afresh.2 then made else fetched made := by
        rw [startPlacement]
        refine congrArg (ite _ _) ?_
        exact fetchChunk_eq (s := made) bound some_ inside
      show execRecompressDone s = _
      rw [execRecompressDone, st, item]
      dsimp only
      rw [if_pos (by exact all_), judged, places]
      split
      · exact congrArg Host.Outcome.next (deaf made rfl rfl rfl rfl rfl rfl (fetchDue_deaf rfl))
      · exact congrArg Host.Outcome.next (deaf (fetched made) rfl rfl rfl rfl rfl rfl (fetchDue_deaf rfl))
    · rintro ⟨st, all_, cur⟩ short none_
      show execRecompressDone s = _
      have judged : recompressed s.ri.refetched s = { s with ri.st := .data, ri.raw := got, ri.item := none, ri.history := [], ri.refetched := [] } := by
        have short_ : s.ri.cur.any (fun c => decide (got.length < chunkLen c)) = true := by
          rw [cur, Option.any_some]
          exact decide_eq_true short
        rw [recompressed]
        dsimp only
        rw [if_pos short_]
      rw [execRecompressDone, st, item]
      dsimp only
      rw [if_pos (by exact all_), judged]
      exact congrArg Host.Outcome.next (deaf _ rfl rfl rfl rfl rfl rfl (fetchDue_frontier none_))
    · intro other
      show execRecompressDone s = _
      rw [execRecompressDone, item]
      refine congrArg Host.Outcome.next ?_
      rcases other with st | short
      · cases same : s.ri.st <;> simp_all
      · have other : ¬s.ri.refetched.length = raw := short
        cases same : s.ri.st <;> simp [other]
    · intro other
      show execChunkPlaced s = _
      rw [execChunkPlaced]
      cases same : s.ri.st <;> simp_all
    · rintro ⟨st, filling, opened, head, none_, some_, inside⟩ made_
      have slot : takeSlot s = some slotTaken := by
        rw [takeSlot_eq none_ head, slotHistory, item]
        simp only [made_, if_false]
        rfl
      have places : tryPlace s = if comp then slotTaken else fetched slotTaken := by
        rw [tryPlace, item]
        dsimp only
        rw [filling, slot]
        dsimp only
        rw [if_neg made_, startPlacement]
        exact congrArg (ite _ _) (fetchChunk_eq (s := slotTaken) bound some_ inside)
      rw [slotExhaustionEnd_places st item filling head places (by split <;> exact opened)]
      split
      · exact congrArg Host.Outcome.next (deaf slotTaken rfl rfl rfl rfl rfl rfl (fetchDue_deaf (by simp [takesBytes, slotTaken, st])))
      · exact congrArg Host.Outcome.next (deaf (fetched slotTaken) rfl rfl rfl rfl rfl rfl (fetchDue_deaf (by simp [takesBytes, slotTaken, fetched, st])))
    · rintro ⟨st, filling, opened, head, none_, some_, inside⟩ unmade
      let empty : State := { slotTaken with ri.history := [] }
      have slot : takeSlot s = some empty := by
        rw [takeSlot_eq none_ head, slotHistory, item]
        simp only [unmade, if_true]
        rfl
      have places : tryPlace s = fetched { slotTaken with ri.history := [], ri.st := .recompress, ri.chunkBuf := [] } := by
        rw [tryPlace, item]
        dsimp only
        rw [filling, slot]
        dsimp only
        rw [if_pos unmade, startRecompress]
        exact fetchChunk_eq (s := { empty with ri.st := .recompress, ri.history := [], ri.chunkBuf := [] }) bound some_ inside
      rw [slotExhaustionEnd_places st item filling head places opened]
      exact congrArg Host.Outcome.next (deaf _ rfl rfl rfl rfl rfl rfl (fetchDue_deaf rfl))
  · intro bs c k l s fetch fetched some_ bound avail inside retained calm_ opened data cur filling empty entries used raw body closed full misfit
    obtain ⟨still, noted_⟩ := (calm_iff s).mp calm_
    have size : l.z ≠ 0 := by omega
    have inUse : (slotAt s k).st ≠ .free := by rw [used]; exact nofun
    let taken : State := { s with ri.fetch := none, ri.fetched := none, ri.cursor := (s.ri.cursor + bs.length) % l.z, ri.raw := raw }
    let made : State := { taken with
      ri.item := some (.chunk raw.length body.1.length body.2), ri.chunkBuf := if body.2 then body.1 else [], ri.history := growHistory s.ri.history raw,
      ri.st := .placing, ri.raw := [] }
    let again : State := { made with ri.item := some (.chunk raw.length 0 body.2), ri.sealReq := false, ri.frag := none, bp.reqs := s.bp.reqs ++ closeWrite k s }
    have consumed : consume (bs.length + 1) bs { s with ri.fetch := none, ri.fetched := none } = again.slotSealed k := by
      rw [consume_chunk (c := c) some_ (by exact data) (by exact cur) (by rw [← List.length_append]; exact full), advanceCursor_eq (l := l) (by exact bound) size]
      exact tryPlace_misfit (s := made) rfl filling misfit entries inUse empty
    have calm : Calm (again.slotSealed k) := ⟨still.deferred, still.held, still.flush, still.close, fetchDue_deaf rfl, still.awake, still.elsewhere⟩
    show execStagingFetchReturn s = _
    rw [execStagingFetchReturn, fetch, fetched]
    dsimp only
    rw [if_pos ⟨rfl, by simp [takesBytes, data]⟩, consumed, settle_stands calm noted_]
    have history : again.ri.history = growHistory s.ri.history raw := by dsimp only [again, made]
    have sealed_ := slotSealed_ri (s := closed) (k := k) again.ri rfl rfl rfl
    rw [history] at sealed_
    exact congrArg Host.Outcome.next sealed_
  · intro k free l s bound st item filling head none_ opened calm_ size retained behind
    obtain ⟨still, noted_⟩ := (calm_iff s).mp calm_
    let taken : State := { s with
      sm.free := free, sm.slots := s.sm.slots.set k (freshSlot .filling s.ri.nextSeg), ri.filling := some k, ri.u := 0, ri.e := 0, ri.frag := none,
      ri.nextSeg := inc32 s.ri.nextSeg, ri.history := [] }
    have slot : takeSlot s = some taken := by
      rw [takeSlot_eq none_ head, slotHistory, item]
    let t : State := { taken with
      ri.e := 1, ri.item := none, ri.hdr := [], ri.resetOwed := false, ri.lastComplete := s.ri.nextRec, ri.nextRec := inc32 s.ri.nextRec, ri.st := .header,
      bp.release := (s.bp.release + 16) % l.z, bp.rl := 0,
      bp.reqs := s.bp.reqs ++ [partWrite (slotBase s k + 917424) (entryBytes s.ri.nextRec true true true s.ri.resetOwed false 0 0) .plain] }
    have places : tryPlace s = t := by
      rw [tryPlace, item]
      dsimp only
      rw [filling, slot]
      refine (placeFilemark_eq (s := taken) bound size opened retained.ge).trans ?_
      rw [show taken.bp.rl = 16 from retained]
      rfl
    have idle : available t = 0 := by rw [available_eq (s := t) (l := l) bound]; exact Nat.zero_sub _
    have calm : Calm t := ⟨still.deferred, still.held, still.flush, still.close, fetchDue_frontier idle, still.awake, still.elsewhere⟩
    rw [slotExhaustionEnd_places st item filling head places opened, settle_stands calm noted_]
  · intro s none_
    show execSlotExhaustionEnd s = _
    rw [execSlotExhaustionEnd, if_neg]
    rcases none_ with none_ | none_ <;> simp [none_]
  · intro s none_
    show execParityDone s = _
    rw [execParityDone]
    refine congrArg Host.Outcome.next ?_
    rcases none_ with none_ | none_
    · rw [none_]
    · rw [none_]
      cases s.sm.parity <;> rfl
  · intro k rest bs p s parity got whole used next done sealed_ waits
    have reads (t : State) (parity_ : t.sm.parity = rest) (layout : t.bp.layout = s.bp.layout) : parityReads t = next := by
      have base (j : Nat) : slotBase t j = slotBase s j := by unfold slotBase; rw [layout]
      rw [parityReads, parity_]
      rcases rest with _ | ⟨j, _⟩
      · rfl
      · exact congrArg (fun a => [readOf a 917504 .parityRead]) (base j)
    have row (t : State) (ends : parityEnds k (s.parityMade k rest bs) = t) (parity_ : t.sm.parity = rest) (got_ : t.sm.parityGot = none)
        (layout : t.bp.layout = s.bp.layout) : exec .parityDone s = .next (settle { t with bp.reqs := t.bp.reqs ++ next }) :=
      (parityDone_ends parity got whole ends got_).trans (by rw [reads t parity_ layout])
    let m := s.parityMade k rest bs
    have seals (kept : s.sm.orphans.contains k = false) : exec .parityDone s = .next (settle sealed_) := by
      let t : State := { m with sm.slots := m.sm.slots.set k { slotAt m k with st := .sealed } }
      have same : { t with bp.reqs := t.bp.reqs ++ next } = sealed_ := rfl
      rw [row t (parityEnds_seals (s := m) kept used) rfl rfl rfl, same]
    have restarts (kept : s.sm.orphans.contains k = false) (waits_ : waits) : exec .parityDone s = .next (noteTarget (restart sealed_)) := by
      obtain ⟨steady_, held, flush, close, fetch, active, mode, opened, resume, mask, sealing, enough, unmon⟩ := waits_
      obtain ⟨deferred, noted_⟩ := (steady_iff s).mp steady_
      have full : sealed_.sp.policy.restart ≤ sealedCount sealed_ := by
        rw [sealedCount_set (s := done) (by exact used) (by rw [show slotAt done k = slotAt s k from rfl, sealing]; exact nofun) rfl]
        exact enough
      rw [seals kept, settle_restarts (s := sealed_) deferred held flush close fetch active mode (restartCause_full opened full)]
    refine ⟨fun calm_ kept => ?_, fun calm_ orphan => ?_, fun waits_ kept at_ => ?_, fun waits_ kept elsewhere speed still pass behind => ?_⟩
    · obtain ⟨still, noted_⟩ := (calm_iff s).mp calm_
      have calm : Calm sealed_ := ⟨still.deferred, still.held, still.flush, still.close, still.fetch, still.awake, still.elsewhere⟩
      rw [seals kept, settle_stands calm noted_]
    · obtain ⟨still, noted_⟩ := (calm_iff s).mp calm_
      rw [row _ (parityEnds_frees (s := m) orphan used) rfl rfl rfl]
      refine congrArg Host.Outcome.next (settle_stands ?_ noted_)
      exact ⟨still.deferred, still.held, still.flush, still.close, still.fetch, still.awake, still.elsewhere⟩
    · rw [restarts kept waits_]
      obtain ⟨-, -, -, -, -, active, -, -, resume, -, -, -, unmon⟩ := waits_
      rw [restart_stands (s := sealed_) unmon resume at_ active, noteTarget_idem]
    · rw [restarts kept waits_]
      obtain ⟨-, -, -, -, -, active, -, -, resume, mask, -, -, unmon⟩ := waits_
      rw [restart_behind (s := sealed_) unmon resume elsewhere active mask speed still pass behind, noteTarget_idem]
      rfl
  · intro p leg n s calm_ active mode goal stopping rest legs target resume
    obtain ⟨still, noted_⟩ := (calm_iff s).mp calm_
    let u : State := { s with mo.stands := some { pass := s.mo.pass, count := n }, mo.stopping := false, mo.legs := [], mo.goal := .none }
    let t : State := { s.leadsIn p with pw.dwell := s.pw.dwell, mo.band := s.mo.band, mo.dest := bandSpeed s.mo.band }
    have ramps : rampWrite p u = noteTarget t := by
      rw [rampWrite, rampInto, enterActive, if_pos (.inl (by exact active))]
      rfl
    have goes : reachGoal .writeGo u = rampWrite p u := by
      rw [reachGoal, show u.mo.resume = some p from resume]
    have arrived : arrive s = settle (rampWrite p u) := by
      rw [arrive, if_pos ⟨stopping, rest, .inl active⟩, ← goes]
      obtain ⟨mode_, pass, target_, speed⟩ := leg
      obtain rfl : target_ = some n := target
      simp only [legs, goal, List.drop_one, List.tail_cons]
      rfl
    have calm : Calm t := still.congr rfl rfl rfl rfl still.awake (by exact fun both => nomatch both.2)
    show Host.Outcome.next (arrive s) = _
    rw [arrived, ramps, calm.settle_noteTarget]

end Sys2Proof.Machine
end

section
/-! SUPPORT. The session's commands: a refutation (R124) -/

namespace Sys2Proof.Machine
/-! ### The session's commands (R100, R124) -/

/-- A filling slot whose trailer will stand on the EOD fields of the cartridge record: O44 asks nothing of the layout's regions. -/
def trailerOnRecord : State :=
  { State.reset with
    mem := [(917433, 1)], bp.layout := some { layoutOf [] with cartBase := 917420 },
    ch.transport := .active, ch.activityAt := (.active, some .writeStream), mo.mode := some .writeStream, re.tstar := Config.tStream,
    sm.slots := [freshSlot .filling 5],
    ri.session := .opened, ri.st := .header, ri.filling := some 0, ri.e := 1, ri.u := 917424, ri.nextSeg := 1 }

/-- The trailer's segment number is read back as that of EOD, and the FLUSH completes. -/
theorem flush_completes_at_trailer : ∃ t, exec (.flush 0) trailerOnRecord = .next t ∧ t.wr.flush = none :=
  ⟨_, rfl, by decide +kernel⟩

/-- Refutes O44: the seal that FLUSH asks for writes slot bytes, which the EOD is read behind; where a layout lets them lie on the record's
area the FLUSH is no longer outstanding. -/
theorem not_sessionCommands : ¬ Obligations.SessionCommands := by
  intro holds
  obtain ⟨t, ran, flushed⟩ := flush_completes_at_trailer
  obtain ⟨-, -, -, seals, -⟩ := holds.1 0 0 trailerOnRecord (by decide +kernel) (by decide +kernel) (by decide +kernel) rfl (by decide)
  have same := seals ⟨rfl, rfl, rfl, .inl rfl, rfl⟩ rfl (by decide +kernel) (by decide) (by decide +kernel)
  rw [ran] at same
  have outstanding := congrArg (fun t : State => t.wr.flush) (Host.Outcome.next.inj same)
  rw [show t.wr.flush = _ from flushed] at outstanding
  exact absurd outstanding (by decide +kernel)


end Sys2Proof.Machine
end

section
/-! SUPPORT. READ_RECORDS and READ_ABORT (R143, R144, R158, R159) -/

namespace Sys2Proof.Machine

/-! ### READ_RECORDS (R143, R144) -/

/-- A command that its judgement completes, behind what the judgement changed, leaves that and the completion alone (R39, R183). -/
theorem firmware_completes_at {c : FwCmd} {judge : FwOp → State → State} {st : Status} {sub : Nat} {r : Results} {s t : State}
    (still : quiet t = true ∨ calm t = true) (dwell : dwellSteady s = true) (place : placeOpen (fwJob c.op) s = true) (dwell' : dwellSteady t = true)
    (place' : placeOpen (fwJob c.op) t = true) (cuts : keepsDwell c.op = false) (now : (s.mo.mask && waitsForRecovery c.op) = false)
    (judged : judge c.op (s.judging c) = complete (fwJob c.op) st sub r (t.judging c)) :
    firmware c judge s = .next (posted c.tag c.op st sub r t) := by
  rw [firmware_cuts dwell place cuts now judged, complete_after_dwellCut dwell' place', settle_posted still]

/-- A command of the READ job being judged, the dwell cut by it (R39). -/
def State.judgingRead (c : FwCmd) (s : State) : State := { s with
  pw.dwell := false, pw.cancelled := if s.pw.dwell then some .read else s.pw.cancelled, ci.read := runningNow c }

theorem judging_read {c : FwCmd} (job : fwJob c.op = .read) (s : State) : s.judging c = s.judgingRead c := by
  unfold State.judging
  rw [job]
  rfl

/-- With the position known and no session open the record's head is read, and EOD decides (R143). -/
theorem judgeReadRecords_reads {n p : Nat} {e : Eod} {l : Layout} {s : State} (some_ : n ≠ 0) (still : s.ch.transport = .ready ∨ s.ch.transport = .parked)
    (closed : s.ri.session = .closed) (at_ : s.mo.lp = some p) (bound : s.bp.layout = some l) (eod : s.cart.eod = some e) :
    judgeReadRecords n s = if e.firstRec ≤ p then
        complete .read .endOfData 0 (.position (leBytes 4 0) (some p))
          { s with rd.wanted := n, rd.delivered := 0, bp.reqs := s.bp.reqs ++ [readOf l.cartBase 64 .plain] }
      else whenSettled .read beginReadRecords
        { s with rd.wanted := n, rd.delivered := 0, bp.reqs := s.bp.reqs ++ [readOf l.cartBase 64 .plain] } := by
  have eod' : (State.cart { s with bp.reqs := s.bp.reqs ++ [readOf l.cartBase 64 .plain] }).eod = some e := by rw [cart_readOf bound, eod]
  rw [judgeReadRecords, if_neg some_, if_neg (not_and_or.mpr (still.imp not_not.mpr not_not.mpr)), if_neg (by simp [sessionOpen, closed]), at_]
  dsimp only
  rw [consultHead_eq bound, eod']
  simp only [decide_eq_true_eq, at_]

/-- From a valid start point a read goes back to its standing point (R144). -/
theorem beginReadRecords_starts {p : StartPoint} {l : Layout} {s : State} (bound : s.bp.layout = some l) (start : s.rd.start = some p) :
    beginReadRecords s = backhitchTo p.pos .readGo { s with
      bp.reqs := s.bp.reqs ++ [readOf l.cartBase 16384 .plain], rd.discardPt := s.mo.lp, rd.delivered := 0, rd.aborted := false,
      rd.state := .starting, rd.user := some .records, rd.x := p.seg, rd.next := p.seg, rd.scan := none, rd.blank := 0, rd.dataEnd := false,
      rd.lastEnd := none, rd.lowEnd := none } := by
  rw [beginReadRecords, consultCart_eq (l := l) (by exact bound)]
  dsimp only
  rw [start]
  dsimp only
  rw [← start]
  rfl

/-- From PARKED a command wakes the transport and waits (R36). -/
theorem whenSettled_parked {j : JobId} {begin_ : State → State} {s : State} (parked : s.ch.transport = .parked) (brake : s.re.brake = false)
    (step : s.ch.step = none) (noted_ : noted s = true) :
    whenSettled j begin_ s = noteTarget { s.moved .ready with pw.settling := true, pw.waiters := s.pw.waiters ++ [j] } := by
  obtain ⟨tstar, activityAt⟩ := (noted_iff s).mp noted_
  simp [whenSettled, parked, wake, setTransport, holdIdle, loopsRun, brake, step, noteTarget_eq, tStar, activity, State.moved]


/-! ### READ_ABORT (R159) -/

/-- With no piece being filled the drain stops at once (R158). -/
theorem stopDrain_idle {s : State} (fill : s.rd.fill = none) : stopDrain s =
    { s with bp.reqs := s.bp.reqs.map (Req.forget .drainRead), rd.drain := none, rd.ask := none } := by
  have done : finishFill (1099 + 1) s = s := by rw [finishFill, fill]
  rw [stopDrain, show finishFill 1100 s = s from done]
  rfl

theorem freeSlots_sm {s t : State} (sm : t.sm = s.sm) (ks : List Nat) : (freeSlots ks t).sm = (freeSlots ks s).sm := by
  induction ks generalizing s t with
  | nil => exact sm
  | cons k ks ih =>
    have slot : slotAt t k = slotAt s k := by unfold slotAt; rw [sm]
    exact ih (by rw [freeSlot, freeSlot, slot, sm])

/-- The reader has stopped, with no piece being filled (R158). -/
theorem freeReadSlots_eq {s : State} (fill : s.rd.fill = none) : freeReadSlots s = s.readStopped := by
  have same : readSlots (forgetAll .rebuildRead { stopDrain s with rd.rebuildQ := [], rd.rebuildGot := [] }) = readSlots s := by
    rw [stopDrain_idle fill, readSlots, readSlots, slotsIn_eq, slotsIn_eq]; rfl
  have read : readSlots (stopDrain s) = readSlots s := by rw [stopDrain_idle fill, readSlots, readSlots, slotsIn_eq, slotsIn_eq]
  rw [freeReadSlots]
  dsimp only
  rw [read, freeSlots_frame, freeSlots_sm (s := s) (by rw [stopDrain_idle fill]; rfl), stopDrain_idle fill]
  rfl

/-- Freeing a slot leaves none in a state in which none was (R108). -/
theorem slotsIn_freeSlot {f : SlotState → Bool} {s : State} (none_ : slotsIn f s = []) (free : f .free = false) (k : Nat) :
    slotsIn f (freeSlot k s) = [] := by
  by_cases already : (slotAt s k).st = .free
  · have same : (freeSlot k s).sm.slots = s.sm.slots := by simp [freeSlot, already]
    rw [slotsIn_eq, same, ← slotsIn_eq, none_]
  · have slots : (freeSlot k s).sm.slots = s.sm.slots.set k (freshSlot .free 0) := by simp [freeSlot, already]
    refine List.eq_nil_iff_forall_not_mem.mpr fun j mem => ?_
    obtain ⟨lt, is_⟩ := (mem_slotsIn _ _ _).mp mem
    rw [slotAt_eq, slots] at is_
    rw [slots, List.length_set] at lt
    by_cases same : j = k
    · subst same
      rw [slotOf_set already] at is_
      exact absurd (free.symm.trans is_) (by decide)
    · rw [slotOf_set_ne same, ← slotAt_eq] at is_
      exact absurd (none_ ▸ (mem_slotsIn _ _ _).mpr ⟨lt, is_⟩) List.not_mem_nil

theorem slotsIn_freeSlots {f : SlotState → Bool} {s : State} (none_ : slotsIn f s = []) (free : f .free = false) (ks : List Nat) :
    slotsIn f (freeSlots ks s) = [] := by
  induction ks generalizing s with
  | nil => exact none_
  | cons k ks ih => exact ih (slotsIn_freeSlot none_ free k)

/-- With nothing on tape the session's end drops nothing (R125). -/
theorem dropOnTape_none {s : State} (none_ : slotsIn isOnTape s = []) : dropOnTape s = s := by simp [dropOnTape, none_]

/-- A piece whose last one was on its way counts with its record (R158 step 1, R159). -/
theorem countOut_eq {s : State} (user : s.rd.user = some .records) (whole : ∀ a ∈ s.rd.out, a.last = true ∧ a.filemark = false ∧ a.status ≠ 2) :
    ∃ partly, countOut s = { s with
      mo.lp := if s.rd.out.isSome = true ∧ s.rd.ended = none then s.rd.out.map (fun a => inc32 a.num) else s.mo.lp
      rd.delivered := if s.rd.out.isSome = true ∧ s.rd.ended = none then s.rd.delivered + 1 else s.rd.delivered
      rd.partly := partly } := by
  unfold countOut
  cases out : s.rd.out with
  | none => exact ⟨s.rd.partly, by simp⟩
  | some a =>
    obtain ⟨last, filemark, status⟩ := whole a out
    by_cases ended : s.rd.ended = none
    · exact ⟨none, by simp [last, user, ended, countRecord, status, filemark]⟩
    · exact ⟨s.rd.partly, by simp [ended]⟩
/-- A job's completion with a command pending makes that command the running one, to be judged (R183). -/
theorem complete_replaces {c next : FwCmd} {st : Status} {sub : Nat} {r : Results} {s : State} {j : JobId}
    (running : s.job j = { runningNow c with pending := some next }) (room : cqOpen s = true) (dwell : s.pw.cancelled ≠ some j)
    (stalled : s.ci.state ≠ .stalled j) :
    complete j st sub r s = (posted c.tag c.op st sub r s).setJob j { runningNow next with judged := false } := by
  have job : (noteStatus st s).job j = s.job j := by unfold noteStatus; split <;> cases j <;> rfl
  have room' : cqOpen (noteStatus st s) = true := by unfold noteStatus; split <;> exact room
  have pw : (noteStatus st s).pw = s.pw := by unfold noteStatus; split <;> rfl
  have state : (noteStatus st s).ci.state = s.ci.state := by unfold noteStatus; split <;> rfl
  have armed : rearmAfter j (noteStatus st s) = noteStatus st s := by simp [rearmAfter, pw, dwell]
  have kept : (cqPush (completionRecord c st sub r) (noteStatus st s)).job j = (noteStatus st s).job j := by cases j <;> rfl
  have intake (jb : Job) : ((cqPush (completionRecord c st sub r) (noteStatus st s)).setJob j jb).ci.state = s.ci.state := by
    rw [← state]; cases j <;> rfl
  simp only [complete, running, Bool.false_eq_true, ↓reduceIte, armed, postJobEnd, room', endRunning, kept, job, intake, stalled, posted]


/-- Settles O47: each refusal is one branch of the judgement; the start goes through the wake or the move to its standing point; READ_ABORT acts as it enters
the pending place, and is judged there (R143, R144, R159). -/
theorem readRecordsJudged : Obligations.ReadRecordsJudged := by
  refine ⟨?_, ?_⟩
  · intro tag n p e at_ l s dwell either op answered refused still stand free
    let c : FwCmd := { tag := tag, op := op }
    have calm : quiet s = true ∨ calm s = true := either.symm
    have now : (s.mo.mask && waitsForRecovery op) = false := by simp [op, waitsForRecovery]
    have settledNone (open_ : n ≠ 0) (still_ : still) : ¬(s.ch.transport ≠ .ready ∧ s.ch.transport ≠ .parked) :=
      not_and_or.mpr (still_.imp not_not.mpr not_not.mpr)
    -- the head of the record read behind the checks
    let looked : State := { s with rd.wanted := n, rd.delivered := 0, bp.reqs := s.bp.reqs ++ [readOf l.cartBase 64 .plain] }
    have reads (some_ : n ≠ 0) (still_ : still) (quiet_ : quiet s = true) (lp : s.mo.lp = some p) (eod : s.cart.eod = some e) (bound : s.bp.layout = some l) :
        judgeReadRecords n (s.judgingRead c) = if e.firstRec ≤ p then
            complete .read .endOfData 0 (.position (leBytes 4 0) (some p)) (looked.judgingRead c)
          else whenSettled .read beginReadRecords (looked.judgingRead c) := by
      obtain ⟨⟨-, session, -⟩, -⟩ := (quiet_iff s).mp quiet_
      exact judgeReadRecords_reads (s := s.judgingRead c) some_ still_ session lp bound (by rw [cart_congr (t := s.judgingRead c) (s := s) rfl rfl]; exact eod)
    have row (t : State) (clear : s.ci.read = Job.clear) (bound : s.bp.layout = some l) (judged : judgeReadRecords n (s.judgingRead c) = t) :
        exec (.readRecords tag n) s = .next (settle t) := by
      have runs : startRunning c s = s.judgingRead c := (startRunning_dwellCut (c := c) rfl dwell clear).trans (judging_read rfl s)
      show firmware c _ s = _
      rw [firmware_settles (c := c) (by rw [bound]; rfl) clear now, runs]
      exact congrArg (fun t => Host.Outcome.next (settle t)) judged
    refine ⟨fun none_ place => ?_, fun some_ moving place => ?_, fun some_ still_ open_ place => ?_, fun some_ still_ quiet_ lost place => ?_,
      fun some_ still_ quiet_ lp eod past bound place => ?_, ?_, ?_⟩
    · refine firmware_completes (c := c) calm dwell place rfl now ?_
      exact if_pos none_
    · refine firmware_completes (c := c) calm dwell place rfl now ?_
      exact (if_neg some_).trans (if_pos (not_or.mp moving))
    · refine firmware_completes (c := c) calm dwell place rfl now ?_
      exact (if_neg some_).trans ((if_neg (settledNone some_ still_)).trans (if_pos open_))
    · refine firmware_completes (c := c) calm dwell place rfl now ?_
      obtain ⟨⟨-, session, -⟩, -⟩ := (quiet_iff s).mp quiet_
      have closed : ¬sessionOpen (s.judging c) = true := by simp [sessionOpen, State.judging, State.setJob, State.dwellCut, c, fwJob, op, session]
      refine (if_neg some_).trans ((if_neg (settledNone some_ still_)).trans ((if_neg closed).trans ?_))
      rw [show (s.judging c).mo.lp = none from lost]
      rfl
    · refine firmware_completes_at (c := c) (t := looked) (.inl quiet_) dwell place dwell place rfl now ?_
      exact (reads some_ still_ quiet_ lp eod bound).trans (if_pos past)
    · rintro some_ ⟨bound, clear, quiet_, lp, eod, inside, brake, mask⟩ parked step
      obtain ⟨⟨deferred, session, intake, watch, held, flush, close⟩, noted_⟩ := (quiet_iff s).mp quiet_
      rw [row _ clear bound (reads some_ (.inr parked) quiet_ lp eod bound), if_neg (by omega),
        whenSettled_parked (s := looked.judgingRead c) parked brake step noted_]
      let t : State := { (looked.judgingRead c).moved .ready with pw.settling := true, pw.waiters := s.pw.waiters ++ [.read] }
      have ease : Calm t := ⟨deferred, held, flush, close, by simp [fetchDue, t, looked, State.moved, State.judgingRead, watch], nofun, fun both => nomatch both.1⟩
      have off : s.pw.dwell = false := by simpa [dwellSteady, dwellPlace, parked] using dwell
      show Host.Outcome.next (settle (noteTarget t)) = _
      rw [ease.settle_noteTarget]
      have kept : t.pw.cancelled = s.pw.cancelled := if_neg (show ¬s.pw.dwell = true by rw [off]; decide)
      rw [show t = { t with pw.cancelled := t.pw.cancelled } from rfl, kept]
      rfl
    · rintro some_ ⟨bound, clear, quiet_, lp, eod, inside, brake, mask⟩ ready settled start speed stands_ pass behind
      obtain ⟨⟨deferred, session, intake, watch, held, flush, close⟩, noted_⟩ := (quiet_iff s).mp quiet_
      let v : State := looked.judgingRead c
      let u : State := { v with
        bp.reqs := s.bp.reqs ++ [readOf l.cartBase 64 .plain, readOf l.cartBase 16384 .plain], rd.discardPt := some p, rd.delivered := 0, rd.aborted := false,
        rd.state := .starting, rd.user := some .records, rd.x := at_.seg, rd.next := at_.seg, rd.scan := none, rd.blank := 0, rd.dataEnd := false,
        rd.lastEnd := none, rd.lowEnd := none }
      have begins : whenSettled .read beginReadRecords v = noteTarget (u.movesBehind at_.pos .readGo) := by
        rw [whenSettled, show v.ch.transport = .ready from ready]
        dsimp only
        rw [if_neg (by rw [show v.pw.settling = false from settled]; decide), beginReadRecords_starts (s := v) bound start]
        refine Eq.trans (congrArg (backhitchTo at_.pos .readGo) (a₂ := u) ?_)
          (backhitchTo_behind (s := u) .readGo ready mask brake noted_ session rfl (.inr rfl) speed stands_ pass behind)
        have reqs : v.bp.reqs ++ [readOf l.cartBase 16384 .plain] = u.bp.reqs := List.append_assoc _ _ _
        rw [reqs, show v.mo.lp = some p from lp]
      rw [row _ clear bound (reads some_ (.inl ready) quiet_ lp eod bound), if_neg (by omega), show looked.judgingRead c = v from rfl, begins]
      have ease : Calm (u.movesBehind at_.pos .readGo) := ⟨deferred, held, flush, close, by simp [fetchDue, u, v, looked, State.moved, State.judgingRead, State.movesBehind, watch], nofun,
        fun both => nomatch both.2⟩
      rw [ease.settle_noteTarget]
      rfl
  · intro tag old n s quiet_ dwell
    obtain ⟨⟨deferred, session, intake, watch, held, flush, close⟩, noted_⟩ := (quiet_iff s).mp quiet_
    let c : FwCmd := { tag := tag, op := .readAbort }
    have now : (s.mo.mask && waitsForRecovery c.op) = false := by simp [c, waitsForRecovery]
    refine ⟨fun place none_ active => ?_, fun place none_ moving => ?_, fun place ended ready => ?_, ?_⟩
    · refine firmware_completes (c := c) (.inl quiet_) dwell place rfl now ?_
      exact (if_neg (by rw [show (s.judging c).rd.aborted = false from none_]; decide)).trans (if_pos active)
    · refine firmware_completes (c := c) (.inl quiet_) dwell place rfl now ?_
      exact (if_neg (by rw [show (s.judging c).rd.aborted = false from none_]; decide)).trans (if_neg moving)
    · refine firmware_completes_at (c := c) (t := { s with rd.aborted := false }) (.inl quiet_) dwell place dwell place rfl now ?_
      refine (if_pos ended).trans ?_
      dsimp only
      rw [show (s.judging c).ch.transport = .ready from ready]
      rfl
    · intro running bound room cancelled stalled active mode user fill mask wait none_ cut n' lp whole
      let opened : State := { s with ci.read := { runningNow { tag := old, op := .readRecords n } with pending := some c } }
      let cleared : State := { opened with rd.start := none, pw.waiters := s.pw.waiters.filter (fun j => decide (j ≠ .read)) }
      have onTape : slotsIn isOnTape cleared.readStopped = [] := by
        rw [slotsIn_eq]
        rw [show cleared.readStopped.sm = (freeSlots (readSlots cleared) cleared).sm from rfl, ← slotsIn_eq]
        exact slotsIn_freeSlots (by rw [slotsIn_eq] at none_ ⊢; exact none_) rfl _
      obtain ⟨partly, counts_⟩ := countOut_eq (s := cleared.readStopped) user whole
      let counted : State := { cleared.readStopped with mo.lp := lp, rd.delivered := n', rd.partly := partly }
      have counts : countOut cleared.readStopped = counted := counts_
      let ended : State := { counted.readerAtIdle with
        li.lastErr := .aborted, ci.read := { runningNow c with judged := false },
        cq.queue := s.cq.queue ++ [completionRecord { tag := old, op := .readRecords n } .aborted 0 (.position (leBytes 4 n') lp)] }
      have aborts : abortRead opened = ended := by
        have frees : freeReadSlots cleared = cleared.readStopped := freeReadSlots_eq fill
        rw [abortRead, show ({ opened with rd.start := none, pw.waiters := opened.pw.waiters.filter (fun j => decide (j ≠ .read)) } : State) = cleared from rfl, frees, counts]
        rw [show readResult _ = .position (leBytes 4 n') lp from rfl]
        rw [complete_replaces (s := counted) (j := .read) (c := { tag := old, op := .readRecords n }) (next := c) rfl room
          (by rw [show counted.pw.cancelled = none from cancelled]; decide) stalled]
        rfl
      let going : State := { ended with rd.aborted := true, wr.pendingEnd := .none }
      have stops : endMotion false false { ended with rd.aborted := true } = noteTarget (going.stopping .toReady) := by
        have kept : dropOnTape going = going := dropOnTape_none (by rw [slotsIn_eq] at onTape ⊢; exact onTape)
        have moves : ¬(going.ch.transport ≠ .active ∨ going.mo.wait = .failing) := not_or.mpr ⟨not_not.mpr active, wait⟩
        rw [endMotion, if_neg (by simp)]
        dsimp only
        rw [if_pos (show ended.ri.session = .closed from session), show ({ ended with rd.aborted := true, wr.pendingEnd := .none } : State) = going from rfl, kept]
        rw [if_neg moves, show going.mo.mode = some .readStream from mode]
        dsimp only
        rw [if_neg (by decide), stopThen, planMotion, if_neg (by rw [show going.mo.mask = false from mask]; decide), startPlan_stop (s := going) active]
      obtain ⟨re, ch, frame⟩ := noteTarget_frame (going.stopping .toReady)
      have active' : ch.transport = .active := by
        have same : (noteTarget (going.stopping .toReady)).ch.transport = (going.stopping .toReady).ch.transport := by rw [noteTarget_eq]
        rw [frame] at same
        exact same.trans active
      have enters : enterPending .read c s = noteTarget (going.stopping .toReady) := by
        rw [enterPending, show s.setJob .read { s.job .read with pending := some c } = opened from by
          show ({ s with ci.read := { s.ci.read with pending := some c } } : State) = _
          rw [running]]
        have reads : runningOp .read opened = some (.readRecords n) := rfl
        dsimp only [c]
        rw [reads]
        dsimp only
        rw [if_pos rfl, aborts, if_pos (show ended.ch.transport = .active from active), stops]
      let final : State := { going.stopping .toReady with ci.read := runningNow c, rd.aborted := false }
      have judges : judgeReadAbort (startRunning c (noteTarget (going.stopping .toReady))) = noteTarget final := by
        have noted' : noteTarget final = { noteTarget (going.stopping .toReady) with ci.read := runningNow c, rd.aborted := false } := by
          rw [noteTarget_eq, noteTarget_eq]; rfl
        rw [noted', frame]
        let X : State := { going.stopping .toReady with re := re, ch := ch, ci.read := runningNow c }
        have run : startRunning c { going.stopping .toReady with re := re, ch := ch } = X := rfl
        rw [run, judgeReadAbort, if_pos (show X.rd.aborted = true from rfl)]
        dsimp only
        rw [show X.ch.transport = .active from active']
      have runs : exec (.readAbort tag) s = .next (noteTarget final) := by
        have ease : Calm final := ⟨deferred, held, flush, close, by simp [fetchDue, final, State.stopping, going, ended, counted, cleared, opened, State.readStopped, State.readerAtIdle, watch],
          by rw [show final.ch.transport = .active from active]; decide, by simp [final, State.stopping]⟩
        have job : s.job .read = runningNow { tag := old, op := .readRecords n } := running
        have enters' : enterOrJudge .read c (fun _ => judgeReadAbort) s = settle (noteTarget final) := by
          rw [enterOrJudge, enters, frame, if_pos ⟨rfl, rfl, rfl⟩, ← frame, judgeRunning, if_neg (by simp [c, waitsForRecovery]), judges]
        have other : fwCode (.readRecords n) ≠ fwCode .readAbort := by simp [fwCode]
        show firmware c _ s = _
        simp [firmware, Option.isSome_iff_ne_none.mp bound, job, runningNow, c, fwJob, other]
        rw [enters', ease.settle_noteTarget]
      obtain ⟨re', ch', frame'⟩ := noteTarget_frame final
      have slots : (freeSlots (readSlots cleared) cleared).sm = (freeSlots (readSlots s) s).sm := by
        rw [show readSlots cleared = readSlots s by rw [readSlots, readSlots, slotsIn_eq, slotsIn_eq]]
        exact freeSlots_sm (s := s) (t := cleared) rfl _
      refine ⟨_, runs, ?_⟩
      rw [frame']
      exact ⟨rfl, rfl, rfl, rfl, rfl, rfl, rfl, rfl, rfl, rfl, slots, rfl⟩

end Sys2Proof.Machine
end

section
/-! SUPPORT. The rebuild, the pieces and the drain of a read (R147, R149, R153, R154) -/

namespace Sys2Proof.Machine

/-! ### What the part reads (R82) -/

/-- The part reads the same bytes in both states: neither memory nor a write that waits tells them apart. -/
structure SeesSame (s t : State) : Prop where
  layout : t.bp.layout = s.bp.layout
  byte : ∀ a, throughByte t.mem t.bp.reqs a = throughByte s.mem s.bp.reqs a

theorem SeesSame.trans {s t u : State} (first : SeesSame s t) (then_ : SeesSame t u) : SeesSame s u :=
  ⟨then_.layout.trans first.layout, fun a => (then_.byte a).trans (first.byte a)⟩

theorem overlay_reads {rs : List Req} (reads : ∀ r ∈ rs, r.isWrite = false) (a : Nat) (b : Byte) : overlay a b rs = b := by
  induction rs generalizing b with
  | nil => rfl
  | cons r rs ih =>
    rw [overlay, reads r List.mem_cons_self, ih fun q mem => reads q (List.mem_cons_of_mem _ mem)]
    simp

/-- Reads issued change no byte. -/
theorem seesSame_reads {s t : State} {rs : List Req} (mem : t.mem = s.mem) (layout : t.bp.layout = s.bp.layout) (reqs : t.bp.reqs = s.bp.reqs ++ rs)
    (reads : ∀ r ∈ rs, r.isWrite = false) : SeesSame s t :=
  ⟨layout, fun a => by rw [reqs, mem, throughByte_append, overlay_reads reads]⟩

theorem seesSame_of_eq {s t : State} (mem : t.mem = s.mem) (layout : t.bp.layout = s.bp.layout) (reqs : t.bp.reqs = s.bp.reqs) : SeesSame s t :=
  ⟨layout, fun a => by rw [reqs, mem]⟩

theorem overlay_forget (p : Purpose) (rs : List Req) (a : Nat) (b : Byte) : overlay a b (rs.map (Req.forget p)) = overlay a b rs := by
  induction rs generalizing b with
  | nil => rfl
  | cons r rs ih =>
    have same : (r.forget p).isWrite = r.isWrite ∧ (r.forget p).addr = r.addr ∧ (r.forget p).data = r.data := by
      unfold Req.forget; split <;> exact ⟨rfl, rfl, rfl⟩
    rw [List.map_cons, overlay, overlay, ih, same.1, same.2.1, same.2.2]

/-- A purpose forgotten changes no byte. -/
theorem seesSame_forget {s t : State} {p : Purpose} (mem : t.mem = s.mem) (layout : t.bp.layout = s.bp.layout)
    (reqs : t.bp.reqs = s.bp.reqs.map (Req.forget p)) : SeesSame s t :=
  ⟨layout, fun a => by rw [reqs, mem, throughByte, overlay_forget]; rfl⟩

section
variable {s t : State} (same : SeesSame s t)
include same

theorem SeesSame.readThrough (a n : Nat) : readThrough t a n = readThrough s a n := by
  induction n generalizing a with
  | zero => rfl
  | succ n ih => rw [Machine.readThrough, Machine.readThrough, ih, same.byte]

theorem SeesSame.slotRead (k off n : Nat) : slotRead t k off n = slotRead s k off n := by
  rw [Machine.slotRead, same.readThrough, Machine.slotRead, slotBase, slotBase, same.layout]

theorem SeesSame.slotTrailer (k : Nat) : slotTrailer t k = slotTrailer s k := same.slotRead k _ 64

theorem SeesSame.slotEntry (k j : Nat) : slotEntry t k j = slotEntry s k j := by rw [Machine.slotEntry, same.slotRead, Machine.slotEntry]

theorem SeesSame.segmentNextRec (k : Nat) : segmentNextRec t k = segmentNextRec s k := by
  unfold Machine.segmentNextRec
  rw [same.slotTrailer]
  simp only [same.slotEntry]

theorem SeesSame.cart : t.cart = s.cart := by
  unfold State.cart cartArea
  rw [same.layout]
  split
  · rfl
  · rw [same.readThrough]

end

/-! ### The drain stands, and the rebuild goes on (R149, R153) -/

/-- Only a drain that is left alone with the data ended may end the read (R155). -/
theorem checkDataEnd_streams {s : State} (streams : s.rd.state ≠ .drainingOnly) : checkDataEnd s = s := by simp [checkDataEnd, streams]

/-- While a piece is asked for, or one is on its way, the drain stands (R153). -/
theorem drain_waits {s : State} (waits : s.rd.ask.isSome = true ∨ s.rd.out.isSome = true) (streams : s.rd.state ≠ .drainingOnly) : drain s = s := by
  have next : drainNext s = s := if_pos (.inr (.inr waits))
  rw [drain, next, checkDataEnd_streams streams]

/-- Reads of one length made through the internal class, one behind another. -/
theorem issueRead_foldl {α : Type} {n : Nat} (some_ : n ≠ 0) (at_ : α → Nat) (what : Purpose) (ws : List α) (s : State) :
    ws.foldl (fun t w => issueRead .internal (at_ w) n what t) s = { s with bp.reqs := s.bp.reqs ++ ws.map (fun w => readOf (at_ w) n what) } := by
  induction ws generalizing s with
  | nil => simp
  | cons w ws ih => rw [List.foldl_cons, issueRead_internal some_, ih]; simp

/-- The reads for the slot that the rebuild serves next (R149). -/
def servedReads (s : State) : List Nat → List Req
  | [] => []
  | j :: _ => (knownFrames (slotAt s j)).map (fun i => readOf (slotBase s j + i * 32768) 32768 .rebuildRead)

theorem serveRebuild_eq {s : State} (got : s.rd.rebuildGot = []) :
    serveRebuild s = { s with bp.reqs := s.bp.reqs ++ servedReads s s.rd.rebuildQ } := by
  unfold serveRebuild
  split
  next none_ => rw [none_]; simp [servedReads]
  next j rest queue =>
    rw [queue]
    refine (issueRead_foldl (n := 32768) (by decide) (fun i => slotBase s j + i * 32768) .rebuildRead _ _).trans ?_
    rw [← got]
    rfl

theorem servedReads_reads (s : State) (ks : List Nat) : ∀ r ∈ servedReads s ks, r.isWrite = false := by
  intro r mem
  cases ks with
  | nil => exact absurd mem List.not_mem_nil
  | cons k ks =>
    obtain ⟨i, -, is_⟩ := List.mem_map.mp mem
    rw [← is_]; rfl

/-- Slot k has been rebuilt and the next one is served (R149). -/
theorem serveRebuild_rebuilt {k : Nat} {rest : List Nat} {s : State} (whole : s.rd.rebuildGot.length = 917504) :
    consultSlot k Config.trailerAt 64 (serveRebuild { rebuildFrames k s.rd.rebuildGot s with rd.rebuildQ := rest, rd.rebuildGot := [] }) = s.rebuilt k rest := by
  rw [rebuildFrames_eq whole, serveRebuild_eq rfl, consultSlot, consult_internal (by decide)]
  simp only [State.rebuilt, formedWrites, knownFrames_eq]
  cases rest <;> simp only [servedReads, List.append_assoc, List.nil_append] <;> rfl

/-- A slot whose trailer is good is DECODED, its trailer read first (R149). -/
theorem slotDecoded_good {k : Nat} {s : State} (good : trailerGood (slotTrailer s k) (slotAt s k).seg = true) :
    slotDecoded k s = (takeDecoded k (consultSlot k Config.trailerAt 64 s), false) := by
  rw [slotDecoded]
  exact if_pos good

/-- The rebuild of slot k ends with a good trailer (R149). -/
theorem rebuildDone_good {k : Nat} {rest : List Nat} {s : State} (queue : s.rd.rebuildQ = k :: rest) (whole : s.rd.rebuildGot.length = 917504)
    (good : trailerGood (slotTrailer (s.rebuilt k rest) k) (slotAt s k).seg = true) :
    exec .rebuildDone s = .next (settle (afterRebuild (takeDecoded k (s.rebuilt k rest)))) := by
  have served := serveRebuild_rebuilt (k := k) (rest := rest) whole
  let formed : State := { rebuildFrames k s.rd.rebuildGot s with rd.rebuildQ := rest, rd.rebuildGot := [] }
  have reads : serveRebuild formed = { formed with bp.reqs := formed.bp.reqs ++ servedReads formed rest } := serveRebuild_eq rfl
  have slot : slotAt (serveRebuild formed) k = slotAt s k := by
    rw [reads, show formed = { s with rd.rebuildQ := rest, rd.rebuildGot := [], bp.reqs := s.bp.reqs ++ formedWrites k s.rd.rebuildGot s } by
      simp only [formed, rebuildFrames_eq whole]]
    rfl
  have sees : SeesSame (serveRebuild formed) (s.rebuilt k rest) := by
    rw [← served]
    exact seesSame_reads (rs := [readOf (slotBase (serveRebuild formed) k + 917440) 64 .plain]) rfl rfl rfl (by simp [readOf])
  have decoded : slotDecoded k (serveRebuild formed) = (takeDecoded k (s.rebuilt k rest), false) := by
    rw [slotDecoded_good (by rw [slot, ← sees.slotTrailer]; exact good), served]
  show execRebuildDone s = _
  rw [execRebuildDone, queue]
  dsimp only
  rw [if_pos (by exact whole), show serveRebuild _ = serveRebuild formed from rfl, decoded]
  rfl

/-- A slot that holds something is freed to the tail of the free list (R108). -/
theorem freeSlot_used {k : Nat} {s : State} (used : (slotAt s k).st ≠ .free) : freeSlot k s = { s with
    sm.slots := s.sm.slots.set k (freshSlot .free 0), sm.free := s.sm.free ++ [k] } := by simp [freeSlot, used]

/-- A slot that the reader holds is no free one (R108). -/
theorem used_of_read {s : State} {k : Nat} (mem : k ∈ readSlots s) : (slotAt s k).st ≠ .free := fun free => by
  have side := ((mem_slotsIn _ _ _).mp mem).2
  simp [isReadSide, isFetching, free] at side

/-! ### Pieces (R154) -/

theorem pieceHeader_ne_nil (a : PieceAsk) : pieceHeader a ≠ [] := by simp [pieceHeader, padTo]

/-- A run that does not reach the end of the delivery ring is one write (R154). -/
theorem writeDelivery_fits {base zd off : Nat} {bs : List Byte} (some_ : bs ≠ []) (fits : bs.length ≤ zd - off % zd) (s : State) :
    writeDelivery base zd off bs s = { s with bp.reqs := s.bp.reqs ++ [partWrite (base + off % zd) bs .plain] } := by
  rw [writeDelivery]
  dsimp only
  rw [List.take_of_length_le fits, List.drop_of_length_le fits, issueWrite_internal some_, issueWrite_nil]

/-- A run past the end of the delivery ring is two writes (R154). -/
theorem writeDelivery_wraps {base zd off : Nat} {bs : List Byte} (ring : 0 < zd) (past : zd - off % zd < bs.length) (s : State) :
    writeDelivery base zd off bs s = { s with
      bp.reqs := s.bp.reqs ++ [partWrite (base + off % zd) (bs.take (zd - off % zd)) .plain, partWrite base (bs.drop (zd - off % zd)) .plain] } := by
  have before : off % zd < zd := Nat.mod_lt _ ring
  have head : bs.take (zd - off % zd) ≠ [] := fun none_ => by
    have length := congrArg List.length none_
    rw [List.length_take, List.length_nil] at length
    omega
  have tail : bs.drop (zd - off % zd) ≠ [] := fun none_ => by
    have length := congrArg List.length none_
    rw [List.length_drop, List.length_nil] at length
    omega
  rw [writeDelivery]
  dsimp only
  rw [issueWrite_internal head, issueWrite_internal tail, List.append_assoc]
  rfl

/-- A piece whose data goes out in the requests given, and its header behind them (R154). -/
theorem writePiece_eq {a : PieceAsk} {data : List Byte} {at_ : Nat} {l : Layout} {ws : List Req} {s : State} (bound : s.bp.layout = some l)
    (last : lastPiece s = at_)
    (writes : ∀ t : State, writeDelivery l.dlBase l.zd (at_ + 32) data t = { t with bp.reqs := t.bp.reqs ++ ws }) :
    writePiece a data s = { s with
      rd.fill := none, rd.out := some a, bp.reqs := s.bp.reqs ++ ws ++ [partWrite (l.dlBase + at_) (pieceHeader a) (.pieceHeader at_)] } := by
  rw [writePiece, bound]
  dsimp only
  rw [last, writes, issueWrite_internal (pieceHeader_ne_nil a)]

/-- Settles O51: the resume is one ramp; the rebuild ends with the slot DECODED and the drain standing; the piece granted goes out in one write or two, its
header behind them; a drained slot is freed (R147, R149, R153, R154). -/
theorem readGoesOn : Obligations.ReadGoesOn := by
  refine ⟨?_, ?_, ?_, ?_, ?_⟩
  · intro s steady_ paused
    obtain ⟨deferred, noted_⟩ := (steady_iff s).mp steady_
    refine ⟨fun stopped may mode => ?_, fun not_ => ?_, fun none_ => ?_⟩
    · obtain ⟨active, state, legs, mask, rest⟩ := stopped
      have enters : enterActive { s with rd.state := .starting, mo.band := s.sp.policy.readBand } = { s with rd.state := .starting, mo.band := s.sp.policy.readBand } :=
        if_pos (.inl active)
      refine congrArg Host.Outcome.next ((if_pos ⟨active, state, legs, mask, rest, may⟩).trans ?_)
      rw [rampRead, rampInto, enters]
      simp only [motionStart, legs]
    · refine congrArg Host.Outcome.next (if_neg fun all => ?_)
      obtain ⟨active, state, legs, mask, rest, may⟩ := all
      rcases not_ with not_ | not_
      · exact not_ ⟨active, state, legs, mask, rest⟩
      · rw [may] at not_
        exact nomatch not_
    · show execRebuildDone s = _
      rw [execRebuildDone, none_]
  · intro s calm_
    obtain ⟨still, noted_⟩ := (calm_iff s).mp calm_
    have stands_ : settle s = s := settle_stands still noted_
    refine ⟨fun none_ => ?_, fun none_ => ?_⟩
    · have same : grantRoom s = s := by rw [grantRoom, none_]
      exact congrArg Host.Outcome.next ((congrArg settle same).trans stands_)
    · have same : slotDrained s = s := by rw [slotDrained, none_]
      exact congrArg Host.Outcome.next ((congrArg settle same).trans stands_)
  · intro k rest s queue whole calm_ user ask state after bad readable used good
    obtain ⟨still, noted_⟩ := (calm_iff s).mp calm_
    let t : State := { s.rebuilt k rest with sm.slots := s.sm.slots.set k { slotAt s k with st := .decoded } }
    have taken : takeDecoded k (s.rebuilt k rest) = t := by
      rw [takeDecoded, setSlot_used (by exact used) (by exact nofun), settleEod_readable (by exact readable)]
      rw [show (s.rebuilt k rest).rd.user = some .records from user]
      dsimp only
      rw [if_neg (by rw [show (s.rebuilt k rest).rd.after = none from after]; exact nofun)]
      rfl
    have rests : restIfDone t = t := if_neg fun all => by
      have bad' : s.rd.bad.isSome = true := all.2.2.1
      rw [bad] at bad'
      exact nomatch bad'
    have goes : afterRebuild t = t := (if_pos (show t.rd.user = some .records from user)).trans
      ((congrArg drain rests).trans (drain_waits (.inl ask) (by rw [show t.rd.state = .streaming from state]; exact nofun)))
    rw [rebuildDone_good queue whole good, taken, goes]
    exact congrArg Host.Outcome.next (settle_stands (still.congr rfl rfl rfl rfl still.awake still.elsewhere) noted_)
  · intro a l d e s ask bound place calm_ user state ended out drain_ read cur len free from_ first header granted data after
    obtain ⟨still, noted_⟩ := (calm_iff s).mp calm_
    have row (t : State) (grants : grantRoom s = t) (stands_ : settle t = t) : exec .deliveryRoomGranted s = .next t :=
      congrArg Host.Outcome.next ((congrArg settle grants).trans stands_)
    have calm (t : State) (ci : t.ci = s.ci) (ri : t.ri = s.ri) (wr : t.wr = s.wr) (ch : t.ch = s.ch) (mo : t.mo = s.mo)  (re : t.re = s.re)
        (bp : (t.bp.held, t.bp.watch, t.bp.rl, t.bp.release, t.bp.layout) = (s.bp.held, s.bp.watch, s.bp.rl, s.bp.release, s.bp.layout)) : settle t = t :=
      settle_stands (still.congr (by rw [ci]) ri bp (by rw [wr]) (by rw [ch]; exact still.awake) (by rw [ch, mo]; exact still.elsewhere))
        ((noted_congr re ch mo).trans noted_)
    -- the room granted, and the walk with it
    let g : State := { granted with rd.fill := some a }
    have room : roomFor s len = decide free := by
      simp only [roomFor, ringZd, bound, Option.map_some, Option.getD_some, free, Bool.decide_and]
    have grants (free_ : free) : grantRoom s = if a.len = 0 then writePiece a [] g else drain g := by
      rw [grantRoom, ask, bound]
      exact if_pos (room.trans (decide_eq_true free_))
    have last : lastPiece g = s.bp.wpos := by simp [lastPiece, g, granted]
    have walks (free_ : free) (some_ : 0 < a.len) : grantRoom s = checkDataEnd (drainWalk d g) := by
      rw [grants free_, if_neg (by omega), drain, drainNext]
      rw [if_neg (by simp [g, granted, user, ended, out]), show g.rd.drain = some d from drain_]
      exact congrArg checkDataEnd (if_pos read)
    -- a piece whose data are at hand goes out
    have goes (ws : List Req) (free_ : free) (some_ : 0 < a.len) (hand : a.len ≤ d.out.length)
        (writes : ∀ t : State, writeDelivery l.dlBase l.zd (s.bp.wpos + 32) data t = { t with bp.reqs := t.bp.reqs ++ ws }) :
        exec .deliveryRoomGranted s = .next { granted with
          rd.fill := none, rd.out := some a, rd.drain := some after, bp.reqs := s.bp.reqs ++ ws ++ [header] } := by
      have wrote : drainWalk d g = writePiece a data { g with rd.drain := some after } := by
        rw [drainWalk, cur]
        dsimp only
        rw [show g.rd.fill = some a from rfl]
        refine (if_pos hand).trans ?_
        by_cases whole : d.sent + a.len = e.raw
        · rw [if_pos whole, show after = d.past by rw [show after = _ from if_pos whole, Drain.past, read]]
        · rw [if_neg whole, pieceReady, show after = _ from if_neg whole]
      refine row _ ?_ (calm _ rfl rfl rfl rfl rfl rfl rfl)
      rw [walks free_ some_, wrote, writePiece_eq (at_ := s.bp.wpos) (l := l) (s := { g with rd.drain := some after }) bound last writes]
      refine (checkDataEnd_streams ?_).trans rfl
      exact fun is_ => nomatch state.symm.trans is_
    have full (hand : a.len ≤ d.out.length) : data.length = a.len := List.length_take_of_le hand
    refine ⟨fun none_ => ?_, fun free_ empty => ?_, fun free_ some_ hand fits => ?_, fun free_ past hand => ?_, fun free_ short => ?_⟩
    · refine row s ?_ (settle_stands still noted_)
      rw [grantRoom, ask, bound]
      exact if_neg (by rw [show roomFor s (pieceLen a.len) = decide free from room]; simpa using none_)
    · refine row _ ?_ (calm _ rfl rfl rfl rfl rfl rfl rfl)
      rw [grants free_, if_pos empty, writePiece_eq (at_ := s.bp.wpos) (l := l) (ws := []) (s := g) bound last (fun t => by simp [writeDelivery]), List.append_nil]
    · rw [goes [partWrite (l.dlBase + from_) data .plain] free_ some_ hand
        (writeDelivery_fits (fun none_ => by simp [none_] at full; omega) (by rw [full hand]; exact fits)), List.append_assoc]
      rfl
    · rw [goes [partWrite (l.dlBase + from_) (data.take first) .plain, partWrite l.dlBase (data.drop first) .plain] free_ (by omega) hand
        (writeDelivery_wraps (by omega) (by rw [full hand]; exact past)), List.append_assoc]
      rfl
    · refine row _ ?_ (calm _ rfl rfl rfl rfl rfl rfl rfl)
      let u : State := { g with rd.drain := some { d with read := .header }, bp.reqs := s.bp.reqs ++ [readOf (slotBase s d.slot + d.off) 4 .drainRead] }
      have streams : u.rd.state ≠ .drainingOnly := fun is_ => nomatch state.symm.trans is_
      have asks : drainReadAt d d.off 4 .header g = u := by
        rw [drainReadAt, issueRead_internal (by decide)]
        rfl
      have walked : drainWalk d g = u := by
        rw [drainWalk, cur]
        dsimp only
        rw [show g.rd.fill = some a from rfl]
        exact (if_neg (by omega)).trans asks
      rw [walks free_ (by omega), walked, checkDataEnd_streams streams]
  · intro d s drain_ state bad user calm_ walked
    obtain ⟨still, noted_⟩ := (calm_iff s).mp calm_
    have judged : slotDrained s = if walked then drain (freeSlot d.slot { s with rd.drain := none }) else s := by
      rw [slotDrained, drain_]
      simp only [Bool.and_eq_true, decide_eq_true_eq, Option.isNone_iff_eq_none, walked, and_assoc]
    refine ⟨fun done only => ?_, fun not_ => ?_⟩
    · have used : (slotAt s d.slot).st ≠ .free := used_of_read (by rw [only]; exact List.mem_singleton_self _)
      let t : State := { s with
        rd.drain := none, sm.slots := s.sm.slots.set d.slot (freshSlot .free 0), sm.free := s.sm.free ++ [d.slot] }
      have frees : freeSlot d.slot { s with rd.drain := none } = t := freeSlot_used used
      have none_ : readSlots t = [] := slotsIn_freed (s := s) only rfl rfl
      have stays : drain t = t := by
        have next : drainNext t = t := by
          have ask : t.rd.ask = none := done.2.2.1
          have out : t.rd.out = none := done.2.2.2.2.1
          rw [drainNext]
          by_cases ended : t.rd.ended.isSome = true
          · exact if_pos (.inr (.inl ended))
          · rw [if_neg (by simp [ask, out, ended, show t.rd.user = some .records from user]), show t.rd.drain = none from rfl]
            dsimp only
            rw [nextDrain, none_]
            exact if_neg fun all => by simp [show t.rd.bad = none from bad] at all
        rw [drain, next]
        exact checkDataEnd_streams fun is_ => nomatch state.symm.trans is_
      have run : slotDrained s = t := by rw [judged, if_pos done, frees, stays]
      exact congrArg Host.Outcome.next ((congrArg settle run).trans
        (settle_stands (s := t) (still.congr rfl rfl rfl rfl still.awake still.elsewhere) noted_))
    · exact congrArg Host.Outcome.next ((congrArg settle (judged.trans (if_neg not_))).trans (settle_stands still noted_))

end Sys2Proof.Machine
end

section
/-! SUPPORT. The end of a read (R155, R158) -/

namespace Sys2Proof.Machine

/-! ### The end of a read (R158) -/

/-- The way to the standing point of the lead-in point at which a read ends, or to rest (R158). -/
def endLegs : Option StartPoint → List Leg
  | some sp => [stopLeg .ramp, moveLeg .backhitch (standing sp.pos) 102]
  | none => [stopLeg .ramp]

/-- The read is ending: the reader has stopped, and the tape is on its way (R158). -/
def State.readEnding (st : Status) (lead : Option StartPoint) (s : State) : State :=
  { ({ s with rd.ended := some st, rd.state := .ending, rd.endLead := lead } : State).readStopped.stopping .readEnd with mo.legs := endLegs lead }

theorem endRead_eq {st : Status} {lead : Option StartPoint} {s : State} (lead_ : (if st = .ok ∨ st = .filemarkSeen then s.rd.endLead else none) = lead)
    (active : s.ch.transport = .active) (mask : s.mo.mask = false) (wait : s.mo.wait ≠ .failing) (fill : s.rd.fill = none)
    (moving : lead = none ∨ s.mo.v ≠ 0) : endRead st s = noteTarget (s.readEnding st lead) := by
  let t : State := { s with rd.ended := some st, rd.state := .ending, rd.endLead := lead }
  have stops : freeReadSlots t = t.readStopped := freeReadSlots_eq fill
  rw [endRead, if_neg wait]
  dsimp only
  rw [lead_, show ({ s with rd.ended := some st, rd.state := .ending, rd.endLead := lead } : State) = t from rfl, stops]
  cases lead with
  | none =>
    dsimp only
    rw [stopThen, planMotion, if_neg (show ¬t.readStopped.mo.mask = true by rw [show t.readStopped.mo.mask = false from mask]; decide),
      startPlan_stop (s := t.readStopped) active]
    rfl
  | some sp =>
    dsimp only
    rw [backhitchTo_moving (s := t.readStopped) active mask (moving.resolve_left nofun)]
    rfl

theorem slotAt_congr {s t : State} (sm : t.sm = s.sm) : slotAt t = slotAt s := funext fun k => by rw [slotAt, sm, slotAt]

theorem slotsIn_congr {s t : State} (sm : t.sm = s.sm) (f : SlotState → Bool) : slotsIn f t = slotsIn f s := by rw [slotsIn_eq, slotsIn_eq, sm]

theorem readSlots_congr {s t : State} (sm : t.sm = s.sm) : readSlots t = readSlots s := slotsIn_congr sm _

/-- Where the next record's segment begins, the slots and the walk decide (R158). -/
theorem nextLead_congr {s t : State} (sm : t.sm = s.sm) (drain_ : t.rd.drain = s.rd.drain) : nextLead t = nextLead s := by
  unfold nextLead
  rw [drain_, slotAt_congr sm, readSlots_congr sm]

theorem readStopped_sm {s t : State} (sm : t.sm = s.sm) : t.readStopped.sm = s.readStopped.sm := by
  show (freeSlots (readSlots t) t).sm = (freeSlots (readSlots s) s).sm
  rw [readSlots_congr sm]
  exact freeSlots_sm sm _

/-- A read that is ending keeps the slots, and asks for nothing more. -/
theorem readEnding_sm {st : Status} {lead : Option StartPoint} {s t : State} (sm : t.sm = s.sm) : (t.readEnding st lead).sm = s.readStopped.sm :=
  readStopped_sm (s := s) (t := { t with rd.ended := some st, rd.state := .ending, rd.endLead := lead }) sm

theorem pieceHeader_length (a : PieceAsk) : (pieceHeader a).length = 32 := padTo_length _ _

/-- The grant of the one request that waits, the write of a piece's header (R80, R82). -/
theorem memoryPortGrant_header {r : Req} {at_ : Nat} {s : State} (reqs : s.bp.reqs = [r]) (cls : r.cls = .internal) (write : r.isWrite = true)
    (what : r.what = .pieceHeader at_) (line : r.addr % 64 + r.len ≤ 64) (data : r.data.length = r.len) :
    exec .memoryPortGrant s = .next (settle (headerGranted at_
      { s with mem := memWriteBytes s.mem r.addr r.data, bp.reqs := [], bp.starve := 0 })) := by
  have chosen : chooseGrant s = some ([], r, []) := by simp [chooseGrant, grantable, headOf, reqs, cls]
  have step : r.step = r.len := by simp only [Req.step, Config.lineBytes]; omega
  have whole : r.data.take r.len = r.data := List.take_of_length_le data.le
  rw [memoryPortGrant_eq chosen]
  simp [moveLine, write, step, cls, requestDone, what, whole]

/-- A read that ends leaves all but the reader's hold and the motion alone (R158). -/
theorem endRead_ends {st : Status} {lead : Option StartPoint} {s : State} (lead_ : (if st = .ok ∨ st = .filemarkSeen then s.rd.endLead else none) = lead)
    (active : s.ch.transport = .active) (mask : s.mo.mask = false) (wait : s.mo.wait ≠ .failing) (fill : s.rd.fill = none)
    (moving : lead = none ∨ s.mo.v ≠ 0) :
    ∃ t, endRead st s = t ∧ checkDataEnd t = t ∧ drain t = t ∧
      (s.ci.deferred = [] → s.bp.held = none → s.wr.flush = none → s.wr.close = false → s.bp.watch = false → settle t = t) ∧
      t.rd.ended = some st ∧ t.rd.state = .ending ∧ t.rd.drain = none ∧ t.rd.ask = none ∧ t.rd.delivered = s.rd.delivered ∧
      t.mo.lp = s.mo.lp ∧ t.mem = s.mem ∧ t.bp = s.readStopped.bp ∧ t.sm = s.readStopped.sm ∧ t.mo.goal = .readEnd ∧
      t.mo.mode = some .ramp ∧ t.mo.dest = 0 ∧ t.mo.stopping = true ∧ t.ci = s.ci ∧ t.cq = s.cq ∧ t.rd.endLead = lead ∧ t.mo.legs = endLegs lead := by
  let t : State := s.readEnding st lead
  have ending : endRead st s = noteTarget t := endRead_eq lead_ active mask wait fill moving
  obtain ⟨re, ch, frame⟩ := noteTarget_frame t
  have ends : checkDataEnd (noteTarget t) = noteTarget t := by
    rw [frame]
    exact checkDataEnd_streams (s := { t with re := re, ch := ch }) (by exact nofun)
  have stays : drain (noteTarget t) = noteTarget t := by
    have next : drainNext (noteTarget t) = noteTarget t := by
      rw [frame]
      exact if_pos (.inr (.inl rfl))
    rw [drain, next, ends]
  refine ⟨noteTarget t, ending, ends, stays, fun deferred held flush close watch => ?_, ?_⟩
  · exact Calm.settle_noteTarget ⟨deferred, held, flush, close, by simp [fetchDue, t, State.readEnding, State.stopping, State.readStopped, watch],
      (fun is_ => nomatch is_.symm.trans active), (fun both => nomatch both.2)⟩
  · rw [frame]
    exact ⟨rfl, rfl, rfl, rfl, rfl, rfl, rfl, rfl, readEnding_sm rfl, rfl, rfl, rfl, rfl, rfl, rfl, rfl, rfl⟩

theorem slotBase_congr {s t : State} (layout : t.bp.layout = s.bp.layout) (k : Nat) : slotBase t k = slotBase s k := by rw [slotBase, slotBase, layout]

/-- The walk stands before an entry of the slot, which is read (R153). -/
theorem drainEntry_reads {d : Drain} {s : State} (inside : d.entry < d.entries) : drainEntry d s = { s with
    rd.drain := some { d with read := .entry }, bp.reqs := s.bp.reqs ++ [readOf (slotBase s d.slot + entryAt d.entry) 16 .drainRead] } := by
  rw [drainEntry, if_pos inside, drainReadAt, issueRead_internal (by decide)]

theorem SeesSame.eodRec {s t : State} (same : SeesSame s t) : eodRec t = eodRec s := by rw [Machine.eodRec, Machine.eodRec, same.cart]

/-- Reading the record's head issues a read, or nothing where no layout is in force, and changes nothing else. -/
theorem consultHead_frame (s : State) : ∃ rs, consultHead s = { s with bp.reqs := s.bp.reqs ++ rs } ∧ ∀ r ∈ rs, r.isWrite = false := by
  unfold consultHead
  split
  · exact ⟨[], by simp, nofun⟩
  · rename_i l _
    exact ⟨[readOf l.cartBase 64 .plain], consult_internal (by decide) _ _, by simp [readOf]⟩

/-- Settles O52: the header's grant counts the record and goes on or ends the read; the last slot drained ends it at the end of the data; at rest it completes
(R155, R158). -/
theorem readEnds : Obligations.ReadEnds := by
  refine ⟨?_, ?_, ?_⟩
  · intro a at_ l d sp s bound quiet_ reqs line out last user ended_ ask fill drain_ cur read state active mode mask wait moving last_ status
    have grants := memoryPortGrant_header reqs rfl rfl rfl (by simp only [partWrite, pieceHeader_length]; exact line) (by simp [partWrite])
    -- the memory behind the grant plays no further part
    rw [show (partWrite (l.dlBase + at_) (pieceHeader a) (.pieceHeader at_)).addr = l.dlBase + at_ from rfl,
      show (partWrite (l.dlBase + at_) (pieceHeader a) (.pieceHeader at_)).data = (pieceHeader a).map some from rfl] at grants
    generalize memWriteBytes s.mem (l.dlBase + at_) ((pieceHeader a).map some) = m at grants
    intro written counted ends
    obtain ⟨⟨deferred, session, intake, watch, held, flush, close⟩, noted_⟩ := (quiet_iff s).mp quiet_
    let granted : State := { s with
      mem := m, bp.reqs := [], bp.starve := 0,
      bp.pieces := s.bp.pieces.map (fun (p : Piece) => if p.start = at_ ∧ p.state = .writing then { p with state := .written } else p),
      rd.out := none }
    have row : exec .memoryPortGrant s = .next (settle (drain (recordDelivered a granted))) := by
      have written_ : headerGranted at_ { s with mem := m, bp.reqs := [], bp.starve := 0 } = drain (recordDelivered a granted) := by
        rw [headerGranted]
        dsimp only
        rw [out]
        dsimp only
        rw [if_pos (decide_eq_true last), if_pos ⟨user, ended_⟩, if_pos last_]
      exact grants.trans (congrArg (fun t => Host.Outcome.next (settle t)) written_)
    have counts : recordDelivered a granted =
        if a.filemark = true then endRead .filemarkSeen written else if s.rd.wanted ≤ s.rd.delivered + 1 then endRead .ok counted else counted := by
      have lead (n : Nat) : nextLead { granted with mo.lp := some (inc32 a.num), rd.partly := none, rd.delivered := n } = nextLead s :=
        nextLead_congr rfl rfl
      have counts_ : countRecord a granted = { granted with
          mo.lp := some (inc32 a.num), rd.partly := none, rd.delivered := if a.filemark = true then s.rd.delivered else s.rd.delivered + 1 } := by
        simp [countRecord, status, granted]
      rw [recordDelivered, counts_]
      dsimp only
      rw [if_neg status, lead]
      by_cases mark : a.filemark = true
      · rw [if_pos mark, if_pos mark, if_pos mark]
      · rw [if_neg mark, if_neg mark, if_neg mark]
    -- the walk goes on
    have goes : drain counted = drainEntry d counted := by
      have streams (t : State) (state_ : t.rd.state = s.rd.state) : checkDataEnd t = t := by
        refine checkDataEnd_streams ?_
        rw [state_, state]
        exact nofun
      have next : drainNext counted = drainEntry d counted := by
        rw [drainNext, if_neg (by simp [counted, written, user, ended_, ask]), show counted.rd.drain = some d from drain_]
        dsimp only
        rw [if_pos read, drainWalk, cur]
      rw [drain, next]
      refine streams _ ?_
      unfold drainEntry drainReadAt
      split
      · rw [issueRead_internal (by decide)]
      · rfl
    -- the read ends
    have ends_ (st : Status) (n : Nat) (w : State) (lead_ : (if st = .ok ∨ st = .filemarkSeen then w.rd.endLead else none) = nextLead s)
        (w_ : w = { written with rd.delivered := n }) (judged : recordDelivered a granted = endRead st w) : ∃ t, exec .memoryPortGrant s = .next t ∧ ends st w t := by
      subst w_
      obtain ⟨t, ending, -, stays, calm, ended', state', drain', ask', delivered, lp, mem, bp, sm, goal, mode', dest, stopping, ci, cq, lead', legs⟩ :=
        endRead_ends lead_ active mask wait fill (.inr moving)
      have slots : ({ written with rd.delivered := n } : State).readStopped.sm = s.readStopped.sm := readStopped_sm rfl
      refine ⟨t, by rw [row, judged, ending, stays, calm deferred held flush close watch], ended', state', drain', ask', delivered, lp, mem, ?_, ?_, sm.trans slots, goal,
        mode', dest, stopping, ci, cq, ?_, ?_⟩
      · rw [bp]; rfl
      · rw [bp]; rfl
      · intro leads
        exact ⟨lead'.trans leads, by rw [legs, leads]; rfl⟩
      · intro leads
        exact ⟨lead'.trans leads, by rw [legs, leads]; rfl⟩
    have stays (t : State) (ci : t.ci = s.ci) (ri : t.ri = s.ri) (wr : t.wr = s.wr) (ch : t.ch = s.ch) (re : t.re = s.re) (pw : t.pw = s.pw)
        (mo : t.mo = { s.mo with lp := t.mo.lp }) (held_ : t.bp.held = s.bp.held) (watch_ : t.bp.watch = s.bp.watch) : settle t = t := by
      have target : tStar t = tStar s := by unfold tStar; rw [ch, mo]
      have noted' : noted t = true := by rw [← noted_, noted, noted, target, re, ch, mo]
      refine settle_stands ⟨by rw [ci]; exact deferred, by rw [held_]; exact held, by rw [wr]; exact flush, by rw [wr]; exact close, by simp [fetchDue, watch_, watch],
        by rw [ch, active]; decide, by rw [mo]; exact fun both => nomatch mode.symm.trans both.2⟩ noted'
    refine ⟨fun data more inside => ?_, fun data more past => ?_, fun data enough => ?_, fun mark => ?_⟩
    · rw [row, counts, if_neg (by simp [data]), if_neg (by omega), goes, drainEntry_reads inside]
      rw [slotBase_congr (s := s) (t := counted) rfl, show counted.bp.reqs = [] from rfl, List.nil_append]
      let u : State := { counted with
        rd.drain := some { d with read := .entry }, bp.reqs := [readOf (slotBase s d.slot + entryAt d.entry) 16 .drainRead] }
      have same : settle u = u := stays u rfl rfl rfl rfl rfl rfl rfl rfl rfl
      exact congrArg Host.Outcome.next same
    · rw [row, counts, if_neg (by simp [data]), if_neg (by omega), goes, drainEntry, if_neg (by omega)]
      have same : ({ counted with rd.drain := some d } : State) = counted := by rw [← drain_]
      have stands_ : settle counted = counted := stays counted rfl rfl rfl rfl rfl rfl rfl rfl rfl
      rw [same, stands_]
    · exact ends_ .ok _ counted (if_pos (.inl rfl)) rfl (by rw [counts, if_neg (by simp [data]), if_pos enough])
    · exact ends_ .filemarkSeen _ written (if_pos (.inr rfl)) rfl (by rw [counts, if_pos mark])
  · intro d s quiet_ drain_ read cur past user state dataEnd ended_ bad ask fill out only active mode mask wait
    obtain ⟨⟨deferred, session, intake, watch, held, flush, close⟩, noted_⟩ := (quiet_iff s).mp quiet_
    have used : (slotAt s d.slot).st ≠ .free := used_of_read (by rw [only]; exact List.mem_singleton_self _)
    let u : State := freeSlot d.slot { s with rd.drain := none }
    have frees : u = { s with rd.drain := none, sm.slots := s.sm.slots.set d.slot (freshSlot .free 0), sm.free := s.sm.free ++ [d.slot] } :=
      freeSlot_used (s := { s with rd.drain := none }) used
    have none_ : readSlots u = [] := slotsIn_freed (s := s) only rfl (by rw [frees])
    have judged : slotDrained s = drain u := by
      rw [slotDrained, drain_]
      exact if_pos (by simp [read, cur, ask, fill, out, past])
    have next : drainNext u = u := by
      rw [drainNext, if_neg (by simp [u, user, ended_, ask, out]), show u.rd.drain = none from rfl]
      dsimp only
      rw [nextDrain, none_]
      exact if_neg fun all => by simp [u, bad] at all
    obtain ⟨rs, head, reads⟩ := consultHead_frame u
    let v : State := { u with bp.reqs := u.bp.reqs ++ rs, mo.lp := some (eodRec s) }
    have sees : SeesSame s (consultHead u) := by
      rw [head]
      exact seesSame_reads rfl rfl rfl reads
    have ends : checkDataEnd u = endRead .endOfData v := by
      refine (if_pos ⟨user, state, dataEnd, by rw [none_]; rfl, bad, ended_, ask, fill, out⟩).trans ?_
      dsimp only
      rw [sees.eodRec, head]
    obtain ⟨t, ending, -, -, calm, ended', state', drain', ask', delivered, lp, mem, bp, sm, goal, mode', dest, stopping, ci, cq, lead', legs⟩ :=
      endRead_ends (st := .endOfData) (lead := none) (s := v) (if_neg (by decide)) active mask wait fill (.inl rfl)
    have run : exec .slotDrained s = .next t := by
      refine congrArg Host.Outcome.next ?_
      rw [judged, drain, next, ends, ending]
      exact calm deferred held flush close watch
    refine ⟨t, run, ended', state', drain', delivered, lp, goal, legs, lead', ?_, mem, cq⟩
    have left : readSlots v = [] := (readSlots_congr (s := u) (t := v) rfl).trans none_
    rw [sm]
    show (freeSlots (readSlots v) v).sm = _
    rw [left]
    rfl
  · intro tag n st leg s quiet_ brake step active stopping rest legs goal stack ended_ running open_ stalled cancelled stood
    obtain ⟨⟨deferred, session, intake, watch, held, flush, close⟩, noted_⟩ := (quiet_iff s).mp quiet_
    obtain ⟨room, none_⟩ := (cqOpen_iff s).mp open_
    obtain ⟨m', pass', target', v'⟩ := leg
    cases target' <;> rcases cancelled with cancelled | cancelled <;> by_cases ok : st = .ok <;>
    simp [exec, execMoveArrived, arrive, stopping, rest, active, legs, goal, reachGoal, readStands, readerIdle, State.readerAtIdle, readResult, ended_, toReady, setTransport, leaveActive, endRecovery, emptyStack, stack,
      holdIdle, loopsRun, noteTarget_eq, tStar, activity, complete, postJobEnd, noteStatus, ok, rearmAfter, dwellPlace, cancelled, endRunning, running, room, none_, posted, Job.clear, AtEase.settle_eq, atEase_iff, brake,
      deferred, session, intake, watch, held, flush, close, stood]

end Sys2Proof.Machine
end

section
/-! SUPPORT. The EOD confirmation: a refutation (R15) -/

namespace Sys2Proof.Machine

/-! ### The EOD confirmation (R15) -/

/-- A rebuild that serves a slot which the reader does not hold, of a segment below the one it holds: O50 asks of slot k only that it is
not free. -/
def rebuildOutsideRead : State :=
  { State.reset with
    mem := [(917440, 1), (917444, 255), (917445, 255), (917446, 255), (917447, 255)], bp.layout := some { layoutOf [] with cartBase := 2000000 },
    ch.transport := .active, ch.activityAt := (.active, some .readStream), mo.mode := some .readStream, mo.v := 1, re.tstar := Config.tStream,
    sm.slots := [{ freshSlot .sealed 1 with held := List.replicate 32 true }, freshSlot .fetching 2],
    rd.user := some .confirm, rd.state := .streaming, rd.rebuildQ := [0], rd.rebuildGot := List.replicate 917504 0 }

/-- The slot, DECODED, is the lowest the reader then holds: the confirmation takes it at once and frees it. -/
theorem rebuildOutsideRead_frees :
    (slotAt (settle (afterRebuild (takeDecoded 0 (rebuildOutsideRead.rebuilt 0 [])))) 0).st = .free := by decide +kernel

/-- Refutes O50: a slot rebuilt that was none of the reader's becomes the lowest of them, and does not wait behind the one that was. -/
theorem not_eodConfirmed : ¬ Obligations.EodConfirmed := by
  intro holds
  have whole : rebuildOutsideRead.rd.rebuildGot.length = 917504 := List.length_replicate
  have good : trailerGood (slotTrailer (rebuildOutsideRead.rebuilt 0 []) 0) (slotAt rebuildOutsideRead 0).seg = true := by decide +kernel
  obtain ⟨waits, -⟩ := holds.1 1 0 [] _ rebuildOutsideRead rfl rfl whole rfl rfl rfl (by decide +kernel) (by decide +kernel) rfl rfl rfl rfl (by decide) good
  have same := waits (by decide +kernel) (by decide) (by decide +kernel)
  rw [rebuildDone_good rfl whole good] at same
  have decoded := congrArg (fun t : State => (slotAt t 0).st) (Host.Outcome.next.inj same)
  rw [show (slotAt _ 0).st = _ from rebuildOutsideRead_frees] at decoded
  exact absurd decoded (by decide +kernel)

end Sys2Proof.Machine
end

section
/-! SUPPORT. The frames of a read (R145 to R151, R156) -/

namespace Sys2Proof.Machine

/-! ### The slots, and what a merge leaves of them (R108, R146) -/

theorem insertBySeg_seg {s t : State} (seg : ∀ i, (slotAt t i).seg = (slotAt s i).seg) : insertBySeg t = insertBySeg s := by
  funext k ks
  induction ks with
  | nil => rfl
  | cons j ks ih => rw [insertBySeg, insertBySeg, seg, seg, ih]

/-- Which slots stand in a state, their states and segments decide. -/
theorem slotsIn_alike {s t : State} {f : SlotState → Bool} (length : t.sm.slots.length = s.sm.slots.length)
    (st : ∀ i, f (slotAt t i).st = f (slotAt s i).st) (seg : ∀ i, (slotAt t i).seg = (slotAt s i).seg) : slotsIn f t = slotsIn f s := by
  rw [slotsIn, slotsIn, length, bySeg, bySeg, insertBySeg_seg seg]
  simp only [st]

theorem mem_fetching {s : State} {k : Nat} : k ∈ slotsIn isFetching s ↔ k < s.sm.slots.length ∧ (slotAt s k).st = .fetching := by
  rw [mem_slotsIn]
  simp [isFetching]

/-- The slot of a segment in FETCHING is one of that segment. -/
theorem fetchSlot_some {s : State} {m k : Nat} (found : fetchSlot s m = some k) : k ∈ slotsIn isFetching s ∧ (slotAt s k).seg = m := by
  exact ⟨List.mem_of_find?_eq_some found, by simpa using List.find?_some found⟩

theorem fetchSlot_none {s : State} {m : Nat} (others : ∀ k ∈ slotsIn isFetching s, (slotAt s k).seg ≠ m) : fetchSlot s m = none := by
  rw [fetchSlot, List.find?_eq_none]
  simpa using others

theorem slotAt_set_self {s t : State} {k : Nat} {v : Slot} (slots : t.sm.slots = s.sm.slots.set k v) (place : k < s.sm.slots.length) : slotAt t k = v := by
  simp [slotAt, slots, place]

theorem slotAt_set_st {s t : State} {k : Nat} {v : Slot} {y : SlotState} (slots : t.sm.slots = s.sm.slots.set k v) (place : k < s.sm.slots.length)
    (kind : v.st = y) : (slotAt t k).st = y := by rw [slotAt_set_self slots place, kind]

theorem slotAt_set_other {s t : State} {i k : Nat} {v : Slot} (slots : t.sm.slots = s.sm.slots.set k v) (other : i ≠ k) : slotAt t i = slotAt s i := by
  rw [slotAt_eq, slots, slotOf_set_ne other, slotAt_eq]

/-- What a frame merged leaves of a slot: its state, its segment and its lead-in point; and where every frame was MISSING, most still are
(R146). -/
structure Merged (idx : Nat) (x y : Slot) : Prop where
  st : y.st = x.st
  seg : y.seg = x.seg
  leadIn : y.leadIn = x.leadIn
  held : x.held = List.replicate 32 false → y.held = List.replicate 32 false ∨ y.held = (List.replicate 32 false).set idx true

theorem stampSlot_merged (id : FrameId) (p : Pos) (x : Slot) : Merged id.idx x (stampSlot id p x) := by
  unfold stampSlot
  split
  · exact ⟨rfl, rfl, rfl, .inl⟩
  · split
    · exact ⟨rfl, rfl, rfl, fun _ => .inl rfl⟩
    · split <;> exact ⟨rfl, rfl, rfl, .inl⟩

theorem issueWrite_extends (cls : ReqClass) (a : Nat) (bs : List Byte) (what : Purpose) (s : State) :
    ∃ rs, issueWrite cls a bs what s = { s with bp.reqs := s.bp.reqs ++ rs } := by
  unfold issueWrite
  split
  · exact ⟨[], by simp⟩
  · exact ⟨_, rfl⟩

/-- A merge changes its slot, and adds a write at most; the scan it is told of is none here (R146). -/
theorem mergeFrame_frame {s : State} (scan : s.rd.scan = none) (k : Nat) (id : FrameId) (st : FrameStatus) (p : Pos) (data : List Byte) :
    ∃ y rs, mergeFrame k id st p data s = { s with
        sm.slots := if (slotAt s k).st = .free then s.sm.slots else s.sm.slots.set k y, bp.reqs := s.bp.reqs ++ rs } ∧
      Merged id.idx (slotAt s k) y := by
  let x := stampSlot id p (slotAt s k)
  have same : ({ s with rd.scan := s.rd.scan.map (followMet id p (slotAt s k).stamp) } : State) = s := by rw [scan, Option.map_none, ← scan]
  have alike : Merged id.idx (slotAt s k) x := stampSlot_merged id p _
  have cleared (missing : x.held.getD id.idx false = false) : Merged id.idx (slotAt s k) { x with held := x.held.set id.idx true } :=
    ⟨alike.st, alike.seg, alike.leadIn, fun blank => .inr (by
      rcases alike.held blank with held | held
      · exact congrArg (fun h => h.set id.idx true) held
      · show x.held.set id.idx true = _
        rw [held, List.set_set])⟩
  simp only [mergeFrame, same]
  by_cases free : (slotAt s k).st = .free
  · have stays (y : Slot) : setSlot k y s = s := by simp [setSlot, free]
    simp only [if_pos free]
    rw [stays]
    split
    · obtain ⟨rs, issued⟩ := issueWrite_extends .tape (slotBase s k + id.idx * Config.frameBytes) (padTo Config.frameBytes data) .plain s
      exact ⟨x, rs, by rw [stays, issued], alike⟩
    · exact ⟨x, [], by simp, alike⟩
  · have used : x.st ≠ .free := by rw [alike.st]; exact free
    have first : setSlot k x s = { s with sm.slots := s.sm.slots.set k x } := setSlot_used free used
    have second : setSlot k { x with held := x.held.set id.idx true } { s with sm.slots := s.sm.slots.set k x } =
        { s with sm.slots := s.sm.slots.set k { x with held := x.held.set id.idx true } } := by
      refine (setSlot_used ?_ (by exact used)).trans ?_
      · rw [slotAt_eq, slotOf_set free]; exact used
      · simp only [List.set_set]
    simp only [if_neg free]
    rw [first]
    split
    next adds =>
      rw [second]
      obtain ⟨rs, issued⟩ := issueWrite_extends .tape (slotBase { s with sm.slots := s.sm.slots.set k { x with held := x.held.set id.idx true } } k + id.idx * Config.frameBytes)
        (padTo Config.frameBytes data) .plain { s with sm.slots := s.sm.slots.set k { x with held := x.held.set id.idx true } }
      exact ⟨_, rs, issued, cleared adds.2.1⟩
    next => exact ⟨x, [], by simp, alike⟩

/-! ### A frame of a read (R145 to R148) -/

/-- A frame has been met: the bounds it is judged by have been read (R51, R145). -/
def State.frameMet (l : Layout) (s : State) : State := { s with
  rd.blank := 0, bp.reqs := s.bp.reqs ++ [readOf l.cartBase 64 .plain, readOf (l.cartBase + 64 + 16 * s.mo.pass) 16 .plain] }

theorem consultBounds_met {l : Layout} {s : State} (bound : s.bp.layout = some l) : consultBounds { s with rd.blank := 0 } = s.frameMet l := by
  rw [consultBounds, show ({ s with rd.blank := 0 } : State).bp.layout = some l from bound]
  dsimp only
  rw [consultHead_eq (s := { s with rd.blank := 0 }) bound, consult_internal (by decide), State.frameMet]
  dsimp only
  rw [List.append_assoc]
  rfl

theorem seesSame_met (l : Layout) (s : State) : SeesSame s (s.frameMet l) := seesSame_reads rfl rfl rfl (by simp [readOf])

/-- The end of the frame is held, and as that of a segment opened where it is one (R59, R147). -/
def State.frameEnded (seg : Nat) (stop : Pos) (s : State) : State := { s with
  rd.lastEnd := some stop, rd.lowEnd := if seg < s.rd.next then some stop else s.rd.lowEnd }

section
variable {id : FrameId} {st : FrameStatus} {start : Nat} {data : List Byte} {l : Layout} {s t : State}

theorem takeFrame_inside (bound : s.bp.layout = some l) (inside : beyondEod s id.seg = false)
    (judged : judgeFrame id st { pass := s.mo.pass, count := start } data (s.frameMet l) = t) (user : t.rd.user = some .records) :
    takeFrame id st start data s = t.frameEnded id.seg { pass := s.mo.pass, count := ahead s.mo.pass start 48 } := by
  rw [takeFrame]
  dsimp only
  rw [consultBounds_met bound, judged, inside]
  exact if_pos (by rw [user]; rfl)

theorem frameReceived_settles (streams : frameStream s = true) (taken : takeFrame id st start data s = t)
    (straight : (frameStream t && passRead id.seg t) = false) (stays : drain t = t) :
    exec (.frameReceived id st start data) s = .next (settle t) := by
  refine congrArg Host.Outcome.next ((if_pos streams).trans ?_)
  dsimp only
  rw [taken, straight]
  exact congrArg settle stays

theorem judgeFrame_above (expected : s.rd.x ≤ id.seg) (inside : beyondEod s id.seg = false) (closed : fetchSlot s id.seg = none)
    (above : (slotsIn isFetching s).any (fun i => decide (id.seg < (slotAt s i).seg)) = false) (p : Pos) :
    judgeFrame id st p data s = frameAbove id st p data s := by
  rw [judgeFrame, if_neg (by simp [inside]; exact expected), closed]
  exact if_neg (by rw [above]; decide)

/-- What the frame completes lets the read go on, and the frame's own segment is opened (R145 case 3). -/
theorem frameAbove_opens {u : State} {k : Nat} {p : Pos} (completes : completeAll (overdue s id.seg) s = (t, false)) (goes : goesOn t = true)
    (user : t.rd.user = some .records) (opens : openUpTo id p 3 t = (u, some k)) (scan : u.rd.scan = none) :
    frameAbove id st p data s = mergeFrame k id st p data u := by
  have go : ¬((t, false).2 || !goesOn t || (decide (t.rd.user = some .splice) && !t.rd.rebuildQ.isEmpty)) = true := by simp [goes, user]
  obtain ⟨y, rs, merged, -⟩ := mergeFrame_frame scan k id st p data
  rw [frameAbove]
  dsimp only
  rw [completes]
  refine (if_neg go).trans ?_
  rw [opens]
  show scanAdvance (mergeFrame k id st p data u) = _
  rw [merged, scanAdvance]
  exact if_pos (show u.rd.scan.isNone = true by rw [scan]; rfl)

/-- What the frame completes ends the stream, or begins a retry (R148, R150, R151). -/
theorem frameAbove_stops {b : Bool} {p : Pos} (completes : completeAll (overdue s id.seg) s = (t, b)) (stops : (b || !goesOn t) = true) :
    frameAbove id st p data s = restIfDone t := by
  rw [frameAbove]
  dsimp only
  rw [completes]
  exact if_pos (by dsimp only; rw [stops, Bool.true_or])

theorem goesOn_streams (state : s.rd.state = .streaming) (bad : s.rd.bad = none) : goesOn s = true := by simp [goesOn, state, bad]

end

/-- No stretch of the pass is known to be done while the segment met has frames MISSING (R51). -/
theorem passRead_missing {m : Nat} {s : State} (missing : ∀ k, fetchSlot s m = some k → missingFrames (slotAt s k) ≠ []) : passRead m s = false := by
  unfold passRead
  split
  next e k _ found =>
    have some_ : (missingFrames (slotAt s k)).isEmpty = false := by simpa using missing k found
    rw [some_, Bool.and_false]
  next => rfl

theorem missing_of_merged {idx : Nat} {x : Slot} (held : x.held = List.replicate 32 false ∨ x.held = (List.replicate 32 false).set idx true) :
    missingFrames x ≠ [] := by
  have lost (i : Nat) (place : i < 32) (other : i ≠ idx) : i ∈ missingFrames x := by
    refine List.mem_filter.mpr ⟨List.mem_range.mpr place, ?_⟩
    have blank : (List.replicate 32 false).getD i false = false := by
      rw [List.getD_eq_getElem?_getD, List.getElem?_replicate, if_pos place]
      rfl
    rcases held with held | held
    · rw [held, blank]
      rfl
    · rw [held, List.getD_eq_getElem?_getD, List.getElem?_set_ne (Ne.symm other), ← List.getD_eq_getElem?_getD, blank]
      rfl
  by_cases first : idx = 0
  · exact List.ne_nil_of_mem (lost 1 (by decide) (by omega))
  · exact List.ne_nil_of_mem (lost 0 (by decide) (by omega))

/-- The drain has nothing to go on with (R153). -/
theorem drain_stands {s : State} (stands_ : drainStands s = true) (streams : s.rd.state ≠ .drainingOnly) : drain s = s := by
  simp only [drainStands, Bool.or_eq_true] at stands_
  rcases stands_ with (ask | out) | walk
  · exact drain_waits (.inl ask) streams
  · exact drain_waits (.inr out) streams
  have next : drainNext s = s := by
    unfold drainNext
    split
    · rfl
    · cases drain_ : s.rd.drain with
      | some d =>
        rw [drain_] at walk
        dsimp only
        exact if_neg (by simpa using walk)
      | none =>
        rw [drain_] at walk
        obtain ⟨bad, slots⟩ := Bool.and_eq_true_iff.mp walk
        have none_ : nextDrain s = none := by
          unfold nextDrain
          split
          next k ks held =>
            have mem : k ∈ readSlots s := by rw [held]; exact List.mem_cons_self
            have place : k < s.sm.slots.length := ((mem_slotsIn _ _ _).mp mem).1
            have kind : (slotAt s k).st ≠ .decoded := by
              have each := List.all_eq_true.mp slots (s.sm.slots[k]) (List.getElem_mem place)
              simpa [slotAt, List.getD, place] using each
            exact if_neg fun both => kind both.1
          next => rfl
        dsimp only
        rw [none_]
        exact if_neg fun all => by
          rw [Option.isNone_iff_eq_none.mp bad] at all
          exact absurd all.2.2.1 (by decide)
  rw [drain, next, checkDataEnd_streams streams]

/-- A slot that is not DECODED gives the drain nothing. -/
theorem drainStands_set {s t : State} {k : Nat} {y : Slot} (stands_ : drainStands s = true) (rd : (t.rd.ask, t.rd.out, t.rd.drain, t.rd.bad) = (s.rd.ask, s.rd.out, s.rd.drain, s.rd.bad))
    (slots : t.sm.slots = s.sm.slots.set k y) (held : y.st ≠ .decoded) : drainStands t = true := by
  simp only [Prod.mk.injEq] at rd
  obtain ⟨ask, out, drain_, bad⟩ := rd
  have all : s.sm.slots.all (fun x => decide (x.st ≠ .decoded)) = true → t.sm.slots.all (fun x => decide (x.st ≠ .decoded)) = true := fun each => by
    rw [slots, List.all_eq_true]
    intro x mem
    rcases List.mem_or_eq_of_mem_set mem with mem | is_
    · exact List.all_eq_true.mp each x mem
    · rw [is_]; exact decide_eq_true held
  unfold drainStands at stands_ ⊢
  rw [ask, out, drain_, bad]
  cases d : s.rd.drain with
  | some d' => rw [d] at stands_; exact stands_
  | none =>
    rw [d] at stands_
    simp only [Bool.or_eq_true, Bool.and_eq_true] at stands_ ⊢
    exact stands_.imp_right fun walk => ⟨walk.1, all walk.2⟩

/-! ### Segments opened, and the pause (R145, R147) -/

/-- The slot of a segment opened with the lead-in point given: every entry MISSING (R147). -/
def openedSlot (seg : Nat) (lead : Option Pos) : Slot := { freshSlot .fetching seg with leadIn := lead }

/-- Segment `seg` opened in slot k by its own frame (R145 case 3, R147). -/
def State.opened (k : Nat) (rest : List Nat) (id : FrameId) (p : Pos) (s : State) : State := { s with
  sm.free := rest, sm.slots := s.sm.slots.set k (openedSlot id.seg (some (backClamped p (48 * id.idx + 3072)))), rd.next := id.seg + 1, mo.entry := 0 }

theorem openUpTo_opens {k n : Nat} {rest : List Nat} {id : FrameId} {p : Pos} {s : State} (next : s.rd.next = id.seg) (may : mayOpen s = true)
    (free : s.sm.free = k :: rest) : openUpTo id p (n + 1) s = (s.opened k rest id p, some k) := by
  let lead := some (backClamped p (48 * id.idx + 3072))
  let taken : State := { s with sm.slots := s.sm.slots.set k (freshSlot .fetching id.seg), sm.free := rest, rd.next := id.seg + 1 }
  have set_ : setSlot k (openedSlot id.seg lead) taken = { taken with sm.slots := s.sm.slots.set k (openedSlot id.seg lead) } := by
    by_cases place : k < s.sm.slots.length
    · have slot : slotAt taken k = freshSlot .fetching id.seg := slotAt_set_self (s := s) rfl place
      rw [setSlot_used (by rw [slot]; exact nofun) (by exact nofun), show taken.sm.slots = s.sm.slots.set k (freshSlot .fetching id.seg) from rfl, List.set_set]
    · have out (y : Slot) : s.sm.slots.set k y = s.sm.slots := List.set_eq_of_length_le (by omega)
      have free_ : (slotAt taken k).st = .free := by simp [slotAt, taken, out, place, freshSlot]
      rw [setSlot, if_pos (.inl free_), out, show taken.sm.slots = s.sm.slots from out _]
  have opens : openSegment lead s = some (k, { taken with sm.slots := s.sm.slots.set k (openedSlot id.seg lead) }) := by
    rw [openSegment]
    dsimp only
    rw [if_pos may, takeFree, free, next]
    exact congrArg (fun t => some (k, t)) set_
  rw [openUpTo]
  dsimp only
  rw [if_neg (by omega), if_pos next, show some (backClamped p (Config.pitch * id.idx + Config.skipGap)) = lead from rfl, opens]
  exact if_pos next

/-- With no slot to be had the read pauses (R147). -/
theorem openUpTo_pauses {n : Nat} {id : FrameId} {p : Pos} {s : State} (next : s.rd.next = id.seg) (may : mayOpen s = false) :
    openUpTo id p (n + 1) s = (pauseRead p s, none) := by
  have opens (lead : Option Pos) : openSegment lead s = none := by
    rw [openSegment]
    exact if_neg (by rw [may]; decide)
  rw [openUpTo]
  dsimp only
  rw [if_neg (by omega), opens]

theorem mayOpen_room {k : Nat} {rest : List Nat} {s : State} (free : s.sm.free = k :: rest) (few : (readSlots s).length < s.sp.policy.readAhead) :
    mayOpen s = true := by simp [mayOpen, free, few]

theorem mayOpen_full {s : State} (user : s.rd.user = some .records) (full : s.sm.free = [] ∨ s.sp.policy.readAhead ≤ (readSlots s).length) :
    mayOpen s = false := by
  rcases full with full | full
  · simp [mayOpen, full]
  · simp [mayOpen, user, full]

/-- The frame merged into the segment it has opened leaves it in FETCHING, with frames MISSING (R145, R146). -/
theorem mergeFrame_opened {k : Nat} {rest : List Nat} {id : FrameId} {p : Pos} {s : State} (scan : s.rd.scan = none) (st : FrameStatus) (data : List Byte) :
    ∃ y rs, mergeFrame k id st p data (s.opened k rest id p) = { s.opened k rest id p with
        sm.slots := s.sm.slots.set k y, bp.reqs := s.bp.reqs ++ rs } ∧
      y.st = .fetching ∧ y.seg = id.seg ∧ y.leadIn = some (backClamped p (48 * id.idx + 3072)) ∧ missingFrames y ≠ [] := by
  obtain ⟨y, rs, merged, alike⟩ := mergeFrame_frame (s := s.opened k rest id p) scan k id st p data
  by_cases place : k < s.sm.slots.length
  · have slot : slotAt (s.opened k rest id p) k = openedSlot id.seg (some (backClamped p (48 * id.idx + 3072))) := slotAt_set_self (s := s) rfl place
    rw [slot] at alike merged
    refine ⟨y, rs, ?_, alike.st, alike.seg, alike.leadIn, missing_of_merged (alike.held rfl)⟩
    rw [merged, if_neg (by exact nofun), show (s.opened k rest id p).sm.slots = s.sm.slots.set k _ from rfl, List.set_set]
    rfl
  · have out (z : Slot) : s.sm.slots.set k z = s.sm.slots := List.set_eq_of_length_le (by omega)
    have free_ : (slotAt (s.opened k rest id p) k).st = .free := by simp [slotAt, State.opened, out, place, freshSlot]
    refine ⟨openedSlot id.seg (some (backClamped p (48 * id.idx + 3072))), rs, ?_, rfl, rfl, rfl, missing_of_merged (idx := 0) (.inl rfl)⟩
    rw [merged, if_pos free_]
    rfl

/-- The segment that its own frame has opened is not the last of a stretch read whole (R51). -/
theorem opened_misses {k m : Nat} {y : Slot} {s t : State} (closed : fetchSlot s m = none) (slots : t.sm.slots = s.sm.slots.set k y)
    (missing : missingFrames y ≠ []) : passRead m t = false := by
  refine passRead_missing fun i found => ?_
  obtain ⟨mem, seg⟩ := fetchSlot_some found
  obtain ⟨place, kind⟩ := mem_fetching.mp mem
  rw [slots, List.length_set] at place
  by_cases same : i = k
  · subst same
    rw [slotAt_set_self slots place]
    exact missing
  · rw [slotAt_set_other slots same] at kind seg
    have none_ := List.find?_eq_none.mp closed i (mem_fetching.mpr ⟨place, kind⟩)
    simp [seg] at none_

/-! ### How a frame is judged (R145 to R148) -/

theorem fetchSlot_congr {s t : State} (sm : t.sm = s.sm) (m : Nat) : fetchSlot t m = fetchSlot s m := by
  rw [fetchSlot, fetchSlot, slotsIn_congr sm, slotAt_congr sm]

theorem SeesSame.eodSeg {s t : State} (same : SeesSame s t) : eodSeg t = eodSeg s := by rw [Machine.eodSeg, Machine.eodSeg, same.cart]

theorem SeesSame.beyondEod {s t : State} (same : SeesSame s t) (user : t.rd.user = s.rd.user) (m : Nat) : beyondEod t m = beyondEod s m := by
  unfold Machine.beyondEod
  rw [same.cart, user]

theorem SeesSame.passRead {s t : State} (same : SeesSame s t) (sm : t.sm = s.sm) (user : t.rd.user = s.rd.user) (pass : t.mo.pass = s.mo.pass)
    (m : Nat) : passRead m t = passRead m s := by
  unfold Machine.passRead
  rw [same.cart, fetchSlot_congr sm, same.eodSeg, user, pass, slotAt_congr sm]

/-- Nothing at or beyond EOD is the last segment of a pass (R51). -/
theorem passRead_beyond {m : Nat} {s : State} (beyond : beyondEod s m = true) : passRead m s = false := by
  have past : eodSeg s ≤ m := by
    unfold beyondEod at beyond
    unfold eodSeg
    split at beyond
    next e eod =>
      rw [Bool.and_eq_true] at beyond
      rw [eod]
      exact of_decide_eq_true beyond.1
    next => exact nomatch beyond
  unfold passRead
  split
  next e k _ _ =>
    rw [show decide (m + 1 < eodSeg s) = false from decide_eq_false (by omega)]
    simp
  next => rfl

section
variable {id : FrameId} {st : FrameStatus} {start : Nat} {data : List Byte} {l : Layout} {s : State}

/-- A frame at or beyond EOD is ignored (R145 case 1). -/
theorem frameReceived_beyond (calm_ : calm s = true) (bound : s.bp.layout = some l) (stands_ : drainStands s = true) (streams : frameStream s = true)
    (beyond : beyondEod s id.seg = true) : exec (.frameReceived id st start data) s = .next (s.frameMet l) := by
  obtain ⟨still, noted_⟩ := (calm_iff s).mp calm_
  have met : beyondEod (s.frameMet l) id.seg = true := by rw [(seesSame_met l s).beyondEod rfl]; exact beyond
  have judged : judgeFrame id st { pass := s.mo.pass, count := start } data (s.frameMet l) = s.frameMet l := if_pos (.inr met)
  have taken : takeFrame id st start data s = s.frameMet l := by
    rw [takeFrame]
    dsimp only
    rw [consultBounds_met bound, judged, beyond]
    exact if_neg (by simp)
  have state : s.rd.state = .streaming := by simp only [frameStream, Bool.and_eq_true, decide_eq_true_eq] at streams; exact streams.2
  rw [frameReceived_settles streams taken (by rw [passRead_beyond met, Bool.and_false])
    (drain_stands (s := s.frameMet l) stands_ (by rw [show (s.frameMet l).rd.state = .streaming from state]; exact nofun))]
  exact congrArg Host.Outcome.next (settle_stands (s := s.frameMet l) (still.congr rfl rfl rfl rfl still.awake still.elsewhere) noted_)

/-- What a frame judged inside the data leaves of the reader and of the slots is all that it changes. -/
theorem frameReceived_inside {t : State} (calm_ : calm s = true) (bound : s.bp.layout = some l) (streams : frameStream s = true)
    (inside : beyondEod s id.seg = false)
    (judged : judgeFrame id st { pass := s.mo.pass, count := start } data (s.frameMet l) = t) (user : t.rd.user = some .records)
    (straight : passRead id.seg (t.frameEnded id.seg { pass := s.mo.pass, count := ahead s.mo.pass start 48 }) = false)
    (stands_ : drainStands t = true) (state : t.rd.state = .streaming)
    (ci : t.ci = s.ci) (ri : t.ri = s.ri) (wr : t.wr = s.wr) (ch : t.ch = s.ch) (re : t.re = s.re) (mo : t.mo = { s.mo with entry := t.mo.entry })
    (bp : (t.bp.held, t.bp.watch, t.bp.rl, t.bp.release, t.bp.layout) = (s.bp.held, s.bp.watch, s.bp.rl, s.bp.release, s.bp.layout)) :
    exec (.frameReceived id st start data) s = .next (t.frameEnded id.seg { pass := s.mo.pass, count := ahead s.mo.pass start 48 }) := by
  obtain ⟨still, noted_⟩ := (calm_iff s).mp calm_
  let u := t.frameEnded id.seg { pass := s.mo.pass, count := ahead s.mo.pass start 48 }
  have target : tStar u = tStar s := by unfold tStar; rw [show u.ch = s.ch from ch, show u.mo = _ from mo]
  have noted' : noted u = true := by rw [← noted_, noted, noted, target, show u.re = s.re from re, show u.ch = s.ch from ch, show u.mo = _ from mo]
  rw [frameReceived_settles streams (takeFrame_inside bound inside judged user) (by rw [straight, Bool.and_false])
    (drain_stands (s := u) stands_ (by rw [show u.rd.state = .streaming from state]; exact nofun))]
  exact congrArg Host.Outcome.next (settle_stands (s := u) (still.congr (congrArg CommandIntake.deferred ci) ri bp
    (by rw [show u.wr = s.wr from wr]) (by rw [show u.ch = s.ch from ch]; exact still.awake)
    (by rw [show u.ch = s.ch from ch, show u.mo = _ from mo]; exact still.elsewhere)) noted')

end

/-- The stream that turns beyond the region end (R51): the move and its goal, before the look at its stopping point. -/
def State.turningRead (s : State) : State :=
  let stop := (standing { pass := s.mo.pass + 1, count := regionStart (s.mo.pass + 1) }).count
  { s with
    rd.start := none, mo.stands := none, mo.goal := .turnRead, mo.bandTo := none, mo.passWait := false, mo.named := s.mo.pass,
    mo.legs := [{ mode := .turn, pass := none, target := some stop, speed := bandSpeed s.mo.band }], mo.dest := bandSpeed s.mo.band,
    mo.stopping := false, mo.into := none, mo.mode := some .turn,
    mo.dir := if stop < s.mo.count then .reverse else if s.mo.count < stop then .forward else s.mo.dir }

theorem beginReadTurn_eq {s : State} (active : s.ch.transport = .active) : beginReadTurn s = checkStop s.turningRead := by
  simp only [beginReadTurn, beginTurn, motionStart, beginLegs, Option.getD_none, ne_eq, not_true_eq_false, if_false, active, if_true]
  exact if_neg (by exact nofun)

/-- The stream turns on the pass it stands on (R51). -/
theorem beginReadTurn_turns {s : State} (active : s.ch.transport = .active) : ∃ mo, beginReadTurn s = { s with rd.start := none, mo := mo } ∧
    mo.goal = .turnRead ∧ mo.mode = some .turn ∧
    mo.legs = [{ mode := .turn, pass := none, target := some (standing { pass := s.mo.pass + 1, count := regionStart (s.mo.pass + 1) }).count,
                 speed := bandSpeed s.mo.band }] := by
  obtain ⟨dest, stopping, into, stops⟩ := checkStop_frame (s := s.turningRead) nofun
  exact ⟨_, (beginReadTurn_eq active).trans stops, rfl, rfl, rfl⟩

section
variable {id : FrameId} {st : FrameStatus} {start : Nat} {data : List Byte} {l : Layout} {s : State}

/-- The frame that makes the last segment of its pass whole turns the stream (R51). -/
theorem frameReceived_turns {t : State} (still : Calm t) (streams : frameStream s = true) (taken : takeFrame id st start data s = t)
    (streams' : frameStream t = true) (whole : passRead id.seg t = true) (stands_ : drainStands t = true) :
    ∃ v, exec (.frameReceived id st start data) s = .next v ∧ v.mo.goal = .turnRead ∧ v.mo.mode = some .turn ∧
      v.mo.legs = [{ mode := .turn, pass := none, target := some (standing { pass := t.mo.pass + 1, count := regionStart (t.mo.pass + 1) }).count,
                     speed := bandSpeed t.mo.band }] ∧
      v.sm = t.sm ∧ v.bp = t.bp ∧ v.rd = { t.rd with start := none } ∧ v.mem = t.mem := by
  simp only [frameStream, Bool.and_eq_true, decide_eq_true_eq] at streams'
  obtain ⟨⟨active, mode⟩, state⟩ := streams'
  obtain ⟨mo, turns, goal, turn, legs⟩ := beginReadTurn_turns active
  let u : State := { t with rd.start := none, mo := mo }
  have calm : Calm u := still.congr rfl rfl rfl rfl still.awake (by exact fun both => nomatch turn.symm.trans both.2)
  have run : exec (.frameReceived id st start data) s = .next (noteTarget u) := by
    refine congrArg Host.Outcome.next ((if_pos streams).trans ?_)
    dsimp only
    have streams' : frameStream t = true := by simp [frameStream, active, mode, state]
    rw [taken, streams', whole, Bool.and_self, if_pos rfl, turns]
    have stays : drain u = u := drain_stands (s := u) stands_ (by exact fun is_ => nomatch state.symm.trans is_)
    exact (congrArg settle stays).trans calm.settle_eq
  obtain ⟨re, ch, frame⟩ := noteTarget_frame u
  refine ⟨_, run, ?_⟩
  rw [frame]
  exact ⟨goal, turn, legs, rfl, rfl, rfl, rfl⟩

end

/-- A frame of an open segment is merged into its slot (R145 case 2, R146). -/
theorem judgeFrame_open {id : FrameId} {st : FrameStatus} {p : Pos} {data : List Byte} {k : Nat} {s : State} (expected : s.rd.x ≤ id.seg)
    (inside : beyondEod s id.seg = false) (found : fetchSlot s id.seg = some k) (scan : s.rd.scan = none) :
    judgeFrame id st p data s = mergeFrame k id st p data s := by
  obtain ⟨y, rs, merged, -⟩ := mergeFrame_frame scan k id st p data
  rw [judgeFrame, if_neg (not_or.mpr ⟨by omega, by rw [inside]; decide⟩), found]
  show scanAdvance (mergeFrame k id st p data s) = _
  rw [merged, scanAdvance]
  exact if_pos (show s.rd.scan.isNone = true by rw [scan]; rfl)

/-! ### A frame that ends the stream (R147, R150, R151) -/

/-- While a piece is asked for the drain stands, and the read does not end (R153, R155). -/
theorem drain_asked {s : State} (ask : s.rd.ask.isSome = true) : drain s = s := by
  have next : drainNext s = s := if_pos (.inr (.inr (.inl ask)))
  have ends : checkDataEnd s = s := if_neg fun all => by
    rw [all.2.2.2.2.2.2.1] at ask
    exact nomatch ask
  rw [drain, next, ends]

/-- Which frame end is held is no matter for T*, nor for the activity (R20, R31). -/
theorem noteTarget_frameEnded (seg : Nat) (stop : Pos) (s : State) : (noteTarget s).frameEnded seg stop = noteTarget (s.frameEnded seg stop) := by
  rw [noteTarget_eq, noteTarget_eq]
  rfl

section
variable {id : FrameId} {st : FrameStatus} {start : Nat} {data : List Byte} {l : Layout} {s : State}

/-- A frame that makes the tape stop leaves the stream with the frame's end held. -/
theorem frameReceived_leaves {z : State} (bound : s.bp.layout = some l) (streams : frameStream s = true) (inside : beyondEod s id.seg = false)
    (judged : judgeFrame id st { pass := s.mo.pass, count := start } data (s.frameMet l) = noteTarget z) (user : z.rd.user = some .records)
    (state : z.rd.state ≠ .streaming) (stays : (drainStands z = true ∧ z.rd.state ≠ .drainingOnly) ∨ z.rd.ask.isSome = true) (still : Calm z) :
    exec (.frameReceived id st start data) s =
      .next (noteTarget (z.frameEnded id.seg { pass := s.mo.pass, count := ahead s.mo.pass start 48 })) := by
  let u := z.frameEnded id.seg { pass := s.mo.pass, count := ahead s.mo.pass start 48 }
  obtain ⟨re, ch, frame⟩ := noteTarget_frame z
  have taken : takeFrame id st start data s = noteTarget u :=
    (takeFrame_inside bound inside judged (by rw [frame]; exact user)).trans (noteTarget_frameEnded _ _ _)
  obtain ⟨re', ch', frame'⟩ := noteTarget_frame u
  have left : frameStream (noteTarget u) = false := by
    rw [frame']
    simp [frameStream, u, State.frameEnded, state]
  have stands_ : drain (noteTarget u) = noteTarget u := by
    rw [frame']
    rcases stays with ⟨stands_, other⟩ | ask
    · exact drain_stands (s := { u with re := re', ch := ch' }) stands_ other
    · exact drain_asked (s := { u with re := re', ch := ch' }) ask
  have calm : Calm u := still.congr rfl rfl rfl rfl still.awake still.elsewhere
  rw [frameReceived_settles streams taken (by rw [left, Bool.false_and]) stands_, calm.settle_noteTarget]

/-- A frame above every read segment for whose segment no slot is to be had pauses the read (R147). -/
theorem frameAbove_pauses {t : State} {p : Pos} (completes : completeAll (overdue s id.seg) s = (t, false)) (goes : goesOn t = true)
    (user : t.rd.user = some .records) (next : t.rd.next = id.seg) (may : mayOpen t = false) : frameAbove id st p data s = pauseRead p t := by
  have go : ¬((t, false).2 || !goesOn t || (decide (t.rd.user = some .splice) && !t.rd.rebuildQ.isEmpty)) = true := by simp [goes, user]
  rw [frameAbove]
  dsimp only
  rw [completes]
  refine (if_neg go).trans ?_
  rw [openUpTo_pauses next may]

end

/-! ### A segment completes (R148 to R151) -/

section
variable {k : Nat} {s : State}

theorem completeAll_one (fetching : (slotAt s k).st = .fetching) : completeAll [k] s = completeSegment k s := by
  rw [completeAll, if_pos fetching]
  generalize completeSegment k s = r
  obtain ⟨t, retried⟩ := r
  cases retried <;> rfl

/-- Of two read segments the lower completes, and the upper is the one expected (R145, R148). -/
theorem raiseX_pair {j : Nat} (pair : slotsIn isFetching s = [k, j]) (other : j ≠ k) : raiseX k s = { s with rd.x := (slotAt s j).seg } := by
  simp [raiseX, pair, other]

theorem completeSegment_whole (scan : s.rd.scan = none) (whole : (missingFrames (slotAt s k)).length = 0) :
    completeSegment k s = slotDecoded k (raiseX k s) := by
  rw [completeSegment]
  dsimp only
  rw [if_neg (by simp [scan]), if_pos whole]

theorem completeSegment_few (scan : s.rd.scan = none) (some_ : 1 ≤ (missingFrames (slotAt s k)).length) (few : (missingFrames (slotAt s k)).length ≤ 4) :
    completeSegment k s =
      (let t := joinRebuild k (setSlot k { slotAt s k with st := .rebuilding } (raiseX k s))
       if t.rd.after = some (slotAt s k).seg then drainOnly t else t, false) := by
  rw [completeSegment]
  dsimp only
  rw [if_neg (by simp [scan]), if_neg (by omega), if_pos few]

theorem completeSegment_many (scan : s.rd.scan = none) (many : 5 ≤ (missingFrames (slotAt s k)).length) :
    completeSegment k s = if s.rd.after = some (slotAt s k).seg then (afterLost k s, false)
      else if (slotAt s k).retry < 3 then (retrySegment k s, true) else (readErrorAt k s, false) := by
  rw [completeSegment]
  dsimp only
  rw [if_neg (by simp [scan]), if_neg (by omega), if_neg (by omega)]

/-- The first slot to join the rebuild is served at once (R149). -/
theorem joinRebuild_first (queue : s.rd.rebuildQ = []) : joinRebuild k s = { s with
    rd.rebuildQ := [k], rd.rebuildGot := [], bp.reqs := s.bp.reqs ++ (knownFrames (slotAt s k)).map (fun i => readOf (slotBase s k + i * 32768) 32768 .rebuildRead) } := by
  let t : State := { s with rd.rebuildQ := [k] }
  have serves : serveRebuild t = { t with
      rd.rebuildGot := [], bp.reqs := s.bp.reqs ++ (knownFrames (slotAt s k)).map (fun i => readOf (slotBase s k + i * 32768) 32768 .rebuildRead) } :=
    issueRead_foldl (n := 32768) (by decide) (fun i => slotBase s k + i * 32768) .rebuildRead _ { t with rd.rebuildGot := [] }
  rw [joinRebuild]
  dsimp only
  rw [queue]
  exact serves

/-- The stream stops for the drain alone to go on (R148, R151). -/
theorem drainOnly_stops (state : s.rd.state = .streaming) (active : s.ch.transport = .active) (mask : s.mo.mask = false) :
    drainOnly s = noteTarget (State.stopping .drainRest { s with rd.state := .drainingOnly }) := by
  rw [drainOnly, if_neg (by rw [state]; exact nofun), stopThen, planMotion, if_neg (by rw [mask]; decide)]
  exact startPlan_stop (s := { s with rd.state := .drainingOnly }) active _

/-- A read that is not streaming, or that has met no READ_ERROR, rests by itself nowhere (R151). -/
theorem restIfDone_stays (stays : s.rd.state ≠ .streaming ∨ s.rd.bad = none ∨ slotsIn isFetching s ≠ []) : restIfDone s = s := if_neg fun all => by
  obtain ⟨-, state, bad, none_⟩ := all
  rcases stays with other | none' | some_
  · exact other state
  · rw [none'] at bad
    exact nomatch bad
  · exact some_ (by simpa using none_)

end

/-! ### The first frame of the second segment above (R148) -/

/-- A frame that a reading stream meets inside the data, while a piece is asked for (R145, R154). -/
structure StreamMeets (l : Layout) (id : FrameId) (s : State) : Prop where
  still : Calm s
  noted_ : noted s = true
  scan : s.rd.scan = none
  user : s.rd.user = some .records
  bound : s.bp.layout = some l
  ask : s.rd.ask.isSome = true
  readable : s.ch.tagUnreadable = false
  mask : s.mo.mask = false
  moving : s.mo.v ≠ 0
  active : s.ch.transport = .active
  mode : s.mo.mode = some .readStream
  state : s.rd.state = .streaming
  inside : beyondEod s id.seg = false
  expected : s.rd.x ≤ id.seg

theorem StreamMeets.streams {l : Layout} {id : FrameId} {s : State} (meets : StreamMeets l id s) : frameStream s = true := by
  simp [frameStream, meets.active, meets.mode, meets.state]

theorem StreamMeets.met {l : Layout} {id : FrameId} {s : State} (meets : StreamMeets l id s) : StreamMeets l id (s.frameMet l) :=
  ⟨meets.still.congr rfl rfl rfl rfl meets.still.awake meets.still.elsewhere, meets.noted_, meets.scan, meets.user, meets.bound, meets.ask,
    meets.readable, meets.mask, meets.moving, meets.active, meets.mode, meets.state, ((seesSame_met l s).beyondEod rfl _).trans meets.inside, meets.expected⟩

/-- The read segments that the frame of a segment above completes: the one in slot j is the lowest, and none lies beyond the frame's own
(R148). -/
structure Completes (j : Nat) (id : FrameId) (s : State) : Prop where
  held : j ∈ slotsIn isFetching s
  gap : id.seg = (slotAt s j).seg + 2
  others : ∀ i ∈ slotsIn isFetching s, i ≠ j → (slotAt s i).seg + 1 = id.seg
  overdue : overdue s id.seg = [j]

section
variable {j : Nat} {id : FrameId} {l : Layout} {s : State}

theorem Completes.fetching (ends : Completes j id s) : (slotAt s j).st = .fetching := (mem_fetching.mp ends.held).2

theorem Completes.place (ends : Completes j id s) : j < s.sm.slots.length := (mem_fetching.mp ends.held).1

theorem Completes.closed (ends : Completes j id s) : fetchSlot s id.seg = none := fetchSlot_none fun i mem => by
  have gap := ends.gap
  by_cases same : i = j
  · rw [same]; omega
  · have is_ := ends.others i mem same
    omega

theorem Completes.noneAbove (ends : Completes j id s) : (slotsIn isFetching s).any (fun i => decide (id.seg < (slotAt s i).seg)) = false := by
  simp only [List.any_eq_false, decide_eq_true_eq]
  intro i mem
  have gap := ends.gap
  by_cases same : i = j
  · rw [same]; omega
  · have is_ := ends.others i mem same
    omega

theorem Completes.judged (ends : Completes j id s) (meets : StreamMeets l id s) (st : FrameStatus) (p : Pos) (data : List Byte) :
    judgeFrame id st p data s = frameAbove id st p data s := judgeFrame_above meets.expected meets.inside ends.closed ends.noneAbove p

theorem Completes.all (ends : Completes j id s) : completeAll (Machine.overdue s id.seg) s = completeSegment j s := by
  rw [ends.overdue, completeAll_one ends.fetching]

theorem overdue_records (user : s.rd.user = some .records) (m : Nat) :
    overdue s m = (slotsIn isFetching s).filter (fun k => decide ((slotAt s k).seg + 2 ≤ m)) := by
  simp [overdue, user]

theorem completes_pair {j' : Nat} (user : s.rd.user = some .records) (pair : slotsIn isFetching s = [j, j']) (upper : (slotAt s j').seg = (slotAt s j).seg + 1)
    (gap : id.seg = (slotAt s j).seg + 2) : Completes j id s := by
  refine ⟨by rw [pair]; exact List.mem_cons_self, gap, fun i mem other => ?_, ?_⟩
  · rw [pair, List.mem_cons, List.mem_singleton] at mem
    rw [mem.resolve_left other]
    omega
  · rw [overdue_records user, pair, gap]
    simp [upper]

theorem completes_alone (user : s.rd.user = some .records) (only : slotsIn isFetching s = [j]) (gap : id.seg = (slotAt s j).seg + 2) :
    Completes j id s := by
  refine ⟨by rw [only]; exact List.mem_singleton_self _, gap, fun i mem other => ?_, ?_⟩
  · rw [only, List.mem_singleton] at mem
    exact absurd mem other
  · rw [overdue_records user, only, gap]
    simp

/-- The read lives on with the completion, and the frame opens its own segment (R145 case 3). -/
theorem frameReceived_opensAbove {st : FrameStatus} {start k : Nat} {rest : List Nat} {data : List Byte} {t : State} (meets : StreamMeets l id s)
    (ends : Completes j id (s.frameMet l)) (completes : completeSegment j (s.frameMet l) = (t, false)) (frame : t = { s with
      sm.slots := t.sm.slots, bp.reqs := t.bp.reqs, rd := t.rd, he := t.he })
    (rd : (t.rd.state, t.rd.bad, t.rd.user, t.rd.scan, t.rd.ask, t.rd.next) = (s.rd.state, none, s.rd.user, s.rd.scan, s.rd.ask, id.seg))
    (closed : fetchSlot t id.seg = none) (free : s.sm.free = k :: rest) (room : (readSlots t).length < s.sp.policy.readAhead) :
    let place : Pos := { pass := s.mo.pass, count := start }
    ∃ y rs, exec (.frameReceived id st start data) s = .next (State.frameEnded id.seg { pass := s.mo.pass, count := ahead s.mo.pass start 48 }
        { t.opened k rest id place with sm.slots := t.sm.slots.set k y, bp.reqs := t.bp.reqs ++ rs }) ∧
      y.st = .fetching ∧ y.seg = id.seg ∧ y.leadIn = some (backClamped place (48 * id.idx + 3072)) := by
  intro place
  simp only [Prod.mk.injEq] at rd
  obtain ⟨state, bad, user, scan, ask, next⟩ := rd
  have user_ := user.trans meets.user
  have may : mayOpen t = true := mayOpen_room (by rw [frame]; exact free) (by rw [show t.sp = s.sp by rw [frame]]; exact room)
  obtain ⟨y, rs, merged, kind, seg, lead, missing⟩ := mergeFrame_opened (k := k) (rest := rest) (id := id) (p := place) (s := t) (scan.trans meets.scan) st data
  have judged : judgeFrame id st place data (s.frameMet l) = mergeFrame k id st place data (t.opened k rest id place) :=
    (ends.judged meets.met st place data).trans (frameAbove_opens (ends.all.trans completes) (goesOn_streams (state.trans meets.state) bad) user_
      (openUpTo_opens next may (by rw [frame]; exact free)) (scan.trans meets.scan))
  refine ⟨y, rs, ?_, kind, seg, lead⟩
  rw [← merged]
  have calm_ : calm s = true := (calm_iff s).mpr ⟨meets.still, meets.noted_⟩
  refine frameReceived_inside calm_ meets.bound meets.streams meets.inside judged ?_ ?_ ?_ ?_ ?_ ?_ ?_ ?_ ?_ ?_ ?_
  · rw [merged]; exact user_
  · exact opened_misses closed (by rw [merged]; rfl) missing
  · rw [merged]
    have asks : t.rd.ask.isSome = true := by rw [ask]; exact meets.ask
    exact Bool.or_eq_true_iff.mpr (.inl (Bool.or_eq_true_iff.mpr (.inl asks)))
  · rw [merged]; exact state.trans meets.state
  all_goals rw [merged, frame]; rfl

/-- The completion makes the tape stop (R150, R151). -/
theorem frameReceived_stopsAbove {st : FrameStatus} {start : Nat} {data : List Byte} {z : State} {b : Bool} (meets : StreamMeets l id s)
    (ends : Completes j id (s.frameMet l)) (completes : completeSegment j (s.frameMet l) = (noteTarget z, b))
    (user : z.rd.user = some .records) (state : z.rd.state ≠ .streaming) (ask : z.rd.ask.isSome = true) (still : Calm z) :
    exec (.frameReceived id st start data) s =
      .next (noteTarget (z.frameEnded id.seg { pass := s.mo.pass, count := ahead s.mo.pass start 48 })) := by
  obtain ⟨re, ch, frame⟩ := noteTarget_frame z
  have left : goesOn (noteTarget z) = false := by
    rw [frame]
    simp [goesOn, state]
  have rests : restIfDone (noteTarget z) = noteTarget z := restIfDone_stays (.inl (by rw [frame]; exact state))
  refine frameReceived_leaves meets.bound meets.streams meets.inside ?_ user state (.inr ask) still
  rw [ends.judged meets.met, frameAbove_stops (ends.all.trans completes) (by rw [left]; exact Bool.or_true b), rests]

end

/-! ### The ways a segment of READ_RECORDS completes (R148 to R151, R156) -/

section
variable {j : Nat} {id : FrameId} {l : Layout} {s : State}

theorem takeDecoded_records {k : Nat} (used : (slotAt s k).st ≠ .free) (readable : s.ch.tagUnreadable = false) (user : s.rd.user = some .records)
    (after : s.rd.after ≠ some (slotAt s k).seg) :
    takeDecoded k s = { s with sm.slots := s.sm.slots.set k { slotAt s k with st := .decoded } } := by
  rw [takeDecoded, setSlot_used used (by exact nofun), settleEod_readable (by exact readable)]
  rw [user]
  exact if_neg after

/-- Whole, the segment is DECODED (R149). -/
theorem completeSegment_decodes (meets : StreamMeets l id s) (ends : Completes j id s) (whole : (missingFrames (slotAt s j)).length = 0)
    (good : trailerGood (slotTrailer s j) (slotAt s j).seg = true) (after : s.rd.after = none) {x : Nat} (raises : raiseX j s = { s with rd.x := x }) :
    completeSegment j s = ({ s with
      rd.x := x, bp.reqs := s.bp.reqs ++ [readOf (slotBase s j + 917440) 64 .plain],
      sm.slots := s.sm.slots.set j { slotAt s j with st := .decoded } }, false) := by
  have sees : SeesSame s { s with rd.x := x } := seesSame_of_eq rfl rfl rfl
  have used : (slotAt s j).st ≠ .free := by rw [ends.fetching]; exact nofun
  rw [completeSegment_whole meets.scan whole, raises, slotDecoded_good (by rw [sees.slotTrailer]; exact good), consultSlot, consult_internal (by decide),
    takeDecoded_records (by exact used) (by exact meets.readable) (by exact meets.user) (by rw [show ({ s with rd.x := x } : State).rd.after = none from after]; exact nofun)]
  rfl

/-- With 1 to 4 frames MISSING it is to be rebuilt, and the rebuild serves it (R149). -/
theorem completeSegment_rebuilds (meets : StreamMeets l id s) (ends : Completes j id s) (some_ : 1 ≤ (missingFrames (slotAt s j)).length)
    (few : (missingFrames (slotAt s j)).length ≤ 4) (queue : s.rd.rebuildQ = []) {x : Nat} (raises : raiseX j s = { s with rd.x := x }) :
    completeSegment j s =
      (let t : State := { s with
         rd.x := x, rd.rebuildQ := [j], rd.rebuildGot := [],
         bp.reqs := s.bp.reqs ++ (knownFrames (slotAt s j)).map (fun i => readOf (slotBase s j + i * 32768) 32768 .rebuildRead),
         sm.slots := s.sm.slots.set j { slotAt s j with st := .rebuilding } }
       if t.rd.after = some (slotAt s j).seg then drainOnly t else t, false) := by
  have used : (slotAt s j).st ≠ .free := by rw [ends.fetching]; exact nofun
  rw [completeSegment_few meets.scan some_ few, raises]
  have set_ : setSlot j { slotAt s j with st := .rebuilding } { s with rd.x := x } =
      { s with rd.x := x, sm.slots := s.sm.slots.set j { slotAt s j with st := .rebuilding } } := setSlot_used (s := { s with rd.x := x }) used nofun
  have slot : slotAt { s with rd.x := x, sm.slots := s.sm.slots.set j { slotAt s j with st := .rebuilding } } j = { slotAt s j with st := .rebuilding } :=
    slotAt_set_self (s := s) rfl ends.place
  rw [set_, joinRebuild_first (by exact queue), slot]
  rfl

/-- The stream has stopped for a retry from the lead-in point (R150). -/
def State.retrying (j : Nat) (s : State) : State :=
  let lead := (slotAt s j).leadIn.getD bot
  { State.stopping .readRetry { s with
      sm.slots := s.sm.slots.set j { slotAt s j with retry := (slotAt s j).retry + 1 }, he.tally := tallyEvent .readRetry s.he.tally,
      rd.state := .retrying, rd.resume := some lead, rd.dataEnd := false, rd.blank := 0 } with
    mo.legs := [stopLeg .ramp, moveLeg .backhitch (standing lead) 102] }

/-- With more frames MISSING, a segment tried less than three times is tried again (R150). -/
theorem completeSegment_retries (meets : StreamMeets l id s) (ends : Completes j id s) (many : 5 ≤ (missingFrames (slotAt s j)).length)
    (after : s.rd.after = none) (left : (slotAt s j).retry < 3) (counts : unmonitored .readRetry s = true) :
    completeSegment j s = (noteTarget (s.retrying j), true) := by
  have used : (slotAt s j).st ≠ .free := by rw [ends.fetching]; exact nofun
  let u : State := { s with sm.slots := s.sm.slots.set j { slotAt s j with st := .fetching, retry := (slotAt s j).retry + 1 } }
  have same : ({ slotAt s j with st := .fetching, retry := (slotAt s j).retry + 1 } : Slot) = { slotAt s j with retry := (slotAt s j).retry + 1 } := by
    rw [← ends.fetching]
  have set_ : setSlot j { slotAt s j with st := .fetching, retry := (slotAt s j).retry + 1 } s = u := setSlot_used used nofun
  have told : event .readRetry u = { u with he.tally := tallyEvent .readRetry s.he.tally } := event_unmonitored (s := u) counts nofun
  rw [completeSegment_many meets.scan many, if_neg (by rw [after]; exact nofun), if_pos left, retrySegment]
  dsimp only
  rw [set_, told]
  refine congrArg (fun t => (t, true)) ((backhitchTo_moving (s := { u with
    he.tally := tallyEvent .readRetry s.he.tally, rd.state := .retrying, rd.resume := some ((slotAt s j).leadIn.getD bot), rd.dataEnd := false, rd.blank := 0 })
    meets.active meets.mask meets.moving _ _).trans ?_)
  simp only [u, same]
  rfl

/-- The segment awaited behind a READ_ERROR is lost, and the stream stops (R156). -/
theorem completeSegment_loses (meets : StreamMeets l id s) (ends : Completes j id s) (many : 5 ≤ (missingFrames (slotAt s j)).length)
    (after : s.rd.after = some (slotAt s j).seg) {x : Nat} (raises : raiseX j s = { s with rd.x := x }) :
    completeSegment j s = (noteTarget (State.stopping .drainRest { s with
      rd.x := x, rd.after := none, rd.past := none, sm.slots := s.sm.slots.set j (freshSlot .free 0), sm.free := s.sm.free ++ [j],
      rd.state := .drainingOnly }), false) := by
  have used : (slotAt s j).st ≠ .free := by rw [ends.fetching]; exact nofun
  rw [completeSegment_many meets.scan many, if_pos after, afterLost, raises,
    freeSlot_used (s := { s with rd.x := x, rd.after := none, rd.past := none }) used]
  exact congrArg (fun t => (t, false)) (drainOnly_stops (s := { s with
    rd.x := x, rd.after := none, rd.past := none, sm.slots := s.sm.slots.set j (freshSlot .free 0), sm.free := s.sm.free ++ [j] })
    meets.state meets.active meets.mask)

/-- The segment awaited behind a READ_ERROR is whole: its first entry gives the position past the error, and the stream stops (R156). -/
theorem completeSegment_passes (meets : StreamMeets l id s) (ends : Completes j id s) (whole : (missingFrames (slotAt s j)).length = 0)
    (good : trailerGood (slotTrailer s j) (slotAt s j).seg = true) (after : s.rd.after = some (slotAt s j).seg) {x : Nat}
    (raises : raiseX j s = { s with rd.x := x }) :
    completeSegment j s = (noteTarget (State.stopping .drainRest { s with
      rd.x := x, rd.after := none, rd.past := some (if (slotEntry s j 0).first then (slotEntry s j 0).num else inc32 (slotEntry s j 0).num),
      bp.reqs := s.bp.reqs ++ [readOf (slotBase s j + 917440) 64 .plain] ++ [readOf (slotBase s j + entryAt 0) 16 .plain],
      sm.slots := s.sm.slots.set j (freshSlot .free 0), sm.free := s.sm.free ++ [j], rd.state := .drainingOnly }), false) := by
  have used : (slotAt s j).st ≠ .free := by rw [ends.fetching]; exact nofun
  let u : State := { s with
    rd.x := x, bp.reqs := s.bp.reqs ++ [readOf (slotBase s j + 917440) 64 .plain], sm.slots := s.sm.slots.set j { slotAt s j with st := .decoded } }
  have sees : SeesSame s { s with rd.x := x } := seesSame_of_eq rfl rfl rfl
  have seesU : SeesSame s u := seesSame_reads rfl rfl rfl (by simp [readOf])
  have slot : slotAt u j = { slotAt s j with st := .decoded } := slotAt_set_self (s := s) rfl ends.place
  have taken : takeDecoded j { s with rd.x := x, bp.reqs := s.bp.reqs ++ [readOf (slotBase s j + 917440) 64 .plain] } = afterDecoded j u := by
    rw [takeDecoded, setSlot_used (by exact used) (by exact nofun), settleEod_readable (by exact meets.readable)]
    rw [show ({ s with rd.x := x, bp.reqs := s.bp.reqs ++ [readOf (slotBase s j + 917440) 64 .plain] } : State).rd.user = some .records from meets.user]
    exact if_pos after
  have decoded : afterDecoded j u = noteTarget (State.stopping .drainRest { s with
      rd.x := x, rd.after := none, rd.past := some (if (slotEntry s j 0).first then (slotEntry s j 0).num else inc32 (slotEntry s j 0).num),
      bp.reqs := s.bp.reqs ++ [readOf (slotBase s j + 917440) 64 .plain] ++ [readOf (slotBase s j + entryAt 0) 16 .plain],
      sm.slots := s.sm.slots.set j (freshSlot .free 0), sm.free := s.sm.free ++ [j], rd.state := .drainingOnly }) := by
    rw [afterDecoded, seesU.slotEntry]
    dsimp only
    rw [consultSlot, consult_internal (by decide), freeSlot_used (by rw [slotAt_congr (s := u) (by rfl), slot]; exact nofun)]
    dsimp only
    rw [show u.sm.slots.set j (freshSlot .free 0) = s.sm.slots.set j (freshSlot .free 0) from List.set_set _]
    exact drainOnly_stops (s := { s with
      rd.x := x, rd.after := none, rd.past := some (if (slotEntry s j 0).first then (slotEntry s j 0).num else inc32 (slotEntry s j 0).num),
      bp.reqs := s.bp.reqs ++ [readOf (slotBase s j + 917440) 64 .plain] ++ [readOf (slotBase s j + entryAt 0) 16 .plain],
      sm.slots := s.sm.slots.set j (freshSlot .free 0), sm.free := s.sm.free ++ [j] }) meets.state meets.active meets.mask
  rw [completeSegment_whole meets.scan whole, raises, slotDecoded_good (by rw [sees.slotTrailer]; exact good), consultSlot, consult_internal (by decide)]
  exact congrArg (fun t => (t, false)) (taken.trans decoded)

end

/-! ### A segment ends in READ_ERROR (R151) -/

theorem leaveRebuild_idle {gone : Nat → Bool} {s : State} (queue : s.rd.rebuildQ = []) : leaveRebuild gone s = s := by
  have same : ({ s with rd.rebuildQ := s.rd.rebuildQ.filter (fun j => !gone j) } : State) = s := by rw [queue, List.filter_nil, ← queue]
  rw [leaveRebuild, same, queue]
  rfl

/-- The one other read segment is found where the lower of two has been freed. -/
theorem fetching_freed {j j' : Nat} {s t : State} (pair : slotsIn isFetching s = [j, j']) (other : j' ≠ j)
    (slots : t.sm.slots = s.sm.slots.set j (freshSlot .free 0)) :
    (∀ i ∈ slotsIn isFetching t, i = j') ∧ fetchSlot t (slotAt s j').seg = some j' := by
  have ours : j' ∈ slotsIn isFetching s := by rw [pair]; simp
  have length : t.sm.slots.length = s.sm.slots.length := by rw [slots, List.length_set]
  have only : ∀ i ∈ slotsIn isFetching t, i = j' := fun i mem => by
    obtain ⟨place, kind⟩ := mem_fetching.mp mem
    rw [length] at place
    by_cases same : i = j
    · subst same
      rw [slotAt_set_self slots place] at kind
      exact nomatch kind
    · rw [slotAt_set_other slots same] at kind
      have held : i ∈ slotsIn isFetching s := mem_fetching.mpr ⟨place, kind⟩
      rw [pair, List.mem_cons, List.mem_singleton] at held
      exact held.resolve_left same
  have slot : slotAt t j' = slotAt s j' := slotAt_set_other slots other
  have held : j' ∈ slotsIn isFetching t := mem_fetching.mpr ⟨by rw [length]; exact (mem_fetching.mp ours).1, by rw [slot]; exact (mem_fetching.mp ours).2⟩
  refine ⟨only, ?_⟩
  cases found : fetchSlot t (slotAt s j').seg with
  | none =>
    have none_ := List.find?_eq_none.mp found j' held
    simp [slot] at none_
  | some i => rw [only i (fetchSlot_some found).1]

section
variable {j j' : Nat} {id : FrameId} {l : Layout} {s : State}

/-- The segment in slot j has ended in READ_ERROR, and the one above it is awaited (R151). -/
def State.readFailed (j j' : Nat) (s : State) : State := { s with
  he.tally := tallyEvent .readError s.he.tally, rd.x := (slotAt s j').seg, rd.bad := some (slotAt s j).seg, rd.past := none,
  rd.after := some ((slotAt s j).seg + 1), sm.slots := s.sm.slots.set j (freshSlot .free 0), sm.free := s.sm.free ++ [j] }

/-- A segment tried three times ends in READ_ERROR (R151). -/
theorem completeSegment_fails (meets : StreamMeets l id s) (ends : Completes j id s) (many : 5 ≤ (missingFrames (slotAt s j)).length)
    (after : s.rd.after = none) (tried : 3 ≤ (slotAt s j).retry) (counts : unmonitored .readError s = true) (pair : slotsIn isFetching s = [j, j'])
    (upper : (slotAt s j').seg = (slotAt s j).seg + 1) (queue : s.rd.rebuildQ = []) (data : s.rd.dataEnd = false) :
    completeSegment j s = (s.readFailed j j', false) := by
  have other : j' ≠ j := fun same => by rw [same] at upper; omega
  have used : (slotAt s j).st ≠ .free := by rw [ends.fetching]; exact nofun
  have told : event .readError s = { s with he.tally := tallyEvent .readError s.he.tally } := event_unmonitored counts nofun
  have raises : raiseX j { s with he.tally := tallyEvent .readError s.he.tally } =
      { s with he.tally := tallyEvent .readError s.he.tally, rd.x := (slotAt s j').seg } :=
    raiseX_pair (s := { s with he.tally := tallyEvent .readError s.he.tally }) ((slotsIn_congr (s := s) (by rfl) _).trans pair) other
  let u : State := { s with
    he.tally := tallyEvent .readError s.he.tally, rd.x := (slotAt s j').seg, rd.bad := some (slotAt s j).seg, rd.past := none }
  let v : State := { u with sm.slots := s.sm.slots.set j (freshSlot .free 0), sm.free := s.sm.free ++ [j] }
  have frees : freeSlot j (leaveRebuild (fun i => decide (i = j)) u) = v := by rw [leaveRebuild_idle (s := u) queue, freeSlot_used (by exact used)]
  obtain ⟨only, found⟩ := fetching_freed (t := v) pair other rfl
  rw [upper] at found
  have none_ : freeAbove (slotAt s j).seg (some j') v = v := by
    have left : (slotsIn isFetching v).filter (fun i => decide ((slotAt s j).seg < (slotAt v i).seg) && decide (some i ≠ some j')) = [] :=
      List.filter_eq_nil_iff.mpr fun i mem => by simp [only i mem]
    rw [freeAbove, left]
    rfl
  rw [completeSegment_many meets.scan many, if_neg (by rw [after]; exact nofun), if_neg (by omega), readErrorAt]
  dsimp only
  rw [told, raises]
  rw [show ({ s with he.tally := tallyEvent .readError s.he.tally, rd.x := (slotAt s j').seg } : State).rd.user = some .records from meets.user]
  dsimp only
  rw [badSegment]
  dsimp only
  rw [frees, found, none_]
  exact congrArg (fun t => (t, false)) (if_pos (by rw [show v.rd.dataEnd = false from data]; rfl))

end

/-! ### What the frame leaves (R145, R148) -/

section
variable {j : Nat} {id : FrameId} {l : Layout} {s : State}

theorem raiseX_frame (k : Nat) (s : State) : ∃ x, raiseX k s = { s with rd.x := x } := ⟨_, rfl⟩

theorem readSlots_set {v : Slot} {s t : State} (slots : t.sm.slots = s.sm.slots.set j v) (place : j < s.sm.slots.length)
    (side : isReadSide v.st = isReadSide (slotAt s j).st) (seg : v.seg = (slotAt s j).seg) : readSlots t = readSlots s := by
  refine slotsIn_alike (by rw [slots, List.length_set]) (fun i => ?_) (fun i => ?_) <;> by_cases same : i = j
  · rw [same, slotAt_set_self slots place, side]
  · rw [slotAt_set_other slots same]
  · rw [same, slotAt_set_self slots place, seg]
  · rw [slotAt_set_other slots same]

theorem Completes.closed_after {v : Slot} {t : State} (ends : Completes j id s) (slots : t.sm.slots = s.sm.slots.set j v) (kind : v.st ≠ .fetching) :
    fetchSlot t id.seg = none := fetchSlot_none fun i mem => by
  obtain ⟨place, fetching⟩ := mem_fetching.mp mem
  rw [slots, List.length_set] at place
  by_cases same : i = j
  · rw [same, slotAt_set_self slots ends.place] at fetching
    exact absurd fetching kind
  · rw [slotAt_set_other slots same] at fetching ⊢
    have below := ends.others i (mem_fetching.mpr ⟨place, fetching⟩) same
    omega

/-- The segment completed stands in its slot, and the frame's own is open in the slot taken (R145, R147, R148). -/
theorem frameReceived_opens {st : FrameStatus} {start k : Nat} {rest : List Nat} {data : List Byte} {t : State} {v : Slot} (meets : StreamMeets l id s)
    (ends : Completes j id (s.frameMet l)) (completes : completeSegment j (s.frameMet l) = (t, false)) (frame : t = { s with
      sm.slots := t.sm.slots, bp.reqs := t.bp.reqs, rd := t.rd, he := t.he })
    (rd : (t.rd.state, t.rd.bad, t.rd.user, t.rd.scan, t.rd.ask, t.rd.next) = (s.rd.state, none, s.rd.user, s.rd.scan, s.rd.ask, id.seg))
    (slots : t.sm.slots = s.sm.slots.set j v) (kind : v.st ≠ .fetching) (side : isReadSide v.st = true) (seg : v.seg = (slotAt s j).seg)
    (free : s.sm.free = k :: rest) (few : (readSlots s).length < s.sp.policy.readAhead) (other : k ≠ j) (place_ : k < s.sm.slots.length) :
    let place : Pos := { pass := s.mo.pass, count := start }
    let stop : Pos := { pass := s.mo.pass, count := ahead s.mo.pass start 48 }
    ∃ u, exec (.frameReceived id st start data) s = .next u ∧ slotAt u j = v ∧ u.rd.x = t.rd.x ∧ u.sm.free = rest ∧
      (slotAt u k).st = .fetching ∧ (slotAt u k).seg = id.seg ∧ (slotAt u k).leadIn = some (backClamped place (48 * id.idx + 3072)) ∧
      u.rd.next = id.seg + 1 ∧ u.rd.state = .streaming ∧ u.rd.lastEnd = some stop ∧ u.rd.lowEnd = some stop ∧ u.mem = s.mem ∧
      u.rd.rebuildQ = t.rd.rebuildQ ∧ u.rd.rebuildGot = t.rd.rebuildGot ∧ t.bp.reqs <+: u.bp.reqs := by
  intro place stop
  have readSide : isReadSide v.st = isReadSide (slotAt s j).st := by rw [side, show (slotAt s j).st = .fetching from ends.fetching]; rfl
  have room : (readSlots t).length < s.sp.policy.readAhead := by rw [readSlots_set slots ends.place readSide seg]; exact few
  obtain ⟨y, rs, ran, fetching, own, lead⟩ := frameReceived_opensAbove (st := st) (start := start) (data := data) meets ends completes frame rd
    (ends.closed_after (s := s.frameMet l) slots kind) free room
  let u : State := State.frameEnded id.seg stop { t.opened k rest id place with sm.slots := t.sm.slots.set k y, bp.reqs := t.bp.reqs ++ rs }
  have slotJ : slotAt u j = v := (slotAt_set_other (s := t) (t := u) rfl other.symm).trans (slotAt_set_self slots ends.place)
  have slotK : slotAt u k = y := slotAt_set_self (s := t) (t := u) rfl (by rw [slots, List.length_set]; exact place_)
  have state : t.rd.state = .streaming := (congrArg Prod.fst rd).trans meets.state
  have mem : t.mem = s.mem := by rw [frame]
  refine ⟨u, ran, slotJ, rfl, rfl, by rw [slotK]; exact fetching, by rw [slotK]; exact own, by rw [slotK]; exact lead, rfl, state, rfl, ?_, mem, rfl, rfl,
    List.prefix_append _ _⟩
  exact if_pos (Nat.lt_succ_self _)

end

/-- Settles O49: a frame is ignored, merged, or opens its segment; the first of the second segment above completes the lowest read segment,
which lets the stream go on or stops it (R145 to R151, R156). -/
theorem frameReceivedJudged : Obligations.FrameReceivedJudged := by
  intro id st start j j' k rest data l s calm_ scan user bound met place stop ended merged streams goes room next slot
  obtain ⟨still, noted_⟩ := (calm_iff s).mp calm_
  have sees : SeesSame s met := seesSame_met l s
  have stream (streams_ : frameStream s = true) : s.ch.transport = .active ∧ s.mo.mode = some .readStream ∧ s.rd.state = .streaming := by
    simp only [frameStream, Bool.and_eq_true, decide_eq_true_eq, and_assoc] at streams_
    exact streams_
  have inside (m : Nat) (streams_ : beyondEod s m = false) : beyondEod met m = false := by rw [sees.beyondEod rfl]; exact streams_
  have anyMet : (slotsIn isFetching met).any (fun i => decide (id.seg < (slotAt met i).seg)) =
      (slotsIn isFetching s).any (fun i => decide (id.seg < (slotAt s i).seg)) := by rw [slotsIn_congr (s := s) (t := met) rfl]; rfl
  have roomMet (few : (readSlots s).length < s.sp.policy.readAhead) : (readSlots met).length < met.sp.policy.readAhead := by
    rw [readSlots_congr (s := s) (t := met) rfl]; exact few
  have fullMet (full : s.sm.free = [] ∨ s.sp.policy.readAhead ≤ (readSlots s).length) :
      met.sm.free = [] ∨ met.sp.policy.readAhead ≤ (readSlots met).length := by
    rw [readSlots_congr (s := s) (t := met) rfl]; exact full
  have noneAbove (below : (slotsIn isFetching s).all (fun i => decide ((slotAt s i).seg + 1 = id.seg)) = true) :
      (slotsIn isFetching s).any (fun i => decide (id.seg < (slotAt s i).seg)) = false := by
    simp only [List.all_eq_true, decide_eq_true_eq] at below
    simp only [List.any_eq_false, decide_eq_true_eq]
    exact fun i mem => by have is_ := below i mem; omega
  have noneOverdue (below : (slotsIn isFetching s).all (fun i => decide ((slotAt s i).seg + 1 = id.seg)) = true) :
      completeAll (overdue met id.seg) met = (met, false) := by
    have none_ : overdue met id.seg = [] := by
      rw [overdue, slotsIn_congr (s := s) (t := met) rfl, List.filter_eq_nil_iff]
      simp only [List.all_eq_true, decide_eq_true_eq] at below
      intro i mem
      have is_ := below i mem
      simp [show met.rd.user = some .records from user, show slotAt met i = slotAt s i from rfl]
      omega
    rw [none_]
    rfl
  refine ⟨fun off => congrArg Host.Outcome.next (if_neg (by rw [off]; decide)), fun stands_ => ⟨?_, ?_, ?_, ?_, ?_⟩, ?_⟩
  · exact fun streams_ beyond => frameReceived_beyond calm_ bound stands_ streams_ beyond
  · rintro ⟨streams_, beyond⟩ straight ignored
    have judged : judgeFrame id st place data met = met := by
      rcases ignored with below | ⟨closed, above⟩
      · exact if_pos (.inl below)
      · by_cases below : id.seg < met.rd.x
        · exact if_pos (.inl below)
        · have open_ : ¬(id.seg < met.rd.x ∨ beyondEod met id.seg = true) := not_or.mpr ⟨below, by rw [inside _ beyond]; decide⟩
          rw [judgeFrame, if_neg open_, fetchSlot_congr (s := s) (t := met) rfl, closed]
          exact if_pos (anyMet.trans above)
    refine frameReceived_inside calm_ bound streams_ beyond judged user ?_ stands_ (stream streams_).2.2 rfl rfl rfl rfl rfl rfl rfl
    rw [← straight]
    exact SeesSame.passRead (s := s) (t := met.frameEnded id.seg stop) ⟨sees.layout, sees.byte⟩ rfl rfl rfl _
  · rintro ⟨streams_, beyond⟩ expected found
    obtain ⟨active, mode, state⟩ := stream streams_
    have found_ : fetchSlot met id.seg = some k := (fetchSlot_congr (s := s) (t := met) rfl _).trans found
    have judged : judgeFrame id st place data met = mergeFrame k id st place data met := judgeFrame_open expected (inside _ beyond) found_ scan
    have fetching : (slotAt met k).st = .fetching := (mem_fetching.mp (fetchSlot_some found_).1).2
    obtain ⟨y, rs, frame, alike⟩ := mergeFrame_frame (s := met) scan k id st place data
    rw [if_neg (by rw [fetching]; exact nofun)] at frame
    have stands' : drainStands (mergeFrame k id st place data met) = true := by
      rw [frame]
      exact drainStands_set (s := s) (y := y) stands_ rfl rfl (by rw [alike.st, fetching]; exact nofun)
    let u : State := ended (mergeFrame k id st place data met)
    refine ⟨fun straight => ?_, fun whole => ?_⟩
    · refine frameReceived_inside calm_ bound streams_ beyond judged ?_ straight stands' ?_ ?_ ?_ ?_ ?_ ?_ ?_ ?_ <;> rw [frame] <;> assumption
    · have taken : takeFrame id st start data s = u := takeFrame_inside bound beyond judged (by rw [frame]; exact user)
      have u_ : u = ended { met with sm.slots := met.sm.slots.set k y, bp.reqs := met.bp.reqs ++ rs } := congrArg ended frame
      have mo : u.mo = s.mo := by rw [u_]
      obtain ⟨v, ran, goal, turn, legs, sm, bp, rd, mem⟩ := frameReceived_turns (t := u)
        (by rw [u_]; exact still.congr rfl rfl rfl rfl still.awake still.elsewhere) streams_ taken (by rw [u_]; exact streams_) whole stands'
      rw [mo] at legs
      exact ⟨v, ran, goal, turn, legs, sm, bp, rd, mem.trans (by rw [u_])⟩
  · rintro ⟨⟨streams_, beyond⟩, expected, bad⟩ ⟨next_, below⟩ closed ⟨free, few⟩
    obtain ⟨active, mode, state⟩ := stream streams_
    have judged : judgeFrame id st place data met = mergeFrame k id st place data (met.opened k rest id place) :=
      (judgeFrame_above (s := met) expected (inside _ beyond) ((fetchSlot_congr (s := s) (t := met) rfl _).trans closed) (anyMet.trans (noneAbove below)) place).trans
        (frameAbove_opens (s := met) (noneOverdue below) (goesOn_streams (s := met) state bad) user (openUpTo_opens (s := met) next_ (mayOpen_room (s := met) free (roomMet few)) free) scan)
    obtain ⟨y, rs, frame, kind, seg, lead, missing⟩ := mergeFrame_opened (k := k) (rest := rest) (id := id) (p := place) (s := met) scan st data
    have closed_ : fetchSlot met id.seg = none := (fetchSlot_congr (s := s) (t := met) rfl _).trans closed
    refine frameReceived_inside (t := mergeFrame k id st place data (met.opened k rest id place)) calm_ bound streams_ beyond judged ?_ ?_ ?_ ?_ ?_ ?_ ?_ ?_ ?_ ?_ ?_
    · rw [frame]; exact user
    · exact opened_misses closed_ (by rw [frame]; rfl) missing
    · rw [frame]
      exact drainStands_set (s := s) (y := y) stands_ rfl rfl (by rw [kind]; exact nofun)
    · rw [frame]; exact state
    all_goals rw [frame]; rfl
  · rintro ⟨⟨streams_, beyond⟩, expected, bad⟩ ⟨next_, below⟩ closed full mask moving
    obtain ⟨active, mode, state⟩ := stream streams_
    let z : State := { ({ met with rd.state := .paused, rd.resume := some place } : State).stopping .readPaused with
      mo.legs := [stopLeg .ramp, moveLeg .backhitch (standing place) 102] }
    have judged : judgeFrame id st place data met = noteTarget z :=
      (judgeFrame_above (s := met) expected (inside _ beyond) ((fetchSlot_congr (s := s) (t := met) rfl _).trans closed) (anyMet.trans (noneAbove below)) place).trans
        ((frameAbove_pauses (s := met) (noneOverdue below) (goesOn_streams (s := met) state bad) user next_ (mayOpen_full (s := met) user (fullMet full))).trans
          (backhitchTo_moving (s := { met with rd.state := .paused, rd.resume := some place }) active mask moving place .readPaused))
    have calm : Calm z := still.congr rfl rfl rfl rfl still.awake (fun both => nomatch both.2)
    refine ⟨_, frameReceived_leaves bound streams_ beyond judged user nofun (.inl ⟨stands_, nofun⟩) calm, ?_⟩
    obtain ⟨re, ch, frame⟩ := noteTarget_frame (z.frameEnded id.seg stop)
    rw [frame]
    refine ⟨rfl, rfl, rfl, if_neg ?_, rfl, rfl, rfl, rfl, rfl, rfl, rfl, rfl⟩
    rw [show z.rd.next = id.seg from next_]
    exact Nat.lt_irrefl _
  · intro ask readable mask moving x n above opened awaited drains
    have meets (streams_ : streams) (expected : s.rd.x ≤ id.seg) : StreamMeets l id s :=
      ⟨still, noted_, scan, user, bound, ask, readable, mask, moving, (stream streams_.1).1, (stream streams_.1).2.1, (stream streams_.1).2.2, streams_.2, expected⟩
    have fetching : slotsIn isFetching met = slotsIn isFetching s := slotsIn_congr (s := s) (t := met) rfl _
    have pair (above_ : above) : Completes j id met := completes_pair (s := met) user (fetching.trans above_.1) above_.2.1 above_.2.2.1
    have alone (awaited_ : awaited) : Completes j id met := completes_alone (s := met) user (fetching.trans awaited_.1) awaited_.2.1
    have raised (above_ : above) : raiseX j met = { met with rd.x := x.seg + 1 } := by
      obtain ⟨pair_, upper, -⟩ := above_
      have other : j' ≠ j := fun same => by rw [same] at upper; exact absurd upper (Nat.ne_of_lt (Nat.lt_succ_self _))
      rw [raiseX_pair (s := met) (fetching.trans pair_) other, show slotAt met j' = slotAt s j' from rfl, upper]
    have goodMet (good : trailerGood (slotTrailer s j) x.seg = true) : trailerGood (slotTrailer met j) (slotAt met j).seg = true := by
      rw [sees.slotTrailer]; exact good
    obtain ⟨raisedTo, raises⟩ := raiseX_frame j met
    refine ⟨?_, ?_, ?_, ?_, ?_, ?_, ?_⟩
    · rintro ⟨streams_, expected, bad⟩ above_ ⟨free, few⟩ notJ notJ' place_ whole good
      have ⟨pair_, upper, gap, next_, after, queue, kind_⟩ := above_
      have on := meets streams_ expected
      have completes := completeSegment_decodes (s := met) on.met (pair above_) whole (goodMet good) after (raised above_)
      obtain ⟨u, ran, slot, x_, free_, kind, seg, lead, next', state_, last, low, mem, queue_, -, -⟩ :=
        frameReceived_opens (v := { x with st := .decoded }) (st := st) (start := start) (data := data) on (pair above_) completes rfl
          (by rw [← next_, ← bad]) rfl nofun rfl rfl free few notJ place_
      exact ⟨u, ⟨ran, by rw [slot], by rw [slot], x_, free_, kind, seg, lead, next', state_, last, low, mem⟩, queue_.trans queue⟩
    · rintro ⟨streams_, expected, bad⟩ above_ ⟨free, few⟩ notJ notJ' place_ some_ few_
      have ⟨pair_, upper, gap, next_, after, queue, kind_⟩ := above_
      have on := meets streams_ expected
      have completes := (completeSegment_rebuilds (s := met) on.met (pair above_) some_ few_ queue (raised above_)).trans
        (congrArg (fun t => (t, false)) (if_neg (by rw [show met.rd.after = none from after]; exact nofun)))
      obtain ⟨u, ran, slot, x_, free_, kind, seg, lead, next', state_, last, low, mem, queue_, got, reqs⟩ :=
        frameReceived_opens (v := { x with st := .rebuilding }) (st := st) (start := start) (data := data) on (pair above_) completes rfl
          (by rw [← next_, ← bad]) rfl nofun rfl rfl free few notJ place_
      exact ⟨u, ⟨ran, by rw [slot], by rw [slot], x_, free_, kind, seg, lead, next', state_, last, low, mem⟩, queue_, got, reqs⟩
    · rintro ⟨streams_, expected, bad⟩ above_ many left counts lead
      have ⟨pair_, upper, gap, next_, after, queue, kind_⟩ := above_
      have on := meets streams_ expected
      have completes := completeSegment_retries (s := met) on.met (pair above_) many after left counts
      have calm : Calm (met.retrying j) := still.congr rfl rfl rfl rfl still.awake (fun both => nomatch both.2)
      refine ⟨_, frameReceived_stopsAbove on (pair above_) completes user nofun ask calm, ?_⟩
      obtain ⟨re, ch, frame⟩ := noteTarget_frame ((met.retrying j).frameEnded id.seg stop)
      rw [frame]
      exact ⟨slotAt_set_self (s := s) rfl (pair above_).place, rfl, rfl, rfl, rfl, rfl, rfl, rfl, rfl, rfl, rfl, rfl, rfl⟩
    · rintro ⟨streams_, expected, bad⟩ above_ many tried apart_ data_ counts
      have ⟨pair_, upper, gap, next_, after, queue, kind_⟩ := above_
      have on := meets streams_ expected
      have completes := completeSegment_fails (s := met) on.met (pair above_) many after tried counts (fetching.trans pair_) upper queue data_
      let t : State := met.readFailed j j'
      obtain ⟨only, found⟩ := fetching_freed (s := s) (t := t) pair_ (Ne.symm apart_) rfl
      have slot : slotAt t j' = slotAt s j' := slotAt_set_other (s := s) (t := t) rfl (Ne.symm apart_)
      have judged : judgeFrame id st place data met = t := by
        rw [(pair above_).judged on.met, frameAbove_stops ((pair above_).all.trans completes) (by simp [goesOn, State.readFailed])]
        exact restIfDone_stays (.inr (.inr fun none_ => by
          have held := (fetchSlot_some found).1
          rw [none_] at held
          exact List.not_mem_nil held))
      have elsewhere : passRead id.seg (t.frameEnded id.seg stop) = false := passRead_missing fun i is_ => by
        obtain ⟨held, seg⟩ := fetchSlot_some is_
        have i_ : i = j' := only i (by rw [← slotsIn_congr (s := t) (t := t.frameEnded id.seg stop) rfl]; exact held)
        rw [i_, show slotAt (t.frameEnded id.seg stop) j' = slotAt t j' from rfl, slot, upper, gap] at seg
        omega
      refine ⟨_, frameReceived_inside calm_ bound streams_.1 streams_.2 judged user elsewhere ?_ on.state rfl rfl rfl rfl rfl rfl rfl, ?_⟩
      · exact Bool.or_eq_true_iff.mpr (.inl (Bool.or_eq_true_iff.mpr (.inl ask)))
      · have freed : (slotAt t j).st = .free := congrArg Slot.st (slotAt_set_self (s := s) (t := t) rfl (pair above_).place)
        have held : (slotAt t j').st = .fetching := (mem_fetching.mp (fetchSlot_some found).1).2
        exact ⟨rfl, rfl, rfl, freed, rfl, held, upper, rfl, on.state, rfl, rfl, rfl⟩
    · rintro streams_ expected awaited_ whole good
      have ⟨only, gap, kind_, after, bad⟩ := awaited_
      have on := meets streams_ expected
      have completes := completeSegment_passes (s := met) on.met (alone awaited_) whole (goodMet good) after raises
      rw [sees.slotEntry] at completes
      refine ⟨_, ⟨frameReceived_stopsAbove on (alone awaited_) completes user nofun ask
        (still.congr rfl rfl rfl rfl still.awake (fun both => nomatch both.2)), ?_⟩, ?_⟩ <;> rw [noteTarget_eq]
      · exact ⟨rfl, rfl, rfl, rfl, rfl, rfl, slotAt_set_st (s := s) (v := freshSlot .free 0) rfl (alone awaited_).place rfl, rfl, rfl, rfl, rfl, rfl⟩
      · rfl
    · rintro streams_ expected awaited_ many
      have ⟨only, gap, kind_, after, bad⟩ := awaited_
      have on := meets streams_ expected
      have completes := completeSegment_loses (s := met) on.met (alone awaited_) many after raises
      refine ⟨_, ⟨frameReceived_stopsAbove on (alone awaited_) completes user nofun ask
        (still.congr rfl rfl rfl rfl still.awake (fun both => nomatch both.2)), ?_⟩, ?_⟩ <;> rw [noteTarget_eq]
      · exact ⟨rfl, rfl, rfl, rfl, rfl, rfl, slotAt_set_st (s := s) (v := freshSlot .free 0) rfl (alone awaited_).place rfl, rfl, rfl, rfl, rfl, rfl⟩
      · rfl
    · rintro streams_ expected awaited_ some_ few queue
      have ⟨only, gap, kind_, after, bad⟩ := awaited_
      have on := meets streams_ expected
      have completes := (completeSegment_rebuilds (s := met) on.met (alone awaited_) some_ few queue raises).trans
        (congrArg (fun t => (t, false)) ((if_pos after).trans (drainOnly_stops on.state on.active on.mask)))
      refine ⟨_, frameReceived_stopsAbove on (alone awaited_) completes user nofun ask
        (still.congr rfl rfl rfl rfl still.awake (fun both => nomatch both.2)), ?_⟩
      rw [noteTarget_eq]
      exact ⟨rfl, rfl, slotAt_set_st (s := s) (v := { x with st := .rebuilding }) rfl (alone awaited_).place rfl, rfl, after, rfl⟩

end Sys2Proof.Machine
end

section
/-! SUPPORT. The limits of a load's and of an unload's steps: what the entry to FAULTED keeps through the ends of the operations and the settling behind it, one lemma for each operation that it runs (R4, R7 to R11, R18). -/

namespace Sys2Proof.Machine

/-- What a transport in FAULTED keeps until it is reset: no step under way and the brake on (R4). -/
structure Down (s : State) : Prop where
  transport : s.ch.transport = .faulted
  step : s.ch.step = none
  brake : s.re.brake = true

/-- A record update that leaves the transport state, the step and the brake as they are. -/
theorem Down.upd {x : State} {mem bp ci cq ri sm wr rd ch re pw mo sp he li frees pending}
    (e : (ch.transport, ch.step, re.brake) = (x.ch.transport, x.ch.step, x.re.brake)) (h : Down x) :
    Down ⟨mem, bp, ci, cq, ri, sm, wr, rd, ch, re, pw, mo, sp, he, li, frees, pending⟩ := by
  simp only [Prod.mk.injEq] at e
  obtain ⟨transport, step, brake⟩ := e
  exact ⟨transport.trans h.transport, step.trans h.step, brake.trans h.brake⟩

theorem Down.ite {c : Prop} [Decidable c] {a b : State} (h : Down a) (k : Down b) : Down (if c then a else b) := by
  split <;> assumption

theorem foldl_down {α : Type} {f : State → α → State} (l : List α) (k : ∀ t a, Down t → Down (f t a)) {x : State} (h : Down x) :
    Down (l.foldl f x) := by
  induction l generalizing x with
  | nil => exact h
  | cons a l ih => exact ih (k x a h)

theorem setJob_down (j : JobId) (v : Job) {x : State} (h : Down x) : Down (x.setJob j v) := by
  cases j <;> exact Down.upd rfl h

/-! What may move the tape asks for ACTIVE or PARKED, and so does nothing in FAULTED. -/

theorem endWriter_down {x : State} (h : Down x) : Down (endWriter x) := by
  simpa [endWriter, h.transport] using h

theorem offerData_down {x : State} (h : Down x) : Down (offerData x) := by
  simpa [offerData, h.transport] using h

theorem checkRestart_down {x : State} (h : Down x) : Down (checkRestart x) := by
  simpa [checkRestart, h.transport] using h

theorem wakeForData_down {x : State} (h : Down x) : Down (wakeForData x) := by
  simpa [wakeForData, h.transport] using h

theorem checkExhaustion_down {x : State} (h : Down x) : Down (checkExhaustion x) := by
  simpa [checkExhaustion, h.transport] using h

theorem issueWrite_down (cls : ReqClass) (a : Nat) (bs : List Byte) (what : Purpose) {x : State} (h : Down x) :
    Down (issueWrite cls a bs what x) := by
  unfold issueWrite
  with_reducible repeat' first | exact h | fail_if_no_progress (refine Down.upd rfl ?_) | split

theorem endRecovery_down {x : State} (h : Down x) : Down (endRecovery x) := by
  unfold endRecovery emptyStack clearMarkers
  with_reducible repeat' first | exact h | apply issueWrite_down | fail_if_no_progress (refine Down.upd rfl ?_) | split

theorem holdIdle_down {x : State} (h : Down x) : Down (holdIdle x) := by
  unfold holdIdle
  with_reducible repeat' first | exact h | fail_if_no_progress (refine Down.upd rfl ?_) | split | dsimp only

theorem postAt_down (k : WaitKey) (r : Record) {x : State} (h : Down x) : Down (postAt k r x) := by
  unfold postAt cqPush
  with_reducible repeat' first | exact h | fail_if_no_progress (refine Down.upd rfl ?_) | split

theorem startAttention_down {x : State} (h : Down x) : Down (startAttention x) := by
  unfold startAttention
  with_reducible repeat' first | exact h | fail_if_no_progress (refine Down.upd rfl ?_) | split

theorem offerEvent_down (e : Ev) (n : Nat) {x : State} (h : Down x) : Down (offerEvent e x n) := by
  unfold offerEvent bumpCounter alarmCheck
  with_reducible repeat' first | exact h | apply postAt_down | fail_if_no_progress (refine Down.upd rfl ?_) | split | dsimp only

theorem offerToCounters_down (e : Ev) {x : State} (h : Down x) : Down (offerToCounters e x) :=
  foldl_down _ (fun _ n k => offerEvent_down e n k) h

theorem changeClean_down (new : CleanState) (cause : CleanCause) {x : State} (h : Down x) : Down (changeClean new cause x) := by
  unfold changeClean forceBand postNotice
  with_reducible repeat' first
    | exact h | apply postAt_down | apply startAttention_down | apply offerToCounters_down | fail_if_no_progress (refine Down.upd rfl ?_) | split
    | dsimp only

theorem cleaningFailed_down {x : State} (h : Down x) : Down (cleaningFailed x) := by
  unfold cleaningFailed
  with_reducible repeat' first | exact h | apply changeClean_down | fail_if_no_progress (refine Down.upd rfl ?_) | split

theorem noteStatus_down (st : Status) {x : State} (h : Down x) : Down (noteStatus st x) := by
  unfold noteStatus
  with_reducible repeat' first | exact h | fail_if_no_progress (refine Down.upd rfl ?_) | split

theorem issueRead_down (cls : ReqClass) (a n : Nat) (what : Purpose) {x : State} (h : Down x) : Down (issueRead cls a n what x) := by
  unfold issueRead
  with_reducible repeat' first | exact h | fail_if_no_progress (refine Down.upd rfl ?_) | split

theorem readSlot_down (k : SlotReadKind) {x : State} (h : Down x) : Down (readSlot k x) := by
  unfold readSlot
  with_reducible repeat' first | exact h | apply issueRead_down | fail_if_no_progress (refine Down.upd rfl ?_) | split

theorem endRunning_down (j : JobId) {x : State} (h : Down x) : Down (endRunning j x) := by
  unfold endRunning
  with_reducible repeat' first | exact h | apply setJob_down | apply readSlot_down | split | dsimp only

theorem postJobEnd_down (j : JobId) (r : Record) {x : State} (h : Down x) : Down (postJobEnd j r x) := by
  unfold postJobEnd cqPush
  with_reducible repeat' first | exact h | apply setJob_down | apply endRunning_down | fail_if_no_progress (refine Down.upd rfl ?_) | split

theorem complete_down (j : JobId) (st : Status) (sub : Nat) (r : Results) {x : State} (h : Down x) : Down (complete j st sub r x) := by
  unfold complete rearmAfter
  with_reducible repeat' first
    | exact h | apply noteStatus_down | apply postJobEnd_down | fail_if_no_progress (refine Down.upd rfl ?_) | split | dsimp only

theorem completeWith_down (j : JobId) (st : Status) {x : State} (h : Down x) : Down (completeWith j st x) :=
  complete_down _ _ _ _ h

theorem endTransport_down (st : Status) {x : State} (h : Down x) : Down (endTransport st x) := by
  unfold endTransport unloadDone
  with_reducible repeat' first
    | exact h | apply noteStatus_down | apply postJobEnd_down | apply complete_down | apply completeWith_down | apply startAttention_down
    | fail_if_no_progress (refine Down.upd rfl ?_) | split | dsimp only

theorem consultSlot_down (k off n : Nat) {x : State} (h : Down x) : Down (consultSlot k off n x) :=
  issueRead_down _ _ _ _ h

theorem setSlot_down (k : Nat) (v : Slot) {x : State} (h : Down x) : Down (setSlot k v x) :=
  Down.upd (x := x) rfl h

theorem closeFragment_down (k : Nat) {x : State} (h : Down x) : Down (closeFragment k x) := by
  unfold closeFragment writeEntry
  with_reducible repeat' first | exact h | apply issueWrite_down | fail_if_no_progress (refine Down.upd rfl ?_) | split

theorem sealSlot_down {x : State} (h : Down x) : Down (sealSlot x) := by
  unfold sealSlot joinParity serveParity
  with_reducible repeat' first
    | exact h | apply issueWrite_down | apply consultSlot_down | apply setSlot_down | apply issueRead_down | apply closeFragment_down
    | fail_if_no_progress (refine Down.upd rfl ?_) | split | dsimp only

theorem freeSlot_down (k : Nat) {x : State} (h : Down x) : Down (freeSlot k x) :=
  Down.upd (x := x) rfl h

theorem freeEmptyFilling_down {x : State} (h : Down x) : Down (freeEmptyFilling x) := by
  unfold freeEmptyFilling
  with_reducible repeat' first | exact h | apply freeSlot_down | fail_if_no_progress (refine Down.upd rfl ?_) | split

theorem forgetAll_down (p : Purpose) {x : State} (h : Down x) : Down (forgetAll p x) :=
  Down.upd (x := x) rfl h

theorem backToSealed_down (k : Nat) {x : State} (h : Down x) : Down (backToSealed k x) :=
  setSlot_down _ _ h

theorem allBackToSealed_down (ks : List Nat) {x : State} (h : Down x) : Down (allBackToSealed ks x) := by
  induction ks generalizing x with
  | nil => exact h
  | cons k ks ih => exact ih (backToSealed_down k h)

theorem dropWriter_down {x : State} (h : Down x) : Down (dropWriter x) :=
  Down.upd (x := x) rfl h

theorem freeSlots_down (ks : List Nat) {x : State} (h : Down x) : Down (freeSlots ks x) := by
  induction ks generalizing x with
  | nil => exact h
  | cons k ks ih => exact ih (freeSlot_down k h)

theorem sessionError_down (st : Status) {x : State} (h : Down x) : Down (sessionError st x) := by
  unfold sessionError dropOnTape postSessionError stopIntake stopWatch postNotice
  with_reducible repeat' first
    | exact h | apply sealSlot_down | apply freeEmptyFilling_down | apply forgetAll_down | apply postAt_down | apply noteStatus_down
    | apply allBackToSealed_down | apply dropWriter_down | apply freeSlots_down | fail_if_no_progress (refine Down.upd rfl ?_) | split
    | dsimp only

theorem withdrawPiece_down {x : State} (h : Down x) : Down (withdrawPiece x) := by
  unfold withdrawPiece
  with_reducible repeat' first | exact h | fail_if_no_progress (refine Down.upd rfl ?_) | split

theorem writePiece_down (a : PieceAsk) (data : List Byte) {x : State} (h : Down x) : Down (writePiece a data x) := by
  unfold writePiece writeDelivery
  with_reducible repeat' first | exact h | apply issueWrite_down | fail_if_no_progress (refine Down.upd rfl ?_) | split

theorem pieceReady_down (d : Drain) (a : PieceAsk) {x : State} (h : Down x) : Down (pieceReady d a x) := by
  unfold pieceReady
  with_reducible repeat' first | exact h | apply writePiece_down | fail_if_no_progress (refine Down.upd rfl ?_)

theorem finishFill_down (n : Nat) {x : State} (h : Down x) : Down (finishFill n x) := by
  induction n generalizing x with
  | zero => exact withdrawPiece_down h
  | succ n ih =>
    unfold finishFill
    with_reducible repeat' first
      | exact h | apply ih | apply consultSlot_down | apply pieceReady_down | apply withdrawPiece_down
      | fail_if_no_progress (refine Down.upd rfl ?_) | apply Down.ite | split | dsimp only

theorem stopDrain_down {x : State} (h : Down x) : Down (stopDrain x) := by
  unfold stopDrain
  with_reducible exact forgetAll_down _ (Down.upd rfl (finishFill_down _ h))

theorem freeReadSlots_down {x : State} (h : Down x) : Down (freeReadSlots x) := by
  unfold freeReadSlots
  with_reducible exact freeSlots_down _ (forgetAll_down _ (Down.upd rfl (stopDrain_down h)))

theorem readerIdle_down {x : State} (h : Down x) : Down (readerIdle x) :=
  Down.upd (x := x) rfl h

theorem countOut_down {x : State} (h : Down x) : Down (countOut x) := by
  unfold countOut countRecord consultHead consult
  with_reducible repeat' first | exact h | apply issueRead_down | fail_if_no_progress (refine Down.upd rfl ?_) | split

theorem failRead_down {x : State} (h : Down x) : Down (failRead x) := by
  unfold failRead
  with_reducible exact readerIdle_down (complete_down _ _ _ _ (Down.upd rfl (countOut_down (freeReadSlots_down h))))

theorem spliceEnds_down (st : Status) {x : State} (h : Down x) : Down (spliceEnds st x) := by
  unfold spliceEnds
  with_reducible repeat' first
    | exact h | apply completeWith_down | apply freeSlot_down | apply freeReadSlots_down | apply readerIdle_down
    | fail_if_no_progress (refine Down.upd rfl ?_) | split

theorem loseOperations_down {x : State} (h : Down x) : Down (loseOperations x) := by
  unfold loseOperations
  with_reducible repeat' first
    | exact h | apply completeWith_down | apply sessionError_down | apply freeReadSlots_down | apply readerIdle_down | apply failRead_down
    | apply spliceEnds_down | fail_if_no_progress (refine Down.upd rfl ?_) | split

theorem noteTarget_down {x : State} (h : Down x) : Down (noteTarget x) := by
  unfold noteTarget noteActivity
  with_reducible repeat' first | exact h | fail_if_no_progress (refine Down.upd rfl ?_) | split | dsimp only

theorem checkFlush_down {x : State} (h : Down x) : Down (checkFlush x) := by
  unfold checkFlush
  with_reducible repeat' first | exact h | apply complete_down | fail_if_no_progress (refine Down.upd rfl ?_) | split

theorem checkClose_down {x : State} (h : Down x) : Down (checkClose x) := by
  unfold checkClose closeSession stopSpeed stopIntake stopWatch
  with_reducible repeat' first
    | exact h | apply complete_down | apply freeSlots_down | apply freeEmptyFilling_down | apply forgetAll_down | apply endWriter_down
    | fail_if_no_progress (refine Down.upd rfl ?_) | split

theorem startFetch_down {x : State} (h : Down x) : Down (startFetch x) := by
  unfold startFetch
  with_reducible repeat' first | exact h | apply issueRead_down | fail_if_no_progress (refine Down.upd rfl ?_) | split

theorem advanceCursor_down (n : Nat) {x : State} (h : Down x) : Down (advanceCursor n x) :=
  Down.upd (x := x) rfl h

theorem releaseBytes_down (n : Nat) {x : State} (h : Down x) : Down (releaseBytes n x) :=
  Down.upd (x := x) rfl h

theorem takeSlot_down {x t : State} (h : Down x) (e : takeSlot x = some t) : Down t := by
  unfold takeSlot at e
  split at e
  · cases e
  · rename_i taken
    cases e
    split at taken
    · cases taken
    · unfold takeFree at taken
      split at taken <;> cases taken
      exact Down.upd (x := x) rfl h

theorem tryPlace_down {x : State} (h : Down x) : Down (tryPlace x) := by
  unfold tryPlace startPlacement startRecompress fetchChunk readStaging placeFilemark writeEntry
  with_reducible repeat' first
    | exact h | apply closeFragment_down | apply sealSlot_down | refine takeSlot_down ?_ (by assumption) | apply issueWrite_down
    | apply releaseBytes_down | apply issueRead_down | fail_if_no_progress (refine Down.upd rfl ?_) | split | dsimp only

theorem finishChunk_down {x : State} (h : Down x) : Down (finishChunk x) := by
  unfold finishChunk
  with_reducible exact tryPlace_down (Down.upd rfl h)

theorem markRecord_down (cur : Option RecordInProgress) {x : State} (h : Down x) : Down (markRecord cur x) := by
  unfold markRecord finishStop placeMarker writeEntry
  with_reducible repeat' first
    | exact h | apply issueWrite_down | apply sealSlot_down | apply freeEmptyFilling_down | refine takeSlot_down ?_ (by assumption)
    | fail_if_no_progress (refine Down.upd rfl ?_) | split

theorem parseHeader_down {x : State} (h : Down x) : Down (parseHeader x) := by
  unfold parseHeader startChunk stopSession postSessionError stopIntake stopWatch postNotice
  with_reducible repeat' first
    | exact h | apply forgetAll_down | apply postAt_down | apply noteStatus_down | apply markRecord_down | apply tryPlace_down
    | fail_if_no_progress (refine Down.upd rfl ?_) | split | dsimp only

theorem consume_down (n : Nat) (bs : List Byte) {x : State} (h : Down x) : Down (consume n bs x) := by
  induction n generalizing x bs with
  | zero => exact h
  | succ n ih =>
    unfold consume
    with_reducible repeat' first
      | exact h | apply ih | apply parseHeader_down | apply finishChunk_down | apply releaseBytes_down | apply advanceCursor_down
      | fail_if_no_progress (refine Down.upd rfl ?_) | apply Down.ite | split | dsimp only

theorem advanceFrontier_down (z : Nat) (data : List Byte) {x : State} (h : Down x) : Down (advanceFrontier z data x) := by
  have offered (bp : BufferPath) : Down (offerData { x with bp := bp }) := offerData_down (Down.upd (x := x) rfl h)
  exact Down.ite (consume_down _ _ (offered _)) (offered _)

theorem recognise_down (w : FrontWrite) {x : State} (h : Down x) : Down (recognise w x) := by
  unfold recognise consumerWord setService sequenceWord sequenceBreak bindingWord postNotice
  with_reducible repeat' first
    | exact h | apply issueRead_down | apply readSlot_down | apply postAt_down | fail_if_no_progress (refine Down.upd rfl ?_) | split
    | dsimp only

theorem takeWrite_down (w : FrontWrite) {x : State} (h : Down x) : Down (takeWrite w x) := by
  unfold takeWrite forwardWrite
  with_reducible repeat' first | exact h | apply advanceFrontier_down | apply recognise_down | fail_if_no_progress (refine Down.upd rfl ?_) | split

theorem takeBehind_down (ws : List FrontWrite) {x : State} (h : Down x) : Down (takeBehind ws x) := by
  induction ws generalizing x with
  | nil => exact h
  | cons w ws ih => exact Down.ite (Down.upd rfl h) (ih (takeWrite_down w h))

theorem releaseHeld_down (w : FrontWrite) {x : State} (h : Down x) : Down (releaseHeld w x) := by
  unfold releaseHeld
  with_reducible exact takeBehind_down _ (takeWrite_down _ (Down.upd rfl h))

theorem rejudgeHeld_down {x : State} (h : Down x) : Down (rejudgeHeld x) := by
  unfold rejudgeHeld
  with_reducible repeat' first | exact h | apply releaseHeld_down | split

theorem restartChunk_down {x : State} (h : Down x) : Down (restartChunk x) := by
  unfold restartChunk startRecompress fetchChunk readStaging
  with_reducible repeat' first
    | exact h | apply sealSlot_down | refine takeSlot_down ?_ (by assumption) | apply issueRead_down
    | fail_if_no_progress (refine Down.upd rfl ?_) | split | dsimp only

theorem requestSeal_down {x : State} (h : Down x) : Down (requestSeal x).1 := by
  unfold requestSeal
  cases x.ri.st <;> dsimp only <;> with_reducible repeat' first
    | exact h | apply sealSlot_down | apply restartChunk_down | fail_if_no_progress (refine Down.upd rfl ?_) | split

theorem judgeFlush_down {x : State} (h : Down x) : Down (judgeFlush x) := by
  unfold judgeFlush refuse
  with_reducible repeat' first
    | exact h | apply complete_down | apply checkFlush_down | apply requestSeal_down | apply wakeForData_down
    | fail_if_no_progress (refine Down.upd rfl ?_) | split

theorem checkpoint_down {x : State} (h : Down x) : Down (checkpoint x) := by
  unfold checkpoint consultCart consult postNotice
  with_reducible repeat' first
    | exact h | apply postAt_down | apply issueRead_down | apply changeClean_down | fail_if_no_progress (refine Down.upd rfl ?_) | split
    | dsimp only

theorem event_down (e : Ev) {x : State} (h : Down x) : Down (event e x) := by
  unfold event
  with_reducible repeat' first
    | exact h | apply offerToCounters_down | apply checkpoint_down | fail_if_no_progress (refine Down.upd rfl ?_) | split | dsimp only

theorem cancelDwell_down (j : JobId) {x : State} (h : Down x) : Down (cancelDwell j x) := by
  unfold cancelDwell
  with_reducible repeat' first | exact h | apply event_down | fail_if_no_progress (refine Down.upd rfl ?_) | split

theorem startRunning_down (c : FwCmd) {x : State} (h : Down x) : Down (startRunning c x) := by
  unfold startRunning
  with_reducible repeat' first | exact h | apply setJob_down | apply cancelDwell_down | split

theorem judgeLate_down (j : JobId) {x : State} (h : Down x) : Down (judgeLate x j) := by
  unfold judgeLate judgeWriteClose enterClosing sealWhenIdle refuse judgeSetStreamPolicy applyPolicy judgeSetPowerPolicy
  with_reducible repeat' first
    | exact h | apply completeWith_down | apply judgeFlush_down | apply complete_down | apply checkClose_down | apply wakeForData_down
    | apply sealSlot_down | apply startRunning_down | fail_if_no_progress (refine Down.upd rfl ?_) | split | dsimp only

theorem judgeDeferred_down {x : State} (h : Down x) : Down (judgeDeferred x) :=
  Down.ite h (foldl_down _ (fun _ j k => judgeLate_down j k) (Down.upd rfl h))

theorem settle_down {x : State} (h : Down x) : Down (settle x) := by
  unfold settle
  with_reducible exact noteTarget_down (checkRestart_down (checkExhaustion_down (startFetch_down (checkClose_down (checkFlush_down (rejudgeHeld_down
    (checkClose_down (checkFlush_down (judgeDeferred_down h)))))))))

theorem followPower_transport (old new : Power) (x : State) : (followPower old new x).ch.transport = x.ch.transport := by
  unfold followPower
  split <;> dsimp only [openWindow_ch] <;> split <;> rfl

theorem setTransport_faulted_transport (x : State) : (setTransport .faulted x).ch.transport = .faulted := by
  simp only [setTransport, holdIdle_frame, noteTarget_eq, enterEffects_faulted, lost_ch, followPower_transport]

/-- The entry to FAULTED ends there, whatever the state it begins in and the operations it ends (R4). -/
theorem enterFaulted_down (st : Status) (x : State) : Down (enterFaulted st x) := by
  have entered : Down { setTransport .faulted (zeroAll x) with re.brake := true, ch.step := none, mo.recal := false } :=
    ⟨setTransport_faulted_transport _, rfl, rfl⟩
  unfold enterFaulted
  with_reducible exact settle_down (loseOperations_down (endTransport_down st (cleaningFailed_down (holdIdle_down (endRecovery_down entered)))))

theorem enterFaulted_mem (st : Status) (x : State) : (enterFaulted st x).mem = x.mem := (enterFaulted_keeps st (.refl x)).mem

/-- Settles O13: each step's branch of the two limits is evaluated; an entry to FAULTED from the load ends there whatever it ends on the way. -/
theorem stepLimitsJudged : Obligations.StepLimitsJudged := by
  refine ⟨?_, ?_⟩
  · intro s loading brake noted_ goOn seat first clean next last
    obtain ⟨tstar, activityAt⟩ := (noted_iff s).mp noted_
    have hold : s.ch.step ≠ some .threadPull → s.re.tstar = Config.tHold := fun ne => by simpa [tStar, loading, ne] using tstar
    have notLast (h : s.ch.attempt < 3) : ¬3 ≤ s.ch.attempt := by omega
    have counted (h : s.ch.attempt < 3) : min 3 (s.ch.attempt + 1) = s.ch.attempt + 1 := by omega
    refine ⟨?_, ?_, ?_, ?_, ?_, ?_, ?_, ?_, ?_⟩
    · intro at_ attempt
      simp [next, exec, execLoadStepLimit, loadStepFails, holdIdle, loopsRun, noteTarget_eq, tStar, activityAt, hold, at_, notLast,
        attempt, loading, brake, goOn]
    · intro at_ attempt
      simp [last, exec, execLoadStepLimit, loadStepFails, cleaningFailed, loadEject, startEject, holdIdle, loopsRun, noteTarget_eq, tStar,
        activityAt, hold, at_, clean, attempt, loading, brake, seat]
    · intro at_ attempt
      simp [next, exec, execLoadStepLimit, loadStepFails, holdIdle, loopsRun, noteTarget_eq, tStar, activityAt, hold, at_, notLast,
        attempt, loading, brake, goOn]
    · intro at_ attempt
      simp [next, exec, execLoadStepLimit, loadStepFails, holdIdle, loopsRun, noteTarget_eq, tStar, activityAt, hold, at_, notLast,
        attempt, loading, brake, goOn]
    · rintro (at_ | at_) attempt <;>
      simp [last, exec, execLoadStepLimit, loadStepFails, cleaningFailed, holdIdle, loopsRun, noteTarget_eq, tStar, activityAt, hold, at_, clean,
        attempt, loading, brake, goOn]
    · intro at_ attempt
      simp [next, exec, execLoadStepLimit, loadStepFails, startBackArm, holdIdle, loopsRun, noteTarget_eq, tStar, activity, at_, notLast,
        attempt, loading, brake, goOn]
    · intro at_ attempt
      simp [last, exec, execLoadStepLimit, loadStepFails, startBackArm, cleaningFailed, holdIdle, loopsRun, noteTarget_eq, tStar, activity, at_,
        clean, attempt, loading, brake]
    · rintro (at_ | at_) attempt <;>
      simp [next, exec, execLoadStepLimit, loadStepFails, startTensionDown, at_, notLast, attempt, loading, goOn]
    · have ends (x : State) (mem : x.mem = s.mem) :
          ∃ t, (.next (enterFaulted .threadFailed x) : Out) = .next t ∧ t.ch.transport = .faulted ∧ t.ch.step = none ∧
            t.re.brake = true ∧ t.mem = s.mem := by
        obtain ⟨transport, step, brake⟩ := enterFaulted_down .threadFailed x
        exact ⟨_, rfl, transport, step, brake, (enterFaulted_mem .threadFailed x).trans mem⟩
      rintro (at_ | at_ | at_) <;> simp only [exec, execLoadStepLimit, loading, at_, if_true] <;> exact ends _ rfl
  · intro tag force s unloading seat brake room running write read calm user cancelled clean
    obtain ⟨⟨deferred, session, intake, watch, held, flush, close⟩, noted_⟩ := (quiet_iff s).mp calm
    obtain ⟨tstar, activityAt⟩ := (noted_iff s).mp noted_
    obtain ⟨room, none_⟩ := (cqOpen_iff s).mp room
    refine ⟨?_, ?_, ?_⟩
    · intro at_
      have hold : s.re.tstar = Config.tStream := by simpa [tStar, unloading] using tstar
      simp [exec, execUnloadStepLimit, startEject, postAt, holdIdle, loopsRun, noteTarget_eq, tStar, hold, activityAt, at_, seat, unloading, brake,
        room, none_]
    · rintro (at_ | at_ | at_ | at_) <;>
      simp [exec, execUnloadStepLimit, unloadFails, enterFaulted, setTransport, holdIdle, loopsRun, noteTarget_eq, tStar, activity,
        endRecovery, emptyStack_frame, endTransport, cleaningFailed, loseOperations, runningOp, sessionError, dropOnTape_frame, writerDropped_flush, writerDropped_close,
        completeWith, complete, postJobEnd, noteStatus, rearmAfter, endRunning, room, none_, cancelled, running, runningNow,
        AtEase.settle_eq, atEase_iff, Job.clear, at_, unloading, write, read, user, clean, deferred, session, intake, watch,
        held, flush, close]
    · intro at_
      simp [exec, execUnloadStepLimit, unloadFails, enterFaulted, setTransport, holdIdle, loopsRun, noteTarget_eq, tStar, activity,
        endRecovery, emptyStack_frame, endTransport, cleaningFailed, loseOperations, runningOp, sessionError, dropOnTape_frame, writerDropped_flush, writerDropped_close,
        completeWith, complete, postJobEnd, noteStatus, rearmAfter, endRunning, room, none_, cancelled, running, runningNow,
        AtEase.settle_eq, atEase_iff, Job.clear, at_, unloading, write, read, user, clean, deferred, session, intake, watch,
        held, flush, close]

end Sys2Proof.Machine
end
